-- ==== Sys2Proof/Word.lean ====
section
/-!
DEFINITION. Word.lean: the words of the module (R6: bit 0 is the least significant bit; R13: registers of
32 or 64 bits) and the one sparse table type that every keyed store of the model uses.
-/

namespace Sys2Proof

/-- One byte of a memory. -/
abbrev Byte := BitVec 8
/-- A 16-bit word. -/
abbrev W16 := BitVec 16
/-- A 32-bit word: a 32-bit register, an FP32 encoding. -/
abbrev W32 := BitVec 32
/-- A 64-bit word: a 64-bit register, a scalar register, a device address in a structure. -/
abbrev W64 := BitVec 64

/-- Sparse data by key: pairs sorted by key, no key twice, no entry equal to what an unlisted key reads as
(`Machine.Tbl.wf` says so). -/
abbrev Tbl (α : Type) := List (Nat × α)

/-- A byte memory: the host's cells in the canonical form. -/
abbrev Mem := Tbl Byte

end Sys2Proof
end

