-- ==== Sys2Proof/Syntax.lean ====
section
/-!
DEFINITION. Syntax.lean: the commands of the block, one constructor per row of spec/opcode_table.json. The table gives
the rows no operands; those below are what the rules let a sender or the surroundings choose (log 1).
-/

namespace Sys2Proof

/-- A unit of a die with the cycles the event waited, counted by the command's sender (R38, R214). -/
structure Timed where
  /-- The engine, the die or the core the command names. -/
  unit : Nat
  /-- The cycles waited. -/
  cycles : Nat
  deriving DecidableEq, Repr

/-- What the forward error correction of a port found in the codewords of one arriving packet (R305, R320). -/
structure Fec where
  /-- The codewords it corrected. -/
  fixed : Nat
  /-- The codewords it could not correct. -/
  bad : Nat
  deriving DecidableEq, Repr

/-- What stands before a poll of the rings (R325, R334). -/
structure Poll where
  /-- The writes the host made through BAR4, each an offset and its bytes, in order. -/
  writes : List (Nat × List Byte)
  /-- The rings whose control core failed a check of its own. -/
  failed : List Nat
  deriving DecidableEq, Repr

/-- The kind of an access of the endpoint that no register answers (R325). -/
structure BadAccess where
  /-- A write. -/
  write : Bool
  /-- A read of BAR4. -/
  bar4 : Bool
  deriving DecidableEq, Repr

/-- How a 64-bit write of a register comes in (R340). -/
structure Access where
  /-- All eight bytes carry data. -/
  full : Bool
  /-- It comes through BAR0, not by I3C. -/
  bar : Bool
  deriving DecidableEq, Repr

/-- What passed since the last budget mark (R20, R382, R391). -/
structure Since where
  /-- The TCLK cycles since then. -/
  tclk : Nat
  /-- The words of memory whose error was corrected since then. -/
  corrected : Nat
  /-- The words of memory found uncorrectable since then. -/
  bad : List Nat
  deriving DecidableEq, Repr

/-- A command: an event of the block, a bus access, a host command, or a step of one of its engines. -/
inductive Instr where
  /-- TICK_EDGE (R460). The tick generator produces a tick edge: the local timer or holdover timer reaching its count, the first edge after READY, or the cause passed on from the followed port. -/
  | tickEdge
  /-- TICK_ORDERED_SET (R315). A TICK ordered-set arrives on a fabric port. It is checked, counted toward the port becoming good, cross-checked against the followed port, and may cause an edge. -/
  | tickOrderedSet (port : Nat) (block : List Byte) (at_ : Nat)
  /-- TICK_PORT_TIMEOUT (R30). No ordered-set arrives within 1.5 periods, so the port stops being good and the generator follows another good port. -/
  | tickPortTimeout (port : Nat) (at_ : Nat)
  /-- WINDOW_END (R38). An engine's domain observes a packet's end-tick edge, and the packet is judged on time, overrunning under CONTINUE, or stopped under ABORT. -/
  | windowEnd (e : Timed)
  /-- PACKET_COMPLETE (R37). A work packet retires its last instruction and all its writes are accepted. Its status is reported, and grain uses and holdings are released. -/
  | packetComplete (e : Nat) (cycles : Nat)
  /-- MATRIX_SEQUENCE (R106). A matrix sequence packet starts once eligible and its holdings and grains are free. It reads its shape words, resolves fenced, shape and empty cases, and begins its items. -/
  | matrixSequence (die : Nat) (c : Nat) (st : Nat)
  /-- TILE_CLAIM (R103). A core presents an epoch and a limit to a tile-claim counter, and one atomic operation returns an index or NONE. -/
  | tileClaim (die : Nat) (c : Nat) (st : Nat)
  /-- ITEM_BEGIN (R108). An item begins. Its pointer-list entry is read and its extents, addresses, format pair and buffer regions are checked before it has any effect. -/
  | itemBegin (die : Nat) (c : Nat) (st : Nat)
  /-- LOAD_A (R97). Loads the rows of A over the chunk's K range into the operand buffer, directly or through the transposing buffer. -/
  | loadA (die : Nat) (c : Nat) (st : Nat)
  /-- LOAD_B (R97). Loads the stored rows of B over the chunk's K range into the operand buffer. -/
  | loadB (die : Nat) (c : Nat) (st : Nat)
  /-- LOAD_WRITTEN (R462). A LOAD writes its last byte, which releases the MMAs and the next LOAD that wait on it. -/
  | loadWritten (die : Nat) (c : Nat) (st : Nat) (tb : Bool) (cycles : Nat)
  /-- MMA (R97). Feeds a chunk's slices into a tile. The tile opens from its initial value in chunk 0 and drains after the last chunk. -/
  | mma (die : Nat) (c : Nat) (st : Nat) (waited : Nat)
  /-- REPEAT_N (R97). Executes the following instructions once for each gj, stepping the operand-buffer offsets. -/
  | repeatN (die : Nat) (c : Nat) (st : Nat)
  /-- TILE_EXCHANGE (R101). A tile that needs a register set is brought in: the set is cleared, a tile is parked, C0 is loaded, or a parked tile is restored over the column path. -/
  | tileExchange (die : Nat) (c : Nat) (st : Nat) (stall : Nat)
  /-- TBUF_LOAD_START (R130). The transposing buffer begins serving the next waiting TRANSPOSE LOAD, stream B first, and re-blocks it when block-scaled. -/
  | tbufLoadStart (die : Nat) (c : Nat)
  /-- ARBITRATION_POINT (R140). At the end of a run, or while stopped, the feeder picks a ready B tile, else a ready F tile, else stops. -/
  | arbitrationPoint (die : Nat) (c : Nat) (at_ : Nat)
  /-- RAMP_STEP_END (R79). A ramp step of L/8 cycles ends, and the duty rises or falls by one eighth. -/
  | rampStepEnd (die : Nat) (c : Nat)
  /-- FEEDER_HOLD_END (R80). 64 ACLK cycles have passed since the last real slice, so the feeder goes idle. -/
  | feederHoldEnd (die : Nat) (c : Nat)
  /-- RAMP_TOKEN_GRANT (R82). A free ramp token is granted to a waiting core, in request order, and its ramp-in begins. -/
  | rampTokenGrant (die : Nat) (at_ : Nat)
  /-- RAMP_TOKEN_RETURN (R82). A granted ramp token returns at the end of cycle L-1. -/
  | rampTokenReturn (die : Nat) (c : Nat) (at_ : Nat)
  /-- TILE_DRAIN (R123). A tile's rows enter the drain unit and pass through the entry stage and its chain at full or half rate. -/
  | tileDrain (die : Nat) (c : Nat) (late : Bool)
  /-- DRAIN_STALL_RESUME (R124). A stalled drain resumes when its operand data or grain arrives or its write queue drains. -/
  | drainStallResume (die : Nat) (c : Nat) (cycles : Nat)
  /-- ATTENTION_FORWARD (R147). A forward attention packet starts. It reads and buckets the sequence list, checks its entries, and runs items of scores with online softmax. -/
  | attentionForward (die : Nat) (c : Nat) (st : Nat)
  /-- ATTENTION_BACKWARD (R156). A backward attention packet runs items per key block, computing dV, dK and dQ. -/
  | attentionBackward (die : Nat) (c : Nat) (st : Nat)
  /-- KV_APPEND (R160). A KV append packet processes entries in order, folding masses, evicting, rotating and writing tokens into region slots. -/
  | kvAppend (die : Nat) (unit : Nat)
  /-- KV_REGION_LOCK (R164). A KV append unit takes a region's lock when it is free, in request order. -/
  | kvRegionLock (region : Nat) (cycles : Nat)
  /-- KV_EVICT (R162). Once no attend item reads the region, masses are folded and victims are evicted until enough slots are free. -/
  | kvEvict (die : Nat) (unit : Nat) (cycles : Nat)
  /-- CONV_FORWARD (R172). A convolution packet with OP 0 runs as an implicit product, gathering X and skipping padding taps. -/
  | convForward (die : Nat) (c : Nat) (st : Nat)
  /-- CONV_INPUT_GRADIENT (R175). A convolution packet with OP 1 computes the input gradient, padded when the pad mode is not zero. -/
  | convInputGradient (die : Nat) (c : Nat) (st : Nat)
  /-- CONV_WEIGHT_GRADIENT (R172). A convolution packet with OP 2 computes the weight gradient from transposed dY and gathered X. -/
  | convWeightGradient (die : Nat) (c : Nat) (st : Nat)
  /-- INPUT (R182). Winograd op INPUT transforms input patches into V. -/
  | input (die : Nat) (unit : Nat)
  /-- WEIGHT (R182). Winograd op WEIGHT transforms kernels into U. -/
  | weight (die : Nat) (unit : Nat)
  /-- OUTPUT (R182). Winograd op OUTPUT inverse-transforms M, adds bias, applies the activation and converts to Y. -/
  | output (die : Nat) (unit : Nat)
  /-- COPY (R184). Mover op: moves strided rows from source to destination. -/
  | copy (die : Nat) (unit : Nat)
  /-- GATHER (R184). Mover op: moves rows chosen by an index list, faulting on the first index that is out of range. -/
  | gather (die : Nat) (unit : Nat)
  /-- S2D (R185). Mover op: regroups fine positions into coarse channels, with fill. -/
  | s2d (die : Nat) (unit : Nat)
  /-- D2S (R185). Mover op: applies the inverse regrouping back to fine positions. -/
  | d2s (die : Nat) (unit : Nat)
  /-- PAD_FOLD (R186). Mover op: adds a padded gradient onto the input elements it resolves to. -/
  | padFold (die : Nat) (unit : Nat)
  /-- POOL_MAX (R187). Mover op: max pooling, writing values and winner indices. -/
  | poolMax (die : Nat) (unit : Nat)
  /-- POOL_AVG (R187). Mover op: average pooling. -/
  | poolAvg (die : Nat) (unit : Nat)
  /-- POOL_MAX_BWD (R187). Mover op: backward of max pooling through the stored indices. -/
  | poolMaxBwd (die : Nat) (unit : Nat)
  /-- POOL_AVG_BWD (R187). Mover op: backward of average pooling. -/
  | poolAvgBwd (die : Nat) (unit : Nat)
  /-- VECTOR_PROGRAM (R232). A vector program packet starts, initialising the registers and running instructions until END. -/
  | vectorProgram (die : Nat) (idx : Nat)
  /-- FMA (R234). Vector fused multiply-add. -/
  | fma (die : Nat) (idx : Nat)
  /-- ADD (R234). Vector add. -/
  | add (die : Nat) (idx : Nat)
  /-- MUL (R234). Vector multiply. -/
  | mul (die : Nat) (idx : Nat)
  /-- MAX (R234). Vector IEEE maximum. -/
  | max (die : Nat) (idx : Nat)
  /-- MIN (R234). Vector IEEE minimum. -/
  | min (die : Nat) (idx : Nat)
  /-- FUNC (R234). Vector transcendental or division function selected by sub. -/
  | func (die : Nat) (idx : Nat)
  /-- VECTOR_ACT (R234). Vector ACT opcode: an activation or its derivative. -/
  | vectorAct (die : Nat) (idx : Nat)
  /-- CMP (R234). Vector comparison into a mask register. -/
  | cmp (die : Nat) (idx : Nat)
  /-- SEL (R234). Lane-wise select by a mask. -/
  | sel (die : Nat) (idx : Nat)
  /-- RED (R234). Reduction of 256 lanes by a fixed pairwise tree. -/
  | red (die : Nat) (idx : Nat)
  /-- BCAST (R234). Broadcasts one lane to all lanes. -/
  | bcast (die : Nat) (idx : Nat)
  /-- LD (R234). Loads plain-format elements, widened exactly to FP32. -/
  | ld (die : Nat) (idx : Nat)
  /-- ST (R234). Stores converted elements, optionally with stochastic rounding. -/
  | st (die : Nat) (idx : Nat)
  /-- LDB (R234). Loads and decodes a block-scaled format. -/
  | ldb (die : Nat) (idx : Nat)
  /-- STB (R234). Stores in a block-scaled format, with the scales derived. -/
  | stb (die : Nat) (idx : Nat)
  /-- STACC (R234). Accumulate-writes a vector register to memory. -/
  | stacc (die : Nat) (idx : Nat)
  /-- RNG (R241). Draws generator words, uniforms or Gaussians per lane. -/
  | rng (die : Nat) (idx : Nat)
  /-- XADD (R234). Scalar add with immediate. -/
  | xadd (die : Nat) (idx : Nat)
  /-- XSHL (R234). Scalar shift left. -/
  | xshl (die : Nat) (idx : Nat)
  /-- XLD (R234). Scalar 64-bit load. -/
  | xld (die : Nat) (idx : Nat)
  /-- LOOP (R234). Repeats the following instructions a counted number of times. -/
  | loopOp (die : Nat) (idx : Nat)
  /-- PROGRAM_END (R239). The END opcode ends the vector program; the packet completes once its stores are accepted. -/
  | programEnd (die : Nat) (idx : Nat)
  /-- CHOL (R243). In-place Cholesky factorisation in scratch, reporting a failed pivot. -/
  | chol (die : Nat) (idx : Nat)
  /-- TRINV (R243). In-place lower-triangular inverse in scratch. -/
  | trinv (die : Nat) (idx : Nat)
  /-- GRAIN_TAP (R198). Tap bytes reach a grain's Yo-yo and are accepted or rejected. A grain that becomes complete has its policy applied. -/
  | grainTap (die : Timed)
  /-- STORE_BEGIN (R199). A completed grain's store starts when a transfer place and a codec engine are free. -/
  | storeBegin (die : Nat)
  /-- CODEC_DISPATCH (R215). A Yo-yo hands a waiting encode or decode to the lowest idle codec engine in its mask. -/
  | codecDispatch (die : Nat)
  /-- POOL_REQUEST (R200). A Yo-yo issues a host-pool read or write request once the share limit allows. -/
  | poolRequest (die : Nat) (at_ : Nat)
  /-- STORE_COMPLETE (R194). The last byte of a stored form is accepted, and the grain moves to its stored state. -/
  | storeComplete (g : Nat)
  /-- RESTORE_TICK (R201). At a tick edge, the Yo-yo begins restores of stored grains whose restore tick has come, and abandons outbound stores. -/
  | restoreTick (die : Nat)
  /-- RESTORE_BEGIN (R201). A pending or queued restore begins once a transfer place is free and its raw region is vacated. -/
  | restoreBegin (die : Nat)
  /-- RESTORE_COMPLETE (R194). A restore or replay returns the last raw byte, and the grain becomes LIVE. -/
  | restoreComplete (g : Nat) (waited : Nat)
  /-- RESTORE_FAILURE (R206). A restore fails on a host error, an uncorrectable read, a codec rejection or a replay failure. The grain becomes EMPTY and unavailable, and its waiting consumers fault. -/
  | restoreFailure (g : Nat) (waited : Nat)
  /-- DUE_TICK_RELEASE (R197). At its due tick, a grain with zero uses and HOLD clear is released. -/
  | dueTickRelease (g : Nat)
  /-- REPLAY_START (R204). A replay core takes the head of the replay queue, restores the inputs and runs the string's segments. -/
  | replayStart (die : Nat) (c : Timed)
  /-- REPLAY_END (R204). A replay's last segment ends, and the rebuilt grain becomes LIVE or fails. -/
  | replayEnd (die : Nat) (c : Nat) (waited : Nat)
  /-- ADOPT (R209). Residency directive: makes a grain LIVE and complete from the data at raw_base. -/
  | adopt (die : Timed)
  /-- RESTORE (R209). Residency directive: begins a demand restore. -/
  | restore (die : Nat)
  /-- RELEASE (R209). Residency directive: releases a grain. -/
  | release (die : Nat)
  /-- DEMOTE (R209). Residency directive: applies a store policy now. -/
  | demote (die : Nat)
  /-- HOLD (R209). Residency directive: sets HOLD. -/
  | hold (die : Nat)
  /-- UNHOLD (R209). Residency directive: clears HOLD, releasing the grain if it has no uses left. -/
  | unhold (die : Nat)
  /-- ENCODE (R229). Codec job that encodes raw data into a stored form within dst_limit. -/
  | encode (die : Nat) (unit : Nat)
  /-- DECODE (R229). Codec job that decodes a stored form, rejecting bad forms. -/
  | decode (die : Nat) (unit : Nat)
  /-- YOYO_CTRL_SNAP (R211). A write of SNAP copies every Yo-yo counter into its snapshot copy in one cycle. -/
  | yoyoCtrlSnap (die : Nat) (bar : Bool)
  /-- BUSHEL_SEND (R253). The hub transfer engine sends the named bushels' segments to each peck destination, then an END per peck. -/
  | bushelSend
  /-- PARAMETER_BROADCAST (R263). The hub transfer engine sends its own peck of the compute copy to every receiver, by multicast or unicast. -/
  | parameterBroadcast
  /-- MIRROR_SEND (R287). The hub transfer engine stripes the shard's segments and a hub state segment to the mirror, with an END per port. -/
  | mirrorSend
  /-- UPDATE (R275). An update packet carries out the verdict resolution, applying the recurrence per entry or copying means to the hold area. -/
  | update (die : Nat) (idx : Nat)
  /-- BUSHEL_OPEN (R256). At the open tick, the RAUs clear the side records of the peck or result. -/
  | bushelOpen (entry : Nat)
  /-- SEGMENT (R256). A SEGMENT packet arrives at the bushel tracker and is judged late or passed to its RAU. -/
  | segment (port : Nat) (pkt : List Byte) (fec : Fec)
  /-- RAU_ADD (R257). A RAU handles a queued contribution: it writes or adds it, updates the side record, and closes the segment by count. -/
  | rauAdd (stack : Nat) (pc : Nat)
  /-- END_PACKET (R260). An END packet is counted once every earlier packet of its channel has been judged, or it is a mirror END. -/
  | endPacket (port : Nat) (pkt : List Byte) (fec : Fec)
  /-- RESULT (R261). A RESULT packet arrives and is written with its side record. -/
  | result (port : Nat) (pkt : List Byte) (fec : Fec)
  /-- VERDICT_RECORD (R262). A verdict record arrives and is written at buf_base, or is late. -/
  | verdictRecord (port : Nat) (pkt : List Byte) (fec : Fec)
  /-- BUSHEL_DEADLINE (R259). At the deadline tick, an OWNER bushel closes its open segments by deadline once pending adds end. -/
  | bushelDeadline (entry : Nat)
  /-- RESULT_TICK (R259). At its result tick, a RECEIVE bushel closes and marks absent segments MISSING. -/
  | resultTick (entry : Nat)
  /-- BUSHEL_CLOSE (R259). The bushel's segments are all closed, and the close record and END bitmap are written. A REPLICATED root then sends its RESULTs. -/
  | bushelClose (entry : Nat) (receive : Bool)
  /-- VERDICT_FORM (R266). The coordinator forms the verdict record from the reduced words, updates its verdict state and sends the record. -/
  | verdictForm (entry : Nat)
  /-- VERDICT_RESOLUTION (R269). At the verdict bushel's result tick, the hub resolves the step's update list, t_use, pending and STALE. -/
  | verdictResolution (entry : Nat)
  /-- MIRROR (R288). A MIRROR segment arrives and is written to the landing slot or discarded as late. A complete landing starts its copy. -/
  | mirror (port : Nat) (pkt : List Byte) (fec : Fec)
  /-- LANDING_COPY_END (R288). The copy of the landing slot over the live slot ends, and held mirror segments are released. -/
  | landingCopyEnd
  /-- LANDING_BOUNDARY_CHECK (R291). At a step boundary, a landing that did not complete sets LANDING_MISSED and triggers promotion when AUTO_PROMOTE is set. -/
  | landingBoundaryCheck
  /-- PROMOTION (R291). The mirror promotes itself: it activates its standby entries, adopts the verdict state and sends PROMOTE_NOTICE. -/
  | promotion
  /-- PROMOTE_NOTICE (R292). A promote notice arrives. It deposes the old owner or adds a substitution to the owner map. -/
  | promoteNotice (port : Nat) (pkt : List Byte) (fec : Fec)
  /-- STAGING_BEGIN (R294). At a snapshot boundary, staging of the regions, manifest, state block and cursor begins, or is deferred. -/
  | stagingBegin
  /-- STAGING_END (R294). Staging ends, held writes are released, and the drain to flash begins. -/
  | stagingEnd (heldCycles : Nat)
  /-- GENERATION_COMMIT (R295). After every data page is programmed, the signed commit record is programmed. -/
  | generationCommit
  /-- FLASH_FAILURE (R302). A flash program or erase fails. The block is retired and replaced, and the generation is rewritten or fails. -/
  | flashFailure (block : Nat)
  /-- EXPORT_STAGING (R298). At its boundary, an armed export stages its regions, then converts and ships the stream. -/
  | exportStaging (heldCycles : Nat)
  /-- EXPORT (R298). An EXPORT packet arrives and is written into an open window, or is discarded. -/
  | exportPacket (port : Nat) (pkt : List Byte) (fec : Fec)
  /-- IDLE (R309). An IDLE header arrives carrying acknowledgements and credit returns. -/
  | idle (port : Nat) (pkt : List Byte) (fec : Fec)
  /-- LINK_INIT (R310). The INIT block from the other end arrives; credits and sequence numbers are set or resumed, and the port goes UP. -/
  | linkInit (port : Nat) (block : List Byte)
  /-- EGRESS_SELECT (R312). At a packet boundary, the port picks the next packet with credit, VC2 first. -/
  | egressSelect (port : Nat) (waited : Nat)
  /-- RETRY_TIMEOUT (R311). 100 us pass with unacknowledged packets, so the sender replays from the oldest. -/
  | retryTimeout (port : Nat)
  /-- LANE_FAULT (R306). A lane in use becomes bad, and the port retrains narrower or goes DOWN. -/
  | laneFault (port : Nat) (lane : Nat)
  /-- TRAINING_END (R307). Port training completes at a width at least MIN_WIDTH, or fails and the port goes DOWN. -/
  | trainingEnd (port : Nat) (lanes : Nat) (inverted : Nat) (reversed : Bool)
  /-- RETRAIN_END (R307). Retraining ends, UP at a narrower width or DOWN. -/
  | retrainEnd (port : Nat) (lanes : Nat)
  /-- PORT_RETRY_TIMER (R307). One second after the last attempt, a DOWN port starts training again. -/
  | portRetryTimer (port : Nat)
  /-- COMMAND_POLL (R330). On the poll period or a tick edge, the Puppeteer reads each enabled ring's head and fetches slots, halting on errors. -/
  | commandPoll (poll : Poll)
  /-- LOCK_GRANT (R332). A released lock passes to the oldest waiter, whose command then executes. -/
  | lockGrant (waited : Nat) (dead : Nat)
  /-- LOCK_WAIT_TIMEOUT (R332). A command that waits longer than WAIT_LIMIT completes with TIMEOUT. -/
  | lockWaitTimeout (r : Nat) (waited : Nat)
  /-- HOST_COMPLETION (R323). A completion for a module read arrives, possibly with an error, and is handled by request kind. -/
  | hostCompletion (idx : Nat) (error : Bool) (writes : List (Nat × List Byte))
  /-- COMPLETION_TIMEOUT (R323). A module read reaches the completion timeout and is handled by request kind. -/
  | completionTimeout (idx : Nat)
  /-- BAR2_READ (R326). A host read through BAR2 reaches device memory, or returns 0 outside it. -/
  | bar2Read (off : Nat) (n : Nat)
  /-- BAR2_WRITE (R326). A host write through BAR2 reaches device memory, is held, or is dropped and counted. -/
  | bar2Write (off : Nat) (bs : List Byte) (poisoned : Bool)
  /-- BAR0_BAD_ACCESS (R325). A BAR0 access of illegal size or alignment reads 0 or is ignored, and sets BAD_ACCESS. -/
  | bar0BadAccess (how : BadAccess) (bytes : Nat)
  /-- PM_STATE_CHANGE (R321). The function enters or leaves D3hot, stopping or resuming command fetch and host-pool requests. -/
  | pmStateChange (d3hot : Bool)
  /-- DOE_OBJECT (R327). A DOE data object is received whole and dispatched, or discarded when too long. -/
  | doeObject (type : Nat) (bs : List Byte)
  /-- DOE_ABORT (R327). A DOE Abort discards the object in progress. -/
  | doeAbort
  /-- GET_VERSION (R411). SPDM request GET_VERSION is answered. -/
  | getVersion
  /-- GET_CAPABILITIES (R411). SPDM request GET_CAPABILITIES is answered. -/
  | getCapabilities
  /-- NEGOTIATE_ALGORITHMS (R411). SPDM request NEGOTIATE_ALGORITHMS is answered. -/
  | negotiateAlgorithms
  /-- GET_DIGESTS (R411). SPDM request GET_DIGESTS is answered. -/
  | getDigests
  /-- GET_CERTIFICATE (R411). SPDM request GET_CERTIFICATE returns the slot 0 identity chain. -/
  | getCertificate
  /-- CHALLENGE (R411). SPDM request CHALLENGE is signed with the identity key. -/
  | challenge
  /-- GET_MEASUREMENTS (R412). SPDM request GET_MEASUREMENTS returns the measurement blocks from one consistent state. -/
  | getMeasurements
  /-- KEY_EXCHANGE (R411). SPDM request KEY_EXCHANGE opens a session. -/
  | keyExchange
  /-- FINISH (R411). SPDM request FINISH completes session setup. -/
  | finish
  /-- HEARTBEAT (R411). SPDM request HEARTBEAT is answered. -/
  | heartbeat
  /-- KEY_UPDATE (R411). SPDM request KEY_UPDATE updates the session keys. -/
  | keyUpdate
  /-- END_SESSION (R411). SPDM request END_SESSION ends the session. -/
  | endSession
  /-- PLAN_BIND (R343). Checks a plan image and arms it as the shadow binding for first_step_tick. -/
  | planBind (ring : Nat) (hold : Bool)
  /-- PLAN_UNBIND (R343). Arms unbinding of the active plan at a boundary. -/
  | planUnbind (ring : Nat) (hold : Bool)
  /-- PLAN_CANCEL (R343). Disarms an armed binding or unbinding. -/
  | planCancel (ring : Nat) (hold : Bool)
  /-- UNBIND_AT_BOUNDARY (R343). At the armed boundary, the plan is unbound: no packet starts, grains go EMPTY and claim counters reset. -/
  | unbindAtBoundary
  /-- KV_TABLE_SET (R343). Registers the KV region table. -/
  | kvTableSet (ring : Nat) (hold : Bool)
  /-- KV_CREATE (R343). Creates a KV region, computing slot_bytes and clearing its slots. -/
  | kvCreate (ring : Nat) (hold : Bool)
  /-- KV_DESTROY (R343). Marks a KV region absent. -/
  | kvDestroy (ring : Nat) (hold : Bool)
  /-- TICK_CFG (R344). Writes the tick configuration shadow: mode and period. -/
  | tickCfg (ring : Nat) (hold : Bool)
  /-- YOYO_TABLE_SET (R345). Registers a Yo-yo descriptor table. -/
  | yoyoTableSet (ring : Nat) (hold : Bool)
  /-- POOL_ADD (R345). Registers a host-pool extent. -/
  | poolAdd (ring : Nat) (hold : Bool)
  /-- POOL_REMOVE (R345). Deregisters a host-pool extent. -/
  | poolRemove (ring : Nat) (hold : Bool)
  /-- POOL_LIST (R345). Writes the list of registered extents. -/
  | poolList (ring : Nat) (hold : Bool)
  /-- JOB_TABLE_SET (R346). Copies the job table, directory and lists into the hub. -/
  | jobTableSet (ring : Nat) (hold : Bool)
  /-- OWNER_MAP_READ (R347). Writes the owner map substitutions. -/
  | ownerMapRead (ring : Nat) (hold : Bool)
  /-- RULE_WRITE (R348). Writes entries of the shadow rule table. -/
  | ruleWrite (ring : Nat) (hold : Bool)
  /-- RULE_READ (R348). Writes out one copy of the rule table. -/
  | ruleRead (ring : Nat) (hold : Bool)
  /-- RULE_COPY (R348). Copies the active rule table to the shadow. -/
  | ruleCopy (ring : Nat) (hold : Bool)
  /-- SNAP_CFG (R350). Sets the snapshot configuration, optionally discarding old generations. -/
  | snapCfg (ring : Nat) (hold : Bool)
  /-- SNAP_NOW (R350). Requests staging at the next boundary. -/
  | snapNow (ring : Nat) (hold : Bool)
  /-- SNAP_RESTORE (R301). Restores a generation from flash or host memory into the regions and module state. -/
  | snapRestore (ring : Nat) (hold : Bool)
  /-- SNAP_EXPORT (R350). Arms an export of converted weights to the host or to another module. -/
  | snapExport (ring : Nat) (hold : Bool)
  /-- EXPORT_WINDOW_OPEN (R350). Opens a window to receive an export stream. -/
  | exportWindowOpen (ring : Nat) (hold : Bool)
  /-- EXPORT_WINDOW_CLOSE (R350). Closes an export receiving window. -/
  | exportWindowClose (ring : Nat) (hold : Bool)
  /-- MIRROR_PROMOTE (R291). Commands promotion of this module's mirror role, at once or at the next boundary. -/
  | mirrorPromote (ring : Nat) (hold : Bool)
  /-- GEN_LIST (R350). Writes the commit records of the valid generations. -/
  | genList (ring : Nat) (hold : Bool)
  /-- TEL_RING_SET (R351). Moves the telemetry ring and resets its indices. -/
  | telRingSet (ring : Nat) (hold : Bool)
  /-- TEL_SELECT (R422). Selects the trace sources and log kinds emitted. -/
  | telSelect (ring : Nat) (hold : Bool)
  /-- TEL_ALARM_CLEAR (R423). Clears a source's alarm latch and emits a CLEARED record. -/
  | telAlarmClear (ring : Nat) (hold : Bool)
  /-- CORE_FENCE (R352). Requests a fence of a core. -/
  | coreFence (ring : Nat) (hold : Bool)
  /-- FENCE_BEGIN (R368). A requested fence begins once the core is idle, and FENCED is set. -/
  | fenceBegin (die : Nat) (c : Nat)
  /-- CORE_UNFENCE (R352). Unfences a core or cancels a requested fence. -/
  | coreUnfence (ring : Nat) (hold : Bool)
  /-- CORE_SPARE_ROW (R352). Sets a fenced core's spare map and records it. -/
  | coreSpareRow (ring : Nat) (hold : Bool)
  /-- CORE_SUBSTITUTE (R352). Maps a fenced logical core to a spare physical position. -/
  | coreSubstitute (ring : Nat) (hold : Bool)
  /-- CORE_TEST (R352). Runs the array self-test on a fenced core and reports the first failing row. -/
  | coreTest (ring : Nat) (hold : Bool) (fails : List Nat)
  /-- LANE_RECAL (R369). Recalibrates unused lanes, then retrains the port wider. -/
  | laneRecal (ring : Nat) (hold : Bool) (good : Nat)
  /-- PLL_RELOCK (R369). Fences a domain and re-locks its PLL. -/
  | pllRelock (ring : Nat)
  /-- RELOCK_END (R377). A re-lock ends: the domain is released at nominal frequency, or still coasting when no edge was found. -/
  | relockEnd (pll : Nat) (found : Bool)
  /-- ROW_REPAIR (R369). Pauses a pseudo-channel, repairs a DRAM row and resumes it. -/
  | rowRepair (ring : Nat) (hold : Bool)
  /-- FLASH_RETIRE (R352). Retires a flash block and replaces it from the spares. -/
  | flashRetire (ring : Nat) (hold : Bool)
  /-- FW_STAGE (R407). Checks and stages a firmware image for an engine class. -/
  | fwStage (ring : Nat) (hold : Bool)
  /-- FW_ACTIVATE (R367). Starts activation of a staged firmware image across its class. -/
  | fwActivate (ring : Nat) (hold : Bool)
  /-- FW_SWITCH (R367). An engine of the staged class switches to the new image at its next idle moment. -/
  | fwSwitch (k : Nat)
  /-- CFG_ARM (R354). Validates the named shadow sets and arms their swap for a tick. -/
  | cfgArm (ring : Nat) (hold : Bool) (dead : Nat)
  /-- CFG_DISARM (R354). Disarms the named sets. -/
  | cfgDisarm (ring : Nat) (hold : Bool)
  /-- CFG_COPY (R354). Copies the active sets to their shadows. -/
  | cfgCopy (ring : Nat) (hold : Bool)
  /-- CFG_VALIDATE (R354). Validates the named shadow sets without arming them. -/
  | cfgValidate (ring : Nat) (hold : Bool) (dead : Nat)
  /-- CONFIG_SWAP (R362). At the armed tick, every set armed for that tick swaps together, or is deferred while outgoing copies are in use. Plan binding effects are included. -/
  | configSwap
  /-- ROLE_CFG (R410). Sets the strap and button enables, the preferred boot image and the checkpoint interval. -/
  | roleCfg (ring : Nat) (hold : Bool)
  /-- AUDIT_READ (R414). Writes audit log entries from the requested number onward. -/
  | auditRead (ring : Nat) (hold : Bool)
  /-- MAKER_FUSE (R409). REPAIR_FUSE action: burns repair fuse words from a signed envelope. -/
  | makerFuse (ring : Nat) (hold : Bool)
  /-- MAKER_CAL (R409). CAL_WRITE action: writes a signed calibration table to boot flash. -/
  | makerCal (ring : Nat) (hold : Bool)
  /-- BOOT_WRITE (R409). MAKER_KEY action: writes a checked boot image into image A or B. -/
  | bootWrite (ring : Nat) (hold : Bool)
  /-- SVN_ADVANCE (R409). MAKER_KEY action: burns a higher security version. -/
  | svnAdvance (ring : Nat) (hold : Bool)
  /-- ROOT_ROTATE (R409). MAKER_KEY action: burns a higher active root slot. -/
  | rootRotate (ring : Nat) (hold : Bool)
  /-- CERT_WRITE (R409). MAKER_KEY action: replaces the identity certificate chain. -/
  | certWrite (ring : Nat) (hold : Bool)
  /-- PWR_CAP (R358). Writes the shadow power cap. -/
  | pwrCap (ring : Nat) (hold : Bool)
  /-- PWR_RANGE (R358). Writes the shadow cap range, moving the cap into it. -/
  | pwrRange (ring : Nat) (hold : Bool)
  /-- CLK_SOURCE (R358). Writes the shadow clock source of a PLL. -/
  | clkSource (ring : Nat) (hold : Bool)
  /-- RING_ENABLE (R328). A write that sets a ring's ENABLE fixes its configuration and zeroes head, tail and phases, or is refused with CFG_ERR. -/
  | ringEnable (r : Nat) (v : Nat) (bar : Bool)
  /-- RING_DISABLE (R328). A write that clears ENABLE stops the ring at its next poll. -/
  | ringDisable (r : Nat) (v : Nat) (bar : Bool)
  /-- READ_INDEX_WRITE (R418). The host writes TEL.READ_INDEX, freeing ring space, or the write is ignored with BAD_READ. -/
  | readIndexWrite (v : Nat) (bar : Bool)
  /-- SRC_SEL_WRITE (R426). Writing TEL.SRC_SEL copies a source's counters and alarm latch into the window registers. -/
  | srcSelWrite (v : Nat) (bar : Bool)
  /-- REGISTER_WRITE (R11). A write to a register with no row of its own takes effect by access type. Installer fields need presence, and SH writes to armed sets are ignored. -/
  | registerWrite (off : Nat) (v : Nat) (how : Access)
  /-- LOW_HALF_READ (R13). A 32-bit read of a 64-bit register's low half latches its high half. -/
  | lowHalfRead (off : Nat) (full : Bool) (bar : Bool)
  /-- HIGH_HALF_READ (R13). A 32-bit read of the high half returns and empties the latch, or returns the current value. -/
  | highHalfRead (off : Nat) (bar : Bool)
  /-- LOW_HALF_WRITE (R13). A 32-bit write of a 64-bit register's low half is held in its staging latch. -/
  | lowHalfWrite (off : Nat) (v : Nat) (bar : Bool)
  /-- HIGH_HALF_WRITE (R13). A 32-bit write of the high half combines with the held or current low half and takes effect as one value. -/
  | highHalfWrite (off : Nat) (v : Nat) (bar : Bool)
  /-- MODULE_RESET (R394). A module reset runs the start-up sequence through boot verification, clocks, stacks, self-test and restore to READY. -/
  | moduleReset (badStacks : Nat) (fails : List (Nat × List Nat))
  /-- DIE_RESET (R399). A write of DIE0 or DIE1 resets one compute die, or is refused. -/
  | dieReset (die : Nat)
  /-- DIE_RESET_END (R399). A die reset ends and the die region is served again. -/
  | dieResetEnd (die : Nat) (fails : List (Nat × List Nat))
  /-- ENGINE_RESET (R399). A write of ENGINE resets the named engine at its next instruction boundary, or is refused. -/
  | engineReset
  /-- RESET_N (R399). RESET_N held low for 10 us causes a module reset. -/
  | resetN (badStacks : Nat) (fails : List (Nat × List Nat))
  /-- PERST_N (R397). PERST_N asserted or released resets the PCIe endpoint and rings' ENABLE, then link training begins. -/
  | perstN (asserted : Bool)
  /-- POWER_GOOD (R380). The input has been in range for 10 ms and the hold-up capacitance has reached 58 V, so power good is declared and start-up begins. -/
  | powerGood (broken : Bool) (badStacks : Nat) (fails : List (Nat × List Nat))
  /-- INPUT_SAG (R381). The input dips below 56 V for less than 100 us; SAG is set and counted. -/
  | inputSag
  /-- INPUT_LOSS (R381). The input stays below 56 V for 100 us, so hold-up begins and INPUT_LOSS is recorded. -/
  | inputLoss
  /-- INPUT_SURGE (R381). A permitted surge between 80 V and 100 V occurs; SURGE is set. -/
  | inputSurge
  /-- OVERVOLTAGE (R381). The input stays above 80 V too long, or surges twice. The input switch opens and hold-up runs. -/
  | overvoltage (volts : Int)
  /-- INPUT_LOW (R381). The input enters or leaves the 56 V to 60 V band. -/
  | inputLow (volts : Nat)
  /-- INPUT_RETURN (R381). After a halt, the input returns above 60 V, and a module reset follows. -/
  | inputReturn (badStacks : Nat) (fails : List (Nat × List Nat))
  /-- HOLDUP (R299). 10 us into hold-up, HOLDUP is set and every packet stops at an instruction boundary. -/
  | holdup
  /-- HOLDUP_CLOCK_STOP (R299). At 100 us, the compute clocks stop, the stacks self-refresh and the links go down. -/
  | holdupClockStop
  /-- HOLDUP_FLASH_STOP (R299). By 3 ms, flash programs in progress complete and drains stop. -/
  | holdupFlashStop
  /-- JOURNAL_TAIL (R299). By 8 ms, the flash journal tail is written. -/
  | journalTail
  /-- HOLDUP_DONE (R299). At 10 ms, HOLDUP_DONE is set. -/
  | holdupDone
  /-- BUDGET_MARK (R383). Every 100 us, the power manager compares mean power and temperatures, then withdraws or returns budget tokens. -/
  | budgetMark (power : Nat) (volts : Nat) (amps : Nat) (die0 : List Int) (die1 : List Int) (logic : List Int) (hub : List Int) (inlet : Int) (outlet : Int) (joules : Nat) (xb : Nat) (throttle : Nat) (since : Since)
  /-- CAP_UNREACHABLE (R384). Power still exceeds the cap 10 ms after both dies hold one token, so the flag and an alarm are raised. -/
  | capUnreachable
  /-- THERMAL_TRIP (R387). A reading above 115 C for 1 ms halts the module through hold-up. -/
  | thermalTrip
  /-- COOLANT_CONDITION (R389). A coolant condition is sustained for its time: reversed flow, low flow, inlet high or inlet low. Its flag and limit are set or lifted. -/
  | coolantCondition (which : Nat) (on : Bool)
  /-- RAIL_FAULT (R390). A rail short is detected and the rail is switched off, with effects by rail. -/
  | railFault (rail : Nat)
  /-- REFERENCE_LOSS (R375). A PLL sees no reference edge for 8 SOSC periods, slews to coasting, and the loss is flagged with an alarm. -/
  | referenceLoss (pll : Nat)
  /-- XB_LOST (R379). No XB edge for 64 SOSC periods, so CLK.RTC stops and XB_LOST is set. -/
  | xbLost
  /-- INSTALL_N_EDGE (R402). The debounced INSTALL_N strap changes, changing presence and making an audit entry. -/
  | installNEdge (low : Bool) (full : Bool)
  /-- PRESENCE_BUTTON (R402). The debounced PRESENCE button is pressed or released, starting the 60 s window. -/
  | presenceButton (pressed : Bool) (full : Bool)
  /-- PRESENCE_WINDOW_END (R402). The 60 s presence window runs out. -/
  | presenceWindowEnd
  /-- SEAL_BREAK (R405). The maker seal loop breaks; the seal fuse is burned and audited. -/
  | sealBreak
  /-- I3C_OFFSET_WRITE (R453). An I3C private write of 3 bytes sets the register offset. -/
  | i3cOffsetWrite (bs : List Byte)
  /-- I3C_REGISTER_READ (R453). An I3C private read returns the 32-bit register and advances the offset by 8. -/
  | i3cRegisterRead
  /-- SETDASA (R453). The I3C target takes a dynamic address from its static address. -/
  | setdasa (fixed : Nat) (dyn : Nat)
  /-- ENTDAA (R453). The I3C target takes part in dynamic address assignment. -/
  | entdaa (dyn : Nat)
  /-- TELEMETRY_RECORD (R424). The collector takes a queued record and writes, summarises or drops it by level, adjusting the level. -/
  | telemetryRecord
  /-- SHED_LEVEL_FALL (R424). A lower level's condition has held for 100 us, so the level falls by one, with SHED_END at 0. -/
  | shedLevelFall
  /-- SUMMARY (R425). At the first tick edge after suppression, a source's SUMMARY record is written. -/
  | summary (source : Nat)
  /-- CONVERTER_STOP (R299). After a halt, the input falls below 40 V, the converter stops and the next start becomes a cold start. -/
  | converterStop
  /-- CONFIGURATION_REQUEST (R396). A PCIe configuration request arrives and is answered with Configuration Request Retry Status until READY, or is served, for example a Resizable BAR size or a completion timeout selection. -/
  | configurationRequest (sel : Nat) (off : Nat) (write : Bool) (v : Nat)
  /-- PCIE_LINK_TRAINED (R396). PCIe link training completes at a generation and width, and PCIE.STATUS GEN, WIDTH and FLIT are set. -/
  | pcieLinkTrained (gen : Nat) (width : Nat)
  deriving DecidableEq, Repr

end Sys2Proof
end

