-- ==== Sys2Proof/Decode.lean ====
section
/-!
DEFINITION. Decode.lean: the command a word spells by the table's bits. No row of spec/opcode_table.json gives bits (a
command is an event, not a word), so no word spells one.
-/

namespace Sys2Proof

/-- The command that `nbits` bits of value `w` spell: none. -/
def decodeTableWord (_nbits _w : Nat) : Option Instr := none

end Sys2Proof
end

