-- ==== Sys2Proof/Config.lean ====
section
/-!
DEFINITION. Config.lean: what the spec leaves open. Each constant has no body, so no proof can see its value: a claim
that mentions one holds for every value it could have. A value that must be fresh each time is drawn from a constant
applied to the counter `State.free`.
-/

namespace Sys2Proof

/-- A 64-bit value the spec leaves open: the first argument names the site, the second is the free-value counter or
the operands the value depends on. -/
opaque Config.freeValue : Nat → Nat → W64

/-- The element bits of a block that reads as NaN, where the spec gives only its scale (R58, R60): format code,
the block's inputs, element number. -/
opaque Config.nanElement : Nat → List Nat → Nat → Nat

/-- How far a transcendental result stands from the correctly rounded one, in FP32 steps (R113: within 4 ulp, the same
for the same input): function code and input encoding. `Machine.ulpOff` keeps it inside the bound. -/
opaque Config.ulpOffset : Nat → Nat → Int

/-- A fixed order of additions that the spec does not name (R117, R182, R234): site and position give the key by which
the terms of a sum are ordered. -/
opaque Config.addOrder : Nat → Nat → Nat

/-- The physical rows that the repair fuses retire at a core position (R86, R409): the spec gives the fuse words no
layout. Fuse words as (index, value), then 128 × die + position. -/
opaque Config.fuseRows : List (Nat × Nat) → Nat → List Nat

/-- The bytes that a measurement block digests (R412), where the spec names the contents and gives them no layout: block
number, then the values it names. -/
opaque Config.measured : Nat → List Nat → List Byte

end Sys2Proof
end

