-- ==== Sys2Proof/Machine/Tbl.lean ====
section
/-!
DEFINITION. Machine/Tbl.lean: reading and writing a sparse table. A table is read against a default function `d`
(what a key that is not listed reads as), and a write of that default removes the entry, so that equal tables are
equal data.
-/

namespace Sys2Proof.Machine

variable {α : Type}

/-- What key `k` reads as. -/
def Tbl.get (d : Nat → α) : Tbl α → Nat → α
  | [], k => d k
  | (k', v) :: t, k => if k' = k then v else Tbl.get d t k

/-- Put `v` at key `k`, before the first larger key. -/
def Tbl.insert (k : Nat) (v : α) : Tbl α → Tbl α
  | [] => [(k, v)]
  | (k', v') :: t =>
    if k < k' then (k, v) :: (k', v') :: t
    else if k = k' then (k, v) :: t
    else (k', v') :: Tbl.insert k v t

/-- Remove every entry of key `k`. -/
def Tbl.erase (k : Nat) : Tbl α → Tbl α
  | [] => []
  | (k', v) :: t => if k' = k then Tbl.erase k t else (k', v) :: Tbl.erase k t

/-- Write `v` at key `k`, keeping the canonical form. -/
def Tbl.set [DecidableEq α] (d : Nat → α) (t : Tbl α) (k : Nat) (v : α) : Tbl α :=
  if v = d k then Tbl.erase k t else Tbl.insert k v t

/-- Change the value at key `k`. -/
def Tbl.update [DecidableEq α] (d : Nat → α) (t : Tbl α) (k : Nat) (f : α → α) : Tbl α :=
  Tbl.set d t k (f (Tbl.get d t k))

/-- Every key of the table is above `lo`, rising strictly, and no entry is the default. -/
def Tbl.wfFrom [DecidableEq α] (d : Nat → α) : Nat → Tbl α → Bool
  | _, [] => true
  | lo, (k, v) :: t => decide (lo ≤ k) && decide (v ≠ d k) && Tbl.wfFrom d (k + 1) t

/-- The canonical form: keys strictly rising and no entry equal to what an unlisted key reads as. -/
def Tbl.wf [DecidableEq α] (d : Nat → α) (t : Tbl α) : Bool := Tbl.wfFrom d 0 t

/-- Write consecutive keys from `k`. -/
def Tbl.setMany [DecidableEq α] (d : Nat → α) (t : Tbl α) (k : Nat) : List α → Tbl α
  | [] => t
  | v :: vs => Tbl.setMany d (Tbl.set d t k v) (k + 1) vs

/-- Read `n` consecutive keys from `k`. -/
def Tbl.getMany (d : Nat → α) (t : Tbl α) (k : Nat) : Nat → List α
  | 0 => []
  | n + 1 => Tbl.get d t k :: Tbl.getMany d t (k + 1) n

end Sys2Proof.Machine
end

