-- ==== Sys2Proof/Machine/Bits.lean ====
section
/-!
DEFINITION. Machine/Bits.lean: bit fields, signed readings, byte order (R6) and small list helpers.
-/

namespace Sys2Proof.Machine

/-- Bits [hi:lo] of a number (R6). -/
def bitsOf (x hi lo : Nat) : Nat := (x >>> lo) % 2 ^ (hi + 1 - lo)

/-- Bit `i` of a number. -/
def bitOf (x i : Nat) : Bool := (x >>> i) % 2 == 1

/-- One bit as a number. -/
def b2n (b : Bool) : Nat := if b then 1 else 0

/-- `x` with bits [hi:lo] replaced by `v`. -/
def putBits (x hi lo v : Nat) : Nat :=
  let w := 2 ^ (hi + 1 - lo)
  x - (((x >>> lo) % w) <<< lo) + ((v % w) <<< lo)

/-- The two's complement reading of an `n`-bit number. -/
def signedOf (n x : Nat) : Int :=
  let y := x % 2 ^ n
  if 2 ^ n ≤ 2 * y then (y : Int) - (2 ^ n : Nat) else (y : Int)

/-- The `n`-bit two's complement encoding of an integer. -/
def ofSigned (n : Nat) (x : Int) : Nat := (x % ((2 ^ n : Nat) : Int)).toNat

/-- The value of a little-endian byte list (R6). -/
def leNat : List Byte → Nat
  | [] => 0
  | b :: bs => b.toNat + 256 * leNat bs

/-- The `n` little-endian bytes of a number (R6). -/
def leBytes (n : Nat) (x : Nat) : List Byte :=
  match n with
  | 0 => []
  | n + 1 => BitVec.ofNat 8 x :: leBytes n (x / 256)

/-- ⌈a / b⌉. -/
def ceilDiv (a b : Nat) : Nat := (a + b - 1) / b

/-- `a` rounded up to a multiple of `b`. -/
def alignUp (a b : Nat) : Nat := ceilDiv a b * b

/-- `x` kept at most `m`. -/
def capAt (m x : Nat) : Nat := if x ≤ m then x else m

/-- Whether `x` is a power of two. -/
def isPow2 (x : Nat) : Bool := x != 0 && (2 ^ Nat.log2 x == x)

/-- ⌈log2 x⌉ for positive x. -/
def ceilLog2 (x : Nat) : Nat := if 2 ^ Nat.log2 x = x then Nat.log2 x else Nat.log2 x + 1

/-- Replace element `i` of a list. -/
def listSet {α : Type} : List α → Nat → α → List α
  | [], _, _ => []
  | _ :: t, 0, v => v :: t
  | h :: t, i + 1, v => h :: listSet t i v

/-- Element `i`, or `d` past the end. -/
def listGet {α : Type} (d : α) : List α → Nat → α
  | [], _ => d
  | h :: _, 0 => h
  | _ :: t, i + 1 => listGet d t i

/-- Put `v` at element `i` of a list that has `n` elements; one that lacks some has `d` there. -/
def listPut {α : Type} (d : α) (n : Nat) (l : List α) (i : Nat) (v : α) : List α :=
  (List.range n).map (fun j => if j = i then v else listGet d l j)

/-- The numbers 0 .. n-1. -/
def upTo (n : Nat) : List Nat := List.range n

/-- Fold a state over the numbers 0 .. n-1 in order. -/
def forN {σ : Type} (n : Nat) (s : σ) (f : Nat → σ → σ) : σ :=
  (List.range n).foldl (fun acc i => f i acc) s

/-- The first number below `n` that satisfies `p`. -/
def findN (n : Nat) (p : Nat → Bool) : Option Nat := (List.range n).find? p

/-- A list cut into pieces of `n` elements, by fuel. -/
def chunksOf {α : Type} (n : Nat) : Nat → List α → List (List α)
  | 0, _ => []
  | fuel + 1, l => match l with
    | [] => []
    | _ => l.take n :: chunksOf n fuel (l.drop n)

end Sys2Proof.Machine
end

