-- ==== Sys2Proof/Machine/Float.lean ====
section
/-!
DEFINITION. Machine/Float.lean: numbers and plain formats (spec/03: R52 to R56, R61 to R64, R66, R68). An operand is
read exactly, an operation is computed exactly, and one rounding narrows the result.
-/

namespace Sys2Proof.Machine

/-- The stored formats of R52, in the order of their codes. -/
inductive Fmt where
  | fp32 | bf16 | fp16 | e4m3 | e5m2
  | mxE4m3 | mxE5m2 | mxE3m2 | mxE2m3 | mxfp4 | mxint8 | hb4 | q8m
  deriving DecidableEq, Repr

/-- The format of a 4-bit code; 0xD to 0xF are reserved (R52). -/
def Fmt.ofCode : Nat → Option Fmt
  | 0 => some .fp32 | 1 => some .bf16 | 2 => some .fp16 | 3 => some .e4m3 | 4 => some .e5m2
  | 5 => some .mxE4m3 | 6 => some .mxE5m2 | 7 => some .mxE3m2 | 8 => some .mxE2m3 | 9 => some .mxfp4
  | 10 => some .mxint8 | 11 => some .hb4 | 12 => some .q8m
  | _ => none

/-- The 4-bit code of a format (R52). -/
def Fmt.code : Fmt → Nat
  | .fp32 => 0 | .bf16 => 1 | .fp16 => 2 | .e4m3 => 3 | .e5m2 => 4
  | .mxE4m3 => 5 | .mxE5m2 => 6 | .mxE3m2 => 7 | .mxE2m3 => 8 | .mxfp4 => 9
  | .mxint8 => 10 | .hb4 => 11 | .q8m => 12

/-- Elements a block scale covers; 1 for a plain format (R52). -/
def Fmt.block : Fmt → Nat
  | .fp32 | .bf16 | .fp16 | .e4m3 | .e5m2 => 1
  | .hb4 => 16
  | _ => 32

/-- Whether the format carries block scales (R57). -/
def Fmt.scaled (f : Fmt) : Bool := f.block != 1

/-- Bits an element takes in its plane (R52, R57). -/
def Fmt.elemBits : Fmt → Nat
  | .fp32 => 32 | .bf16 | .fp16 => 16
  | .mxE3m2 | .mxE2m3 => 6
  | .mxfp4 | .hb4 => 4
  | _ => 8

/-- Bytes a block scale takes in the scale plane (R57); 0 for a plain format. -/
def Fmt.scaleBytes (f : Fmt) : Nat :=
  match f with
  | .q8m => 2
  | f => if f.scaled then 1 else 0

/-- Bytes `n` elements take in the element plane (R57). -/
def Fmt.elemBytes (f : Fmt) (n : Nat) : Nat := ceilDiv (n * f.elemBits) 8

/-- Bytes the scales of `n` elements take in the scale plane (R57). -/
def Fmt.scalePlaneBytes (f : Fmt) (n : Nat) : Nat := ceilDiv n f.block * f.scaleBytes

/-- Matrix operand role (R53). -/
def Fmt.isMatrix : Fmt → Bool
  | .fp32 | .q8m => false
  | _ => true

/-- Drain and vector output role (R53). -/
def Fmt.isOutput : Fmt → Bool
  | .q8m => false
  | _ => true

/-- KV cache role (R53). -/
def Fmt.isKv : Fmt → Bool
  | .bf16 | .e4m3 | .mxE4m3 | .mxfp4 | .hb4 => true
  | _ => false

/-- Codec stored form role (R53). -/
def Fmt.isCodec : Fmt → Bool
  | .bf16 | .mxE4m3 | .mxfp4 | .hb4 => true
  | _ => false

/-- Optimiser moment role (R53). -/
def Fmt.isMoment : Fmt → Bool
  | .fp32 | .bf16 | .q8m => true
  | _ => false

/-- Master weight role (R53). -/
def Fmt.isMaster : Fmt → Bool
  | .fp32 | .bf16 => true
  | _ => false

/-- An exact number: NaN, an infinity, or (−1)^neg × m × 2^e. A zero is `m = 0` and keeps its sign. -/
inductive Fp where
  | nan
  | inf (neg : Bool)
  | fin (neg : Bool) (m : Nat) (e : Int)
  deriving DecidableEq, Repr

/-- Which encodings an element format gives to non-finite values (R54). -/
inductive Specials where
  | ieee      -- exponent all ones: infinity or NaN
  | nanOnly   -- the all-ones encoding is NaN, everything else is finite
  | none      -- every encoding is finite
  deriving DecidableEq, Repr

/-- An element format's parameters (R54). -/
structure FloatPar where
  eb : Nat
  mb : Nat
  bias : Nat
  sp : Specials
  deriving DecidableEq, Repr

def parFp32 : FloatPar := ⟨8, 23, 127, .ieee⟩
def parBf16 : FloatPar := ⟨8, 7, 127, .ieee⟩
def parFp16 : FloatPar := ⟨5, 10, 15, .ieee⟩
def parE4m3 : FloatPar := ⟨4, 3, 7, .nanOnly⟩
def parE5m2 : FloatPar := ⟨5, 2, 15, .ieee⟩
def parE3m2 : FloatPar := ⟨3, 2, 3, .none⟩
def parE2m3 : FloatPar := ⟨2, 3, 1, .none⟩
def parE2m1 : FloatPar := ⟨2, 1, 1, .none⟩
/-- UE5M3, the unsigned HB4 scale: read with a sign bit that is always 0. -/
def parUe5m3 : FloatPar := ⟨5, 3, 15, .nanOnly⟩

/-- Exponent of the smallest subnormal step. -/
def FloatPar.umin (p : FloatPar) : Int := 1 - (p.bias : Int) - (p.mb : Int)

/-- The largest finite magnitude, as (significand, exponent) (R54). -/
def FloatPar.maxFin (p : FloatPar) : Nat × Int :=
  match p.sp with
  | .ieee => (2 ^ (p.mb + 1) - 1, (2 ^ p.eb - 2 : Nat) - (p.bias : Int) - (p.mb : Int))
  | .nanOnly => (2 ^ (p.mb + 1) - 2, (2 ^ p.eb - 1 : Nat) - (p.bias : Int) - (p.mb : Int))
  | .none => (2 ^ (p.mb + 1) - 1, (2 ^ p.eb - 1 : Nat) - (p.bias : Int) - (p.mb : Int))

/-- Read an element (R54). Every NaN encoding reads alike (R55). -/
def decodeFloat (p : FloatPar) (x : Nat) : Fp :=
  let m := x % 2 ^ p.mb
  let e := (x >>> p.mb) % 2 ^ p.eb
  let s := bitOf x (p.mb + p.eb)
  let fin : Fp := if e = 0 then .fin s m p.umin else .fin s (m + 2 ^ p.mb) (p.umin + (e - 1 : Nat))
  match p.sp with
  | .ieee => if e = 2 ^ p.eb - 1 then (if m = 0 then .inf s else .nan) else fin
  | .nanOnly => if e = 2 ^ p.eb - 1 ∧ m = 2 ^ p.mb - 1 then .nan else fin
  | .none => fin

/-- The canonical NaN encoding (R55). -/
def FloatPar.nanBits (p : FloatPar) : Nat :=
  match p.sp with
  | .ieee => ((2 ^ p.eb - 1) <<< p.mb) + 2 ^ (p.mb - 1)
  | _ => 2 ^ (p.eb + p.mb) - 1

/-- The encoding of an infinity in a format that has one. -/
def FloatPar.infBits (p : FloatPar) (neg : Bool) : Nat :=
  (b2n neg <<< (p.eb + p.mb)) + ((2 ^ p.eb - 1) <<< p.mb)

/-- How a rounding picks between the two neighbours. -/
inductive Rnd where
  | rne              -- to nearest, ties to even (R62)
  | sr (r : Nat)     -- stochastic, with the 16-bit generator value (R64)
  | up               -- away from zero, for scales rounded upwards (R59, R60)
  deriving DecidableEq, Repr

/-- Round the magnitude m × 2^e to `p` significant bits, no step finer than 2^umin: (q, u) with value q × 2^u. -/
def roundMag (p : Nat) (umin : Int) (rnd : Rnd) (m : Nat) (e : Int) : Nat × Int :=
  let top : Int := e + (Nat.log2 m : Int) + 1 - (p : Int)
  let u := if top < umin then umin else top
  if u ≤ e then (m <<< (e - u).toNat, u)
  else
    let sh := (u - e).toNat
    let q := m >>> sh
    let r := m - (q <<< sh)
    let up : Bool := match rnd with
      | .rne => decide (2 ^ sh < 2 * r) || (decide (2 * r = 2 ^ sh) && q % 2 == 1)
      | .sr g => r != 0 && decide (65536 ≤ (r * 65536) / 2 ^ sh + g % 65536)
      | .up => r != 0
    (if up then q + 1 else q, u)

/-- Compare two magnitudes m × 2^e: is the first larger? -/
def magGt (m1 : Nat) (e1 : Int) (m2 : Nat) (e2 : Int) : Bool :=
  let lo := if e1 < e2 then e1 else e2
  decide (m2 <<< (e2 - lo).toNat < m1 <<< (e1 - lo).toNat)

/-- Encode a rounded magnitude q × 2^u that lies in the format's range. -/
def encodeFin (p : FloatPar) (neg : Bool) (q : Nat) (u : Int) : Nat :=
  let (q, u) := if q = 2 ^ (p.mb + 1) then (2 ^ p.mb, u + 1) else (q, u)
  let sgn := b2n neg <<< (p.eb + p.mb)
  if q < 2 ^ p.mb then sgn + q
  else sgn + ((u - p.umin + 1).toNat <<< p.mb) + (q - 2 ^ p.mb)

/-- What an overflow or an infinity becomes (R63). -/
inductive Ovf where
  | inf        -- ±infinity
  | nan        -- the format's NaN
  | saturate   -- ± the largest finite value
  deriving DecidableEq, Repr

/-- Narrow an exact number to a format, with R63's answers for overflow and infinite inputs. -/
def narrow (p : FloatPar) (rnd : Rnd) (ovf : Ovf) (x : Fp) : Nat :=
  let big (neg : Bool) : Nat := match ovf with
    | .inf => p.infBits neg
    | .nan => p.nanBits
    | .saturate => encodeFin p neg p.maxFin.1 p.maxFin.2
  match x with
  | .nan => p.nanBits
  | .inf neg => big neg
  | .fin neg m e =>
    if m = 0 then b2n neg <<< (p.eb + p.mb)
    else
      let (q, u) := roundMag (p.mb + 1) p.umin rnd m e
      if magGt q u p.maxFin.1 p.maxFin.2 then big neg else encodeFin p neg q u

/-- Round an exact number to FP32, ties to even (R62). -/
def toF32 (x : Fp) : W32 := BitVec.ofNat 32 (narrow parFp32 .rne .inf x)
/-- Read an FP32 word. -/
def ofF32 (x : W32) : Fp := decodeFloat parFp32 x.toNat
/-- The canonical FP32 NaN (R55). -/
def f32NaN : W32 := 0x7FC00000#32
def f32One : W32 := 0x3F800000#32
def f32PosInf : W32 := 0x7F800000#32
def f32NegInf : W32 := 0xFF800000#32

/-- An integer as an exact number. -/
def Fp.ofInt (i : Int) : Fp := .fin (decide (i < 0)) i.natAbs 0
def Fp.ofNat (n : Nat) : Fp := .fin false n 0
def Fp.zero : Fp := .fin false 0 0
def Fp.one : Fp := .fin false 1 0

def Fp.isNaN : Fp → Bool
  | .nan => true
  | _ => false
def Fp.isFinite : Fp → Bool
  | .fin _ _ _ => true
  | _ => false
def Fp.isZero : Fp → Bool
  | .fin _ 0 _ => true
  | _ => false
def Fp.neg : Fp → Fp
  | .nan => .nan
  | .inf n => .inf (!n)
  | .fin n m e => .fin (!n) m e
def Fp.abs : Fp → Fp
  | .nan => .nan
  | .inf _ => .inf false
  | .fin _ m e => .fin false m e
def Fp.isNeg : Fp → Bool
  | .nan => false
  | .inf n => n
  | .fin n _ _ => n

/-- −0. -/
def Fp.isNegZero (x : Fp) : Bool := x.isZero && x.isNeg

/-- Signed significand of a finite number at exponent `lo`. -/
def finAt (n : Bool) (m : Nat) (e lo : Int) : Int :=
  let v : Int := ((m <<< (e - lo).toNat : Nat) : Int)
  if n then -v else v

/-- Exact sum, with R62's sign of an exact zero and R68's infinities. -/
def Fp.add : Fp → Fp → Fp
  | .nan, _ => .nan
  | _, .nan => .nan
  | .inf a, .inf b => if a = b then .inf a else .nan
  | .inf a, _ => .inf a
  | _, .inf b => .inf b
  | .fin n1 m1 e1, .fin n2 m2 e2 =>
    if m1 = 0 ∧ m2 = 0 then .fin (n1 && n2) 0 0
    else if m1 = 0 then .fin n2 m2 e2
    else if m2 = 0 then .fin n1 m1 e1
    else
      let lo := if e1 < e2 then e1 else e2
      let s := finAt n1 m1 e1 lo + finAt n2 m2 e2 lo
      .fin (decide (s < 0)) s.natAbs lo

def Fp.sub (a b : Fp) : Fp := Fp.add a b.neg

/-- Exact product (R66). -/
def Fp.mul : Fp → Fp → Fp
  | .nan, _ => .nan
  | _, .nan => .nan
  | .inf a, .inf b => .inf (a != b)
  | .inf a, .fin n m _ => if m = 0 then .nan else .inf (a != n)
  | .fin n m _, .inf b => if m = 0 then .nan else .inf (n != b)
  | .fin n1 m1 e1, .fin n2 m2 e2 => .fin (n1 != n2) (m1 * m2) (e1 + e2)

/-- Scale by a power of two, exactly. -/
def Fp.scale2 (k : Int) : Fp → Fp
  | .fin n m e => .fin n m (e + k)
  | x => x

/-- Quotient to well over 80 significant bits, its lowest bit set when the exact quotient goes on: enough for every
rounding of `roundMag` to be that of the exact value. -/
def Fp.div : Fp → Fp → Fp
  | .nan, _ => .nan
  | _, .nan => .nan
  | .inf _, .inf _ => .nan
  | .inf a, .fin n _ _ => .inf (a != n)
  | .fin n _ _, .inf b => .fin (n != b) 0 0
  | .fin n1 m1 e1, .fin n2 m2 e2 =>
    if m2 = 0 then (if m1 = 0 then .nan else .inf (n1 != n2))
    else if m1 = 0 then .fin (n1 != n2) 0 0
    else
      let k := 100 + Nat.log2 m2 - Nat.log2 m1
      let a := m1 <<< k
      let q := a / m2
      .fin (n1 != n2) (2 * q + (if q * m2 = a then 0 else 1)) (e1 - e2 - (k : Int) - 1)

/-- Integer square root, bit by bit from bit `n`. -/
def isqrtFrom (x : Nat) : Nat → Nat → Nat
  | 0, r => r
  | n + 1, r =>
    let c := r + 2 ^ n
    isqrtFrom x n (if c * c ≤ x then c else r)

/-- The largest r with r × r ≤ x. -/
def isqrt (x : Nat) : Nat := isqrtFrom x (Nat.log2 x / 2 + 1) 0

/-- Square root to 100 significant bits and more, its lowest bit set when the exact root goes on. -/
def Fp.sqrt : Fp → Fp
  | .nan => .nan
  | .inf n => if n then .nan else .inf false
  | .fin n m e =>
    if m = 0 then .fin n 0 0
    else if n then .nan
    else
      let odd := if e % 2 = 0 then 0 else 1
      let k := 200 + odd
      let a := m <<< k
      let r := isqrt a
      .fin false (2 * r + (if r * r = a then 0 else 1)) ((e - (k : Int)) / 2 - 1)

/-- Strictly less, on numbers (false when either is NaN). -/
def Fp.lt : Fp → Fp → Bool
  | .nan, _ => false
  | _, .nan => false
  | .inf a, .inf b => a && !b
  | .inf a, .fin _ _ _ => a
  | .fin _ _ _, .inf b => !b
  | .fin n1 m1 e1, .fin n2 m2 e2 =>
    let lo := if e1 < e2 then e1 else e2
    decide (finAt n1 m1 e1 lo < finAt n2 m2 e2 lo)

/-- Numeric equality (false when either is NaN; +0 equals −0). -/
def Fp.eq (a b : Fp) : Bool := !a.isNaN && !b.isNaN && !Fp.lt a b && !Fp.lt b a
def Fp.le (a b : Fp) : Bool := Fp.lt a b || Fp.eq a b

/-- Maximum of two magnitudes; a NaN wins. -/
def Fp.maxMag (a b : Fp) : Fp := if a.isNaN || b.isNaN then .nan else if Fp.lt a.abs b.abs then b.abs else a.abs

/-- ⌊log2 |x|⌋ of a finite non-zero number. -/
def Fp.ilog2 : Fp → Int
  | .fin _ m e => (Nat.log2 m : Int) + e
  | _ => 0

/-- ⌊x⌋ of a finite number. -/
def Fp.floor : Fp → Int
  | .fin n m e =>
    let v : Int := if n then -(m : Int) else (m : Int)
    if 0 ≤ e then v * (2 ^ e.toNat : Nat) else v / ((2 ^ (-e).toNat : Nat) : Int)
  | _ => 0

def f32Add (a b : W32) : W32 := toF32 (Fp.add (ofF32 a) (ofF32 b))
def f32Sub (a b : W32) : W32 := toF32 (Fp.sub (ofF32 a) (ofF32 b))
def f32Mul (a b : W32) : W32 := toF32 (Fp.mul (ofF32 a) (ofF32 b))
def f32Fma (a b c : W32) : W32 := toF32 (Fp.add (Fp.mul (ofF32 a) (ofF32 b)) (ofF32 c))
def f32Div (a b : W32) : W32 := toF32 (Fp.div (ofF32 a) (ofF32 b))
def f32Sqrt (a : W32) : W32 := toF32 (Fp.sqrt (ofF32 a))
def f32Neg (a : W32) : W32 := toF32 (ofF32 a).neg
def f32Abs (a : W32) : W32 := toF32 (ofF32 a).abs
def f32OfInt (i : Int) : W32 := toF32 (Fp.ofInt i)
def f32IsNaN (a : W32) : Bool := (ofF32 a).isNaN
def f32IsFinite (a : W32) : Bool := (ofF32 a).isFinite
def f32Lt (a b : W32) : Bool := Fp.lt (ofF32 a) (ofF32 b)

/-- Move a finite FP32 word by `k` encodings along the real line, staying finite: how far a result "within n ulp"
of a reference may stand from it. -/
def f32Offset (x : W32) (k : Int) : W32 :=
  let mag : Int := ((x.toNat % 2 ^ 31 : Nat) : Int)
  let v : Int := if bitOf x.toNat 31 then -mag else mag
  let w := v + k
  let cap : Int := 0x7F7FFFFF
  let w := if w < -cap then -cap else if cap < w then cap else w
  if w < 0 then BitVec.ofNat 32 (2 ^ 31 + w.natAbs) else BitVec.ofNat 32 w.natAbs

end Sys2Proof.Machine
end

