-- ==== Sys2Proof/Machine/Convert.lean ====
section
/-!
DEFINITION. Machine/Convert.lean: conversions and block-scaled formats (spec/03: R57 to R64).
-/

namespace Sys2Proof.Machine

/-- The conversion control byte (R61). -/
structure Cvt where
  fmt : Fmt
  ovfNan : Bool
  sr : Bool
  deriving DecidableEq, Repr

/-- Read a conversion control byte; reserved bits or a reserved code give none (R7, R61). -/
def Cvt.ofByte (b : Nat) : Option Cvt :=
  if bitsOf b 7 6 != 0 then none
  else match Fmt.ofCode (bitsOf b 3 0) with
    | some f => some ⟨f, bitOf b 4, bitOf b 5⟩
    | none => none

/-- The rounding of element `i`: stochastic with the drawn value when SR is set. -/
def Cvt.rnd (c : Cvt) (r : Nat) : Rnd := if c.sr then .sr r else .rne

/-- The parameters of a format's floating-point element; INT8 and Q8M elements are not of this kind. -/
def Fmt.par : Fmt → FloatPar
  | .fp32 => parFp32 | .bf16 => parBf16 | .fp16 => parFp16
  | .e4m3 | .mxE4m3 => parE4m3
  | .e5m2 | .mxE5m2 => parE5m2
  | .mxE3m2 => parE3m2
  | .mxE2m3 => parE2m3
  | .mxfp4 | .hb4 | .mxint8 | .q8m => parE2m1

/-- R63's overflow answer in a plain target. -/
def Fmt.ovf (f : Fmt) (ovfNan : Bool) : Ovf :=
  match f with
  | .e4m3 => if ovfNan then .nan else .saturate
  | .e5m2 => if ovfNan then .inf else .saturate
  | _ => .inf

/-- Convert to a plain format (R63). -/
def convPlain (f : Fmt) (ovfNan : Bool) (rnd : Rnd) (x : Fp) : Nat := narrow f.par rnd (f.ovf ovfNan) x

/-- An element of a plain format, read exactly. -/
def decodePlain (f : Fmt) (bits : Nat) : Fp := decodeFloat f.par bits

/-- Exponent of the element format's largest normal (R58). -/
def Fmt.emax : Fmt → Int
  | .mxE4m3 => 8 | .mxE5m2 => 15 | .mxE3m2 => 4 | .mxE2m3 => 2 | .mxfp4 => 2
  | _ => 0

/-- The largest finite element of a format (R54). -/
def Fmt.maxElem (f : Fmt) : Fp :=
  match f with
  | .mxint8 => .fin false 127 (-6)
  | f => .fin false f.par.maxFin.1 f.par.maxFin.2

/-- Largest magnitude of a block. -/
def amaxOf (xs : List Fp) : Fp := xs.foldl (fun a x => if Fp.lt a x.abs then x.abs else a) Fp.zero

/-- One element of a block format after scaling: none on overflow with OVF_NAN (R63). A zero gives +0. -/
def convElem (f : Fmt) (ovfNan : Bool) (rnd : Rnd) (x : Fp) : Option Nat :=
  match x with
  | .nan => none
  | .inf _ => none
  | .fin neg m e =>
    match f with
    | .mxint8 =>
      let (q, u) := roundMag (Nat.log2 m + e.natAbs + 70) (-6) rnd m e
      let q := if m = 0 then 0 else q <<< (u + 6).toNat
      if 127 < q then (if ovfNan then none else some (ofSigned 8 (if neg then -127 else 127)))
      else some (ofSigned 8 (if neg then -(q : Int) else (q : Int)))
    | _ =>
      if m = 0 then some 0
      else
        let p := f.par
        let (q, u) := roundMag (p.mb + 1) p.umin rnd m e
        if magGt q u p.maxFin.1 p.maxFin.2 then
          (if ovfNan then none else some (encodeFin p neg p.maxFin.1 p.maxFin.2))
        else if q = 0 then some 0
        else some (encodeFin p neg q u)

/-- A block whose every element reads as NaN: its scale, and the elements, which only HB4's rule fixes (R58 to R60). -/
def nanBlock (f : Fmt) (xs : List Fp) : Nat × List Nat :=
  match f with
  | .hb4 => (0xFF, xs.map (fun _ => 0))
  | _ =>
    let key := xs.map (fun x => narrow parFp32 .rne .inf x)
    (if f = .q8m then 0x7E00 else 0xFF,
      (List.range xs.length).map (fun i => Config.nanElement f.code key i % 2 ^ f.elemBits))

/-- All the elements, or none when one of them makes the whole block NaN. -/
def sequenceOpt {α : Type} : List (Option α) → Option (List α)
  | [] => some []
  | none :: _ => none
  | some a :: t => match sequenceOpt t with
    | some l => some (a :: l)
    | none => none

/-- Pair each element with its number. -/
def indexed {α : Type} (l : List α) : List (Nat × α) := (List.range l.length).zip l

/-- Encode one MX block (R58): scale byte and elements. -/
def encodeMx (f : Fmt) (ovfNan : Bool) (rnd : Nat → Rnd) (xs : List Fp) : Nat × List Nat :=
  if xs.any (fun x => !x.isFinite) then nanBlock f xs
  else
    let a := amaxOf xs
    if a.isZero then (0, xs.map (fun _ => 0))
    else
      let e := a.ilog2 - f.emax
      let e := if e < -127 then -127 else if 127 < e then 127 else e
      match sequenceOpt ((indexed xs).map (fun (i, x) => convElem f ovfNan (rnd i) (x.scale2 (-e)))) with
      | some es => ((e + 127).toNat, es)
      | none => nanBlock f xs

/-- x ÷ d of a finite x as R59's convert step takes it: rounded to FP32, where it fits, else exact: it lies beyond every
element, and overflows there (R63). -/
def hb4Quot (x d : Fp) : Fp :=
  match ofF32 (toF32 (Fp.div x d)) with
  | .inf _ => Fp.div x d
  | q => q

/-- Encode one HB4 block with tensor exponent `tau` (R59). -/
def encodeHb4 (ovfNan : Bool) (tau : Int) (rnd : Nat → Rnd) (xs : List Fp) : Nat × List Nat :=
  if xs.any (fun x => !x.isFinite) then nanBlock .hb4 xs
  else
    let a := amaxOf xs
    if a.isZero then (0, xs.map (fun _ => 0))
    else
      let q := ofF32 (toF32 (Fp.div a (.fin false 6 tau)))
      let s : Nat := match q with
        | .fin _ m e => if m = 0 then 1 else
            let r := narrow parUe5m3 .up .saturate (.fin false m e)
            if r = 0 then 1 else r
        | _ => 0xFE
      let d := ofF32 (toF32 ((decodeFloat parUe5m3 s).scale2 tau))
      match sequenceOpt ((indexed xs).map (fun (i, x) =>
          convElem .hb4 ovfNan (rnd i) (hb4Quot x d))) with
      | some es => (s, es)
      | none => nanBlock .hb4 xs

/-- The two moments Q8M encodes differently (R60). -/
inductive Moment where
  | first | second
  deriving DecidableEq, Repr

/-- Encode one Q8M block (R60): FP16 scale and elements. -/
def encodeQ8m (mo : Moment) (rnd : Nat → Rnd) (xs : List Fp) : Nat × List Nat :=
  if xs.any (fun x => !x.isFinite) then nanBlock .q8m xs
  else
    let ys := match mo with
      | .first => xs
      | .second => xs.map (fun x => if x.isNeg then Fp.zero else Fp.sqrt x)
    let a := amaxOf ys
    if a.isZero then (0, xs.map (fun _ => 0))
    else
      let s := narrow parFp16 .up .saturate a
      let sv := decodeFloat parFp16 s
      let top : Nat := match mo with | .first => 127 | .second => 255
      (s, (indexed ys).map (fun (i, y) =>
        match Fp.div (Fp.mul y (Fp.ofNat top)) sv with
        | .fin neg m e =>
          let (q, u) := roundMag (Nat.log2 m + e.natAbs + 70) 0 (rnd i) m e
          let q := if m = 0 then 0 else q <<< u.toNat
          let q := if top < q then top else q
          ofSigned 8 (if neg then -(q : Int) else (q : Int))
        | _ => 0))

/-- Encode one block of a block-scaled format: scale and elements (R58 to R60). -/
def encodeBlock (f : Fmt) (ovfNan : Bool) (tau : Int) (mo : Moment) (rnd : Nat → Rnd) (xs : List Fp) :
    Nat × List Nat :=
  match f with
  | .hb4 => encodeHb4 ovfNan tau rnd xs
  | .q8m => encodeQ8m mo rnd xs
  | f => encodeMx f ovfNan rnd xs

/-- A block scale as an exact number; NaN marks a block that reads as NaN (R58 to R60). -/
def decodeScale (f : Fmt) (tau : Int) (s : Nat) : Fp :=
  match f with
  | .hb4 => (decodeFloat parUe5m3 (s % 256)).scale2 tau
  | .q8m => match decodeFloat parFp16 s with
    | .fin n m e => .fin n m e
    | _ => .nan
  | _ => if s % 256 = 0xFF then .nan else .fin false 1 ((s % 256 : Nat) - 127)

/-- A block element without its scale, read exactly (R54: INT8 carries the factor 2^−6). -/
def decodeElem (f : Fmt) (bits : Nat) : Fp :=
  match f with
  | .mxint8 => (Fp.ofInt (signedOf 8 bits)).scale2 (-6)
  | .q8m => Fp.ofInt (signedOf 8 bits)
  | f => decodeFloat f.par bits

/-- An element of a block-scaled format, with its scale (R58 to R60). -/
def decodeScaled (f : Fmt) (tau : Int) (mo : Moment) (scale bits : Nat) : Fp :=
  let s := decodeScale f tau scale
  match f with
  | .q8m => match s with
    | .fin _ _ _ => match mo with
      | .first => ofF32 (toF32 (Fp.div (Fp.mul s (Fp.ofInt (signedOf 8 bits))) (Fp.ofNat 127)))
      | .second =>
        let sq := Fp.mul s (Fp.ofNat (bits % 256))
        ofF32 (toF32 (Fp.div (Fp.mul sq sq) (Fp.ofNat (255 * 255))))
    | _ => .nan
  | f => match s with
    | .nan => .nan
    | s => Fp.mul s (decodeElem f bits)

/-- The bytes of consecutive elements of `bits` bits each (R57). -/
def packElems (bits : Nat) (es : List Nat) : List Byte :=
  leBytes (ceilDiv (es.length * bits) 8) (es.foldr (fun e acc => e % 2 ^ bits + (acc <<< bits)) 0)

/-- `n` elements of `bits` bits from bytes (R57). -/
def unpackElems (bits n : Nat) (bs : List Byte) : List Nat :=
  let x := leNat bs
  (List.range n).map (fun i => (x >>> (bits * i)) % 2 ^ bits)

/-- The tensor exponent of HB4 is legal; elsewhere it is 0 (R59). -/
def tauOk (hb4 : Bool) (t : Nat) : Bool :=
  if hb4 then decide (-126 ≤ signedOf 8 t) && decide (signedOf 8 t ≤ 126) else t == 0

end Sys2Proof.Machine
end

