-- ==== Sys2Proof/Machine/Array.lean ====
section
/-!
DEFINITION. Machine/Array.lean: the arithmetic of the matrix array (R65 to R69, R73, R100) and of the transposing
buffer's re-blocking (R132 to R136), over values: where the operands come from and where results go is said elsewhere.
-/

namespace Sys2Proof.Machine

/-- Class of a matrix operand format (R65): 16, 8 (with the 6-bit formats) or 4; 0 for no operand format. -/
def Fmt.opClass : Fmt → Nat
  | .bf16 | .fp16 => 16
  | .mxfp4 | .hb4 => 4
  | .fp32 | .q8m => 0
  | _ => 8

/-- The slice width w of a pair (R73, R100); none where the pair is not legal. -/
def pairWidth (a b : Fmt) (a16 : Bool) : Option Nat :=
  if a.opClass = 0 ∨ b.opClass = 0 then none
  else if a.opClass = 16 ∨ b.opClass = 16 then (if a16 then none else some 1)
  else if a.opClass = 4 ∧ b.opClass = 4 then some (if a16 then 8 else 4)
  else some (if a16 then 4 else 2)

/-- The unit of summation of a pair (R67): 1 for plain operands, 16 with HB4, 32 with MX. -/
def pairUnit (a b : Fmt) : Nat :=
  if a = .hb4 ∨ b = .hb4 then 16 else if a.scaled || b.scaled then 32 else 1

/-- One operand row as the array takes it: units of summation, each with its elements and its scale. -/
abbrev ORow := List (List Fp × Fp)

/-- A row of an operand as it is stored: element bits and block scales. -/
abbrev RowBits := List Nat × List Nat

/-- Bytes of a 128-row region over `k` (R99). -/
def footprint128 (f : Fmt) (k : Nat) : Nat :=
  alignUp (128 * k * f.elemBits / 8 + (if f.scaled then 128 * k / f.block * f.scaleBytes else 0)) 256

/-- The units of a row of `kj` elements, from the element bits and the block scales. HB4's tensor exponent is not applied
here (R67). -/
def operandRow (f : Fmt) (unit kj : Nat) (elems scales : List Nat) : ORow :=
  (List.range (kj / unit)).map (fun b =>
    (((elems.drop (b * unit)).take unit).map (decodeElem f),
      if f.scaled then decodeScale f 0 (listGet 0 scales (b * unit / f.block)) else Fp.one))

/-- S of R67: the exact sum of a unit's products and scales; R68 for its non-finite values. -/
def unitSum (a b : List Fp × Fp) : Fp :=
  let ps := (a.1.zip b.1).map (fun p => Fp.mul p.1 p.2)
  match ps.foldl Fp.add (.fin true 0 0) with
  | .inf n => if a.2.isNaN || b.2.isNaN then .nan else .inf n
  | s =>
    let x := Fp.mul (Fp.mul s a.2) b.2
    -- an exact sum of zero is +0 unless every product is -0 (R62)
    if Fp.eq x Fp.zero && !ps.all (fun p => Fp.isNegZero (Fp.mul (Fp.mul p a.2) b.2)) then Fp.zero else x

/-- One add in the accumulator (R62, R67, R69): FP32, or binary16 in the low half of the word. -/
def accAdd (a16 : Bool) (acc : W32) (x : Fp) : W32 :=
  if a16 then BitVec.ofNat 32 (narrow parFp16 .rne .inf (Fp.add (decodeFloat parFp16 acc.toNat) x))
  else toF32 (Fp.add (ofF32 acc) x)

/-- A cell takes the units of a row of A and a row of B in order of k (R67). -/
def cellFeed (a16 : Bool) (acc : W32) (a b : ORow) : W32 :=
  (a.zip b).foldl (fun acc p => accAdd a16 acc (unitSum p.1 p.2)) acc

/-- A tile's values after a feed: rows of A against rows of B. -/
def tileFeed (a16 : Bool) (vals : List (List W32)) (as bs : List ORow) : List (List W32) :=
  (vals.zip as).map (fun ra => (ra.1.zip bs).map (fun cb => cellFeed a16 cb.1 ra.2 cb.2))

/-- A loaded initial value in the accumulator's format (R101). -/
def initValue (a16 : Bool) (f : Fmt) (bits : Nat) : W32 :=
  if a16 then BitVec.ofNat 32 (narrow parFp16 .rne .inf (decodePlain f bits)) else toF32 (decodePlain f bits)

/-- The value of an accumulator word (R110). -/
def accValue (a16 : Bool) (x : W32) : W32 := if a16 then toF32 (decodeFloat parFp16 x.toNat) else x

/-! ## Re-blocking -/

/-- Stage 1 of R133: an MX element times its scale, rounded to BF16; an HB4 element times its scale. -/
def dequant (f : Fmt) (scale bits : Nat) : Fp :=
  match f with
  | .hb4 => Fp.mul (decodeScale .hb4 0 scale) (decodeElem .hb4 bits)
  | f => decodePlain .bf16 (convPlain .bf16 false .rne (decodeScaled f 0 .first scale bits))

/-- Whether stage 1 was inexact or non-finite because the scale lies outside 2^−110 to 2^110 (R143). Elements of a source block
whose scale is NaN do not count: no scale value makes them so (DESIGN CHOICE, log 72). -/
def dequantRange (f : Fmt) (scale bits : Nat) : Bool :=
  match f with
  | .hb4 => false
  | f =>
    let x := decodeScaled f 0 .first scale bits
    (decide (scale < 17) || decide (237 < scale)) && x.isFinite && !Fp.eq x (dequant f scale bits)

/-- An element of a new block lies beyond the largest finite element and is saturated (R135). -/
def beyondMax (f : Fmt) (q : Fp) : Bool := Fp.lt f.maxElem (Fp.abs q)

/-- Stages 2 and 3 of R133 for one new block: scale, elements, and how many elements saturated. -/
def reblock (f : Fmt) (xs : List Fp) : Nat × List Nat × Nat :=
  match f with
  | .hb4 =>
    let s := (encodeHb4 false 0 (fun _ => .rne) xs).1
    if xs.any (fun x => !x.isFinite) || s == 0 then (s, xs.map (fun _ => 0), 0)
    else
      let d := decodeScale .hb4 0 s
      (s, xs.map (fun x => (convElem .hb4 false .rne (Fp.div x d)).getD 0),
        (xs.filter (fun x => beyondMax .hb4 (Fp.div x d))).length)
  | f =>
    let e := encodeMx f false (fun _ => .rne) xs
    let sat := if xs.any (fun x => !x.isFinite) then 0
      else (xs.filter (fun x => beyondMax f (x.scale2 (-((e.1 : Int) - 127))))).length
    (e.1, e.2, sat)

/-- A row of values re-blocked along k in a format: element bits, scales, saturated elements. -/
def reblockRow (f : Fmt) (xs : List Fp) : List Nat × List Nat × Nat :=
  let bs := (chunksOf f.block (xs.length + 1) xs).map (reblock f)
  (bs.flatMap (fun b => b.2.1), bs.map (fun b => b.1), bs.foldl (fun n b => n + b.2.2) 0)

end Sys2Proof.Machine
end

