-- ==== Sys2Proof/Machine/Real.lean ====
section
/-!
DEFINITION. Machine/Real.lean: the exact functions that transcendental results must stay close to (R113, R117, R163,
R234, R241, R279), evaluated in fixed point with 640 fraction bits, and the results within n ulp of them. Which of the
results inside the bound the hardware gives is left open (`Config.ulpOffset`): the same input gives the same output
(R70), nothing else is known of it.
-/

namespace Sys2Proof.Machine

/-- Fraction bits of the fixed-point reference. -/
def fixBits : Nat := 640
def fixOne : Int := ((2 ^ fixBits : Nat) : Int)
def fixMul (a b : Int) : Int := a * b / fixOne
def fixDiv (a b : Int) : Int := if b = 0 then 0 else a * fixOne / b

/-- A finite number in fixed point. -/
def fixOf : Fp → Int
  | .fin n m e =>
    let k := e + (fixBits : Int)
    let v : Int := if 0 ≤ k then ((m <<< k.toNat : Nat) : Int) else ((m >>> (-k).toNat : Nat) : Int)
    if n then -v else v
  | _ => 0

/-- A fixed-point value as a number; `neg` is the sign of a zero. -/
def fpOfFix (neg : Bool) (v : Int) : Fp := .fin (decide (v < 0) || (decide (v = 0) && neg)) v.natAbs (-(fixBits : Int))

/-- The rational a / b in fixed point. -/
def fixRat (a b : Nat) : Int := ((a <<< fixBits : Nat) : Int) / (b : Int)

/-- Horner evaluation of Σ r^k / k!, from term `n` down. -/
def expSeries (r : Int) : Nat → Int → Int
  | 0, acc => acc
  | n + 1, acc => expSeries r n (fixOne + fixMul r acc / ((n + 1 : Nat) : Int))

/-- Square `n` times. -/
def fixSquare : Nat → Int → Int
  | 0, v => v
  | n + 1, v => fixSquare n (fixMul v v)

/-- e^x for |x| ≤ 256; 0 below and e^256 above. -/
def fixExp (x : Int) : Int :=
  let lim := 256 * fixOne
  if x < -lim then 0
  else
    let x := if lim < x then lim else x
    fixSquare 16 (expSeries (x / 65536) 80 fixOne)

/-- Σ t^(2k+1) / (2k+1), from term `n` down, given t and t². -/
def atanhSeries (t2 : Int) : Nat → Int → Int
  | 0, acc => acc
  | n + 1, acc => atanhSeries t2 n (fixOne / ((2 * n + 1 : Nat) : Int) + fixMul t2 acc)

/-- 2·atanh t for |t| ≤ 1/3. -/
def fixAtanh2 (t : Int) : Int := 2 * fixMul t (atanhSeries (fixMul t t) 220 0)

/-- ln 2. -/
def fixLn2 : Int := fixAtanh2 (fixRat 1 3)

/-- ln of a positive fixed-point value. -/
def fixLn (v : Int) : Int :=
  let m := v.toNat
  if m = 0 then 0
  else
    let k : Int := (Nat.log2 m : Int) - (fixBits : Int)
    let y : Int := if 0 ≤ k then v / ((2 ^ k.toNat : Nat) : Int) else v * ((2 ^ (-k).toNat : Nat) : Int)
    fixAtanh2 (fixDiv (y - fixOne) (y + fixOne)) + k * fixLn2

/-- Fraction bits of the reduction of angles. -/
def angleBits : Nat := 1024

/-- atan(1/q) with `angleBits` fraction bits. -/
def atanInv (q : Nat) : Nat → Nat → Int → Int
  | 0, _, acc => acc
  | n + 1, k, acc =>
    let term : Int := (((2 ^ angleBits) / (q ^ (2 * k + 1) * (2 * k + 1)) : Nat) : Int)
    atanInv q n (k + 1) (if k % 2 = 0 then acc + term else acc - term)

/-- π with `angleBits` fraction bits. -/
def anglePi : Int := 16 * atanInv 5 230 0 0 - 4 * atanInv 239 70 0 0

/-- Alternating Horner series for sine (`odd`) or cosine. -/
def trigSeries (r2 : Int) (odd : Bool) : Nat → Int → Int
  | 0, acc => acc
  | n + 1, acc =>
    let a := if odd then 2 * n + 2 else 2 * n + 1
    trigSeries r2 odd n (fixOne - fixMul r2 acc / ((a * (a + 1) : Nat) : Int))

def fixSinSmall (r : Int) : Int := fixMul r (trigSeries (fixMul r r) true 70 fixOne)
def fixCosSmall (r : Int) : Int := trigSeries (fixMul r r) false 70 fixOne

/-- Cosine and sine of an angle given with `angleBits` fraction bits. -/
def fixCosSin (a : Int) : Int × Int :=
  let half := anglePi / 2
  let k := (a + half / 2) / half
  let r := (a - k * half) / ((2 ^ (angleBits - fixBits) : Nat) : Int)
  let s := fixSinSmall r
  let c := fixCosSmall r
  match (k % 4).toNat with
  | 0 => (c, s)
  | 1 => (-s, c)
  | 2 => (-c, -s)
  | _ => (s, -c)

/-- A finite number with `angleBits` fraction bits. -/
def angleOf : Fp → Int
  | .fin n m e =>
    let k := e + (angleBits : Int)
    let v : Int := if 0 ≤ k then ((m <<< k.toNat : Nat) : Int) else ((m >>> (-k).toNat : Nat) : Int)
    if n then -v else v
  | _ => 0

/-- π in fixed point. -/
def fixPi : Int := anglePi / ((2 ^ (angleBits - fixBits) : Nat) : Int)

/-- Σ (−1)^k z^(2k) / (k! (2k+1)), from term `n` down: acc holds the part above, `t` the running z^(2k)/k!. -/
def erfSeries (z2 : Int) : Nat → Nat → Int → Int → Int
  | 0, _, _, acc => acc
  | n + 1, k, t, acc =>
    erfSeries z2 n (k + 1) (-(fixMul t z2) / ((k + 1 : Nat) : Int)) (acc + t / ((2 * k + 1 : Nat) : Int))

/-- Square root of a fixed-point value. -/
def fixSqrt (v : Int) : Int := ((isqrt (v.toNat <<< fixBits) : Nat) : Int)

/-- The normal distribution function Φ(x); 0 below −20 and 1 above 20. -/
def fixPhi (x : Int) : Int :=
  if x < -(20 * fixOne) then 0
  else if 20 * fixOne < x then fixOne
  else
    let z2 := fixMul x x / 2
    let s := erfSeries z2 1200 0 fixOne 0
    -- Φ(x) = 1/2 + x/√(2π) · Σ (−1)^k (x²/2)^k / (k! (2k+1))
    fixOne / 2 + fixDiv (fixMul x s) (fixSqrt (2 * fixPi))

/-- The normal density φ(x). -/
def fixNormPdf (x : Int) : Int := fixDiv (fixExp (-(fixMul x x) / 2)) (fixSqrt (2 * fixPi))

/-- σ(x) = 1 ÷ (1 + e^−x), keeping its relative accuracy on the negative side. -/
def fixSigmoid (x : Int) : Int :=
  if 0 ≤ x then fixDiv fixOne (fixOne + fixExp (-x))
  else
    let y := fixExp x
    fixDiv y (fixOne + y)

/-- tanh x. -/
def fixTanh (x : Int) : Int :=
  let a := fixExp (-(2 * (if x < 0 then -x else x)))
  let t := fixDiv (fixOne - a) (fixOne + a)
  if x < 0 then -t else t

/-- An offset kept inside ± n, drawn from the open constant. -/
def ulpOff (n : Nat) (site key : Nat) : Int :=
  let o := Config.ulpOffset site key
  if o < -(n : Int) then -(n : Int) else if (n : Int) < o then (n : Int) else o

/-- A result within `n` ulp of the exact value `x`, the same for the same site and key (R70, R113). -/
def withinUlp (n site key : Nat) (x : Fp) : W32 :=
  match x with
  | .fin neg m e =>
    let r := toF32 x
    let y := f32Offset r (ulpOff n site key)
    if !(ofF32 r).isFinite then r
    else
      -- stay within n steps of the exact value, the rounded one lying within half a step of it
      let d := Fp.sub (ofF32 y) (.fin neg m e)
      let step : Int := match ofF32 r with
        | .fin _ mm ee => if mm = 0 then -149 else if (Nat.log2 mm : Int) + ee - 23 < -149 then -149
            else (Nat.log2 mm : Int) + ee - 23
        | _ => 0
      let inside := Fp.le d.abs (.fin false n step)
      if inside then (if y = 0#32 && neg then 0x80000000#32 else y) else r
  | x => toF32 x

end Sys2Proof.Machine
end

