-- ==== Sys2Proof/Machine/Funcs.lean ====
section
/-!
DEFINITION. Machine/Funcs.lean: the function codes of R113 and their derivatives, IEEE maximum and minimum (R117,
R234), the vector functions of R234 and the trigonometric reads of R163.
-/

namespace Sys2Proof.Machine

/-- Sites of `Config.ulpOffset`. -/
def siteAct : Nat := 0
def siteDeriv : Nat := 16
def siteExp : Nat := 32
def siteLn : Nat := 33
def siteRecip : Nat := 34
def siteRsqrt : Nat := 35
def siteSin : Nat := 36
def siteCos : Nat := 37
def siteGauss : Nat := 38
def sitePow : Nat := 40
def siteTilt : Nat := 41

/-- 0.797 884 6 and 0.044 715 (R113). -/
def geluC : Int := fixRat 7978846 10000000
def geluA : Int := fixRat 44715 1000000

/-- The argument of the tanh form. -/
def geluU (x : Int) : Int := fixMul geluC (x + fixMul geluA (fixMul x (fixMul x x)))

/-- The exact value of function `f` of R113 at a finite non-zero number. -/
def actExact (f : Nat) (x : Fp) : Fp :=
  let v := fixOf x
  let neg := x.isNeg
  match f with
  | 3 => fpOfFix neg (fixMul v (fixPhi v))
  | 4 => fpOfFix neg (fixMul v (fixSigmoid (2 * geluU v)))
  | 5 => fpOfFix neg (fixMul v (fixSigmoid v))
  | 6 => fpOfFix false (fixSigmoid v)
  | 7 => fpOfFix neg (fixTanh v)
  | _ => if 20 * fixOne < v then x else fpOfFix false (fixLn (fixOne + fixExp v))

/-- The exact value of the derivative of function `f` at a finite number. -/
def derivExact (f : Nat) (x : Fp) : Fp :=
  let v := fixOf x
  let neg := x.isNeg && !x.isZero
  match f with
  | 3 => fpOfFix neg (fixPhi v + fixMul v (fixNormPdf v))
  | 4 =>
    let u := geluU v
    let s := fixSigmoid (2 * u)
    let du := fixMul geluC (fixOne + 3 * fixMul geluA (fixMul v v))
    -- d/dx x·σ(2u) = σ(2u) + 2x·σ(2u)(1 − σ(2u))·u′
    fpOfFix neg (s + 2 * fixMul v (fixMul (fixMul s (fixSigmoid (-(2 * u)))) du))
  | 5 =>
    let s := fixSigmoid v
    fpOfFix neg (s + fixMul v (fixMul s (fixSigmoid (-v))))
  | 6 => fpOfFix false (fixMul (fixSigmoid v) (fixSigmoid (-v)))
  | 7 =>
    let t := fixTanh v
    fpOfFix false (fixOne - fixMul t t)
  | _ => fpOfFix false (fixSigmoid v)

/-- Whether a function of R113 runs at half rate. -/
def actHalf (f : Nat) : Bool := decide (3 ≤ f)

/-- f(x) of R113, with its answers at NaN, ±0 and ±Inf. -/
def actF (f : Nat) (x : W32) : W32 :=
  match ofF32 x with
  | .nan => f32NaN
  | .inf neg =>
    if neg then
      match f with
      | 0 => f32NegInf
      | 3 | 4 | 5 => 0x80000000#32
      | 7 => 0xBF800000#32
      | _ => 0#32
    else
      match f with
      | 6 | 7 => f32One
      | _ => f32PosInf
  | .fin neg m e =>
    match f with
    | 0 => x
    | 1 => if m != 0 && !neg then x else 0#32
    | 2 => if m != 0 && !neg then f32Mul x x else 0#32
    | f =>
      if m = 0 then
        match f with
        | 6 => 0x3F000000#32
        | 8 => 0x3F317218#32
        | _ => 0#32
      else
        let y := actExact f (.fin neg m e)
        -- softplus above 20 is x itself; GELU and SiLU values of negative inputs that round to zero are -0
        if f = 8 ∧ Fp.lt (.ofNat 20) (.fin neg m e) then x
        else if (f = 3 ∨ f = 4 ∨ f = 5) ∧ neg ∧ (ofF32 (toF32 y)).isZero then 0x80000000#32
        else withinUlp 4 (siteAct + f) x.toNat y

/-- f′(x) of R113. -/
def actD (f : Nat) (x : W32) : W32 :=
  match ofF32 x with
  | .nan => f32NaN
  | .inf neg =>
    if neg then
      match f with
      | 0 => f32One
      | 3 | 4 | 5 => 0x80000000#32
      | _ => 0#32
    else
      match f with
      | 0 | 1 | 3 | 4 | 5 | 8 => f32One
      | 2 => f32PosInf
      | _ => 0#32
  | .fin neg m e =>
    match f with
    | 0 => f32One
    | 1 => if m != 0 && !neg then f32One else 0#32
    | 2 => if m != 0 && !neg then toF32 ((Fp.fin neg m e).scale2 1) else 0#32
    | f => withinUlp 4 (siteDeriv + f) x.toNat (derivExact f (.fin neg m e))

/-- IEEE maximum: any NaN gives NaN, and +0 exceeds −0 (R117). -/
def f32Max (a b : W32) : W32 :=
  if f32IsNaN a || f32IsNaN b then f32NaN
  else if f32Lt a b then b
  else if f32Lt b a then a
  else if (ofF32 a).isNeg then b else a

/-- IEEE minimum: any NaN gives NaN, and −0 is below +0 (R234). -/
def f32Min (a b : W32) : W32 :=
  if f32IsNaN a || f32IsNaN b then f32NaN
  else if f32Lt a b then a
  else if f32Lt b a then b
  else if (ofF32 a).isNeg then a else b

/-- e^x in FP32, within 4 ulp (R234). -/
def f32Exp (x : W32) : W32 :=
  match ofF32 x with
  | .nan => f32NaN
  | .inf neg => if neg then 0#32 else f32PosInf
  | .fin neg m e =>
    if m = 0 then f32One
    else if !neg && decide (7 ≤ (Nat.log2 m : Int) + e) then f32PosInf
    else withinUlp 4 siteExp x.toNat (fpOfFix false (fixExp (fixOf (.fin neg m e))))

/-- ln x in FP32, within 4 ulp; −Inf at ±0, NaN below 0 (R234). -/
def f32Ln (x : W32) : W32 :=
  match ofF32 x with
  | .nan => f32NaN
  | .inf neg => if neg then f32NaN else f32PosInf
  | .fin neg m e =>
    if m = 0 then f32NegInf
    else if neg then f32NaN
    else withinUlp 4 siteLn x.toNat (fpOfFix false (fixLn (fixOf (.fin neg m e))))

/-- 1 ÷ x in FP32, within 4 ulp (R234). -/
def f32Recip (x : W32) : W32 :=
  match Fp.div Fp.one (ofF32 x) with
  | .fin n m e => if m = 0 then toF32 (.fin n 0 0) else withinUlp 4 siteRecip x.toNat (.fin n m e)
  | y => toF32 y

/-- 1 ÷ √x in FP32, within 4 ulp (R234). -/
def f32Rsqrt (x : W32) : W32 :=
  match Fp.div Fp.one (Fp.sqrt (ofF32 x)) with
  | .fin n m e => if m = 0 then toF32 (.fin n 0 0) else withinUlp 4 siteRsqrt x.toNat (.fin n m e)
  | y => toF32 y

/-- sin and cos of an FP32 angle, within 4 ulp with exact argument reduction (R163). -/
def f32Sin (x : W32) : W32 :=
  match ofF32 x with
  | .fin n m e => if m = 0 then x else withinUlp 4 siteSin x.toNat (fpOfFix n (fixCosSin (angleOf (.fin n m e))).2)
  | _ => f32NaN
def f32Cos (x : W32) : W32 :=
  match ofF32 x with
  | .fin n m e => if m = 0 then f32One else withinUlp 4 siteCos x.toNat (fpOfFix false (fixCosSin (angleOf (.fin n m e))).1)
  | _ => f32NaN

/-- a^t as exp(t × ln a) within 8 FP32 ulp, with 0^t = 0 for t ≥ 1 (R278). -/
def f32Pow (a : W32) (t : Nat) : W32 :=
  match ofF32 a with
  | .fin neg m e =>
    if t = 0 then f32One
    else if m = 0 then 0#32
    else if neg then f32NaN
    else withinUlp 8 sitePow (a.toNat + t * 2 ^ 32) (fpOfFix false (fixExp ((t : Int) * fixLn (fixOf (.fin neg m e)))))
  | _ => f32NaN

end Sys2Proof.Machine
end

