-- ==== Sys2Proof/Machine/Crypto.lean ====
section
/-!
DEFINITION. Machine/Crypto.lean: the algorithms the spec names by their public standards: SHA-256 (R41, R295, R395,
R408, R412 to R414), CRC-32C (R221, R308, R310, R315), ECDSA over P-256 (R295, R395, R408), and the generator of
R241. The standards themselves are outside the spec (log 9).
-/

namespace Sys2Proof.Machine

def mask32 (x : Nat) : Nat := x % 2 ^ 32

/-- Big-endian value of bytes. -/
def beNat (bs : List Byte) : Nat := bs.foldl (fun acc b => acc * 256 + b.toNat) 0

/-- The `n` big-endian bytes of a number. -/
def beBytes (n x : Nat) : List Byte := (leBytes n x).reverse

/-- The largest r below 2^bits with r^n at most x, found bit by bit. -/
def rootBelow (n x : Nat) : Nat → Nat → Nat
  | 0, r => r
  | i + 1, r => rootBelow n x i (if (r + 2 ^ i) ^ n ≤ x then r + 2 ^ i else r)

/-- The first 32 bits of the fraction of the n-th root of p: how SHA-256 forms its constants. -/
def rootFraction (n p : Nat) : W32 := BitVec.ofNat 32 (rootBelow n (p * 2 ^ (32 * n)) 36 0)

/-- The primes up to 311, the first 64. -/
def smallPrimes : List Nat :=
  (List.range 312).filter (fun p => decide (2 ≤ p) && (List.range 18).all (fun d => d < 2 || p % d != 0 || p == d))

/-- SHA-256's round constants, from cube roots, and its initial hash value, from square roots. -/
def shaConstants : List W32 := smallPrimes.map (rootFraction 3)
def shaStart : List W32 := (smallPrimes.take 8).map (rootFraction 2)

/-- The exclusive or of a word's rotations, beside its right shift by `s`, which is left out at 32. -/
def shaMix (rs : List Nat) (s : Nat) (x : W32) : W32 := rs.foldl (fun y r => y ^^^ x.rotateRight r) (x >>> s)

/-- Message words, newest first, `n` words longer. -/
def shaExtend : Nat → List W32 → List W32
  | 0, ws => ws
  | n + 1, ws =>
    let back := fun k => listGet 0#32 ws (k - 1)
    shaExtend n ((shaMix [17, 19] 10 (back 2) + back 7 + shaMix [7, 18] 3 (back 15) + back 16) :: ws)

/-- One round on the four latest words of each of SHA-256's two sequences, newest first, with round constant plus message
word `kw`. -/
def shaRound (p : List W32 × List W32) (kw : W32) : List W32 × List W32 :=
  match p with
  | ([x0, x1, x2, x3], [y0, y1, y2, y3]) =>
    let t := kw + y3 + (y2 ^^^ (y0 &&& (y1 ^^^ y2))) + shaMix [6, 11, 25] 32 y0
    ([t + ((x0 &&& (x1 ||| x2)) ||| (x1 &&& x2)) + shaMix [2, 13, 22] 32 x0, x0, x1, x2], [x3 + t, y0, y1, y2])
  | p => p

/-- Take one 64-byte block into the hash value. -/
def shaBlock (hs : List W32) (block : List Byte) : List W32 :=
  let ws := (shaExtend 48 ((chunksOf 4 16 block).map (fun q => BitVec.ofNat 32 (beNat q))).reverse).reverse
  let r := (shaConstants.zip ws).foldl (fun p kw => shaRound p (kw.1 + kw.2)) (hs.take 4, hs.drop 4)
  List.zipWith (fun x y => x + y) hs (r.1 ++ r.2)

/-- SHA-256 of a byte string. -/
def sha256 (msg : List Byte) : List Byte :=
  let n := msg.length
  let pad := (119 - n % 64) % 64
  let m := msg ++ (0x80#8 :: List.replicate pad 0#8) ++ beBytes 8 (8 * n)
  ((chunksOf 64 (m.length / 64 + 1) m).foldl shaBlock shaStart).flatMap (fun x => beBytes 4 x.toNat)

/-- Eight steps of the reflected Castagnoli polynomial. -/
def crcShift : Nat → Nat → Nat
  | 0, c => c
  | n + 1, c => crcShift n (if c % 2 = 1 then (c >>> 1) ^^^ 0x82F63B78 else c >>> 1)

/-- CRC-32C (Castagnoli) of a byte string. -/
def crc32c (bs : List Byte) : Nat :=
  (bs.foldl (fun c b => crcShift 8 (c ^^^ b.toNat)) 0xFFFFFFFF) ^^^ 0xFFFFFFFF

/-- Ten rounds of Philox4x32 (R241). -/
def philoxRounds : Nat → Nat × Nat → Nat × Nat × Nat × Nat → Nat × Nat × Nat × Nat
  | 0, _, x => x
  | n + 1, (k0, k1), (x0, x1, x2, x3) =>
    let p0 := 0xD2511F53 * x0
    let p1 := 0xCD9E8D57 * x2
    philoxRounds n (mask32 (k0 + 0x9E3779B9), mask32 (k1 + 0xBB67AE85))
      ((p1 >>> 32) ^^^ x1 ^^^ k0, mask32 p1, (p0 >>> 32) ^^^ x3 ^^^ k1, mask32 p0)

/-- The generator word at counter `c` for a seed and a stream (R241); the counter is taken modulo 2^64 (R240). -/
def philoxWord (seed stream c : Nat) : Nat :=
  let c := c % 2 ^ 64
  let blk := c / 4
  let (y0, y1, y2, y3) := philoxRounds 10 (mask32 seed, mask32 (seed >>> 32))
    (mask32 blk, mask32 (blk >>> 32), mask32 stream, 0)
  match c % 4 with
  | 0 => y0
  | 1 => y1
  | 2 => y2
  | _ => y3

/-- The field prime, the group order, the coefficient and the base point of P-256. -/
def p256P : Nat := 0xffffffff00000001000000000000000000000000ffffffffffffffffffffffff
def p256N : Nat := 0xffffffff00000000ffffffffffffffffbce6faada7179e84f3b9cac2fc632551
def p256B : Nat := 0x5ac635d8aa3a93e7b3ebbd55769886bc651d06b0cc53b0f63bce3c3e27d2604b
def p256Gx : Nat := 0x6b17d1f2e12c4247f8bce6e563a440f277037d812deb33a0f4a13945d898c296
def p256Gy : Nat := 0x4fe342e2fe1a7f9b8ee7eb4a7c0f9e162bce33576b315ececbb6406837bf51f5

/-- x^e modulo m, over `n` bits of the exponent from the top. -/
def powMod (m x e : Nat) : Nat → Nat → Nat
  | 0, acc => acc
  | n + 1, acc =>
    let a := acc * acc % m
    powMod m x e n (if bitOf e n then a * x % m else a)

/-- Inverse modulo a 256-bit prime. -/
def invMod (m x : Nat) : Nat := powMod m (x % m) (m - 2) 256 1

/-- A point in Jacobian coordinates; z = 0 is the point at infinity. -/
structure P256Point where
  x : Nat
  y : Nat
  z : Nat

/-- Difference modulo the field prime. -/
def fsub (a b : Nat) : Nat := (a + p256P - b % p256P) % p256P

/-- Twice a point (coefficient a = −3). -/
def p256Double (q : P256Point) : P256Point :=
  if q.z = 0 ∨ q.y = 0 then { x := 1, y := 1, z := 0 }
  else
    let ysq := q.y * q.y % p256P
    let s := 4 * q.x * ysq % p256P
    let zsq := q.z * q.z % p256P
    let m := 3 * fsub q.x zsq * (q.x + zsq) % p256P
    let nx := fsub (m * m % p256P) (2 * s)
    { x := nx, y := fsub (m * fsub s nx % p256P) (8 * (ysq * ysq % p256P)), z := 2 * q.y * q.z % p256P }

/-- Sum of two points. -/
def p256Add (p q : P256Point) : P256Point :=
  if p.z = 0 then q
  else if q.z = 0 then p
  else
    let z1 := p.z * p.z % p256P
    let z2 := q.z * q.z % p256P
    let u1 := p.x * z2 % p256P
    let u2 := q.x * z1 % p256P
    let s1 := p.y * (z2 * q.z % p256P) % p256P
    let s2 := q.y * (z1 * p.z % p256P) % p256P
    if u1 = u2 then (if s1 = s2 then p256Double p else { x := 1, y := 1, z := 0 })
    else
      let h := fsub u2 u1
      let r := fsub s2 s1
      let h2 := h * h % p256P
      let h3 := h2 * h % p256P
      let v := u1 * h2 % p256P
      let nx := fsub (fsub (r * r % p256P) h3) (2 * v)
      { x := nx, y := fsub (r * fsub v nx % p256P) (s1 * h3 % p256P), z := h * (p.z * q.z % p256P) % p256P }

/-- k times a point, over `n` bits of k from the top. -/
def p256Mul (q : P256Point) (k : Nat) : Nat → P256Point → P256Point
  | 0, acc => acc
  | n + 1, acc =>
    let d := p256Double acc
    p256Mul q k n (if bitOf k n then p256Add d q else d)

def p256Inf : P256Point := { x := 1, y := 1, z := 0 }
def p256G : P256Point := { x := p256Gx, y := p256Gy, z := 1 }

/-- The affine x of a point. -/
def p256AffineX (q : P256Point) : Nat :=
  let zi := invMod p256P q.z
  q.x * (zi * zi % p256P) % p256P

/-- The affine y of a point. -/
def p256AffineY (q : P256Point) : Nat :=
  let zi := invMod p256P q.z
  q.y * (zi * (zi * zi % p256P) % p256P) % p256P

/-- Whether (x, y) lies on the curve. -/
def p256OnCurve (x y : Nat) : Bool :=
  decide (x < p256P) && decide (y < p256P) &&
    y * y % p256P == (fsub (x * (x * x % p256P) % p256P) (3 * x) + p256B) % p256P

/-- ECDSA verification of a 64-byte signature, r then s big-endian, over a 32-byte digest, by a 64-byte public key,
x then y big-endian. -/
def ecdsaVerify (pub digest sig : List Byte) : Bool :=
  let px := beNat (pub.take 32)
  let py := beNat ((pub.drop 32).take 32)
  let r := beNat (sig.take 32)
  let s := beNat ((sig.drop 32).take 32)
  if !p256OnCurve px py || r == 0 || decide (p256N ≤ r) || s == 0 || decide (p256N ≤ s) then false
  else
    let z := beNat digest % p256N
    let w := invMod p256N s
    let q := p256Add (p256Mul p256G (z * w % p256N) 256 p256Inf)
      (p256Mul { x := px, y := py, z := 1 } (r * w % p256N) 256 p256Inf)
    if q.z = 0 then false else p256AffineX q % p256N == r

/-- ECDSA signature over a digest by private key `d` with the per-signature secret `k`. -/
def ecdsaSign (d k : Nat) (digest : List Byte) : List Byte :=
  let k := k % (p256N - 1) + 1
  let r := p256AffineX (p256Mul p256G k 256 p256Inf) % p256N
  let s := invMod p256N k * ((beNat digest + r * d) % p256N) % p256N
  beBytes 32 r ++ beBytes 32 s

/-- The public key of private key `d`: x then y, big-endian. -/
def ecdsaPublic (d : Nat) : List Byte :=
  let q := p256Mul p256G d 256 p256Inf
  beBytes 32 (p256AffineX q) ++ beBytes 32 (p256AffineY q)

end Sys2Proof.Machine
end

