-- ==== Sys2Proof/Machine/RegMap.lean ====
section
/-!
DEFINITION. Machine/RegMap.lean: the register summary (spec/26: R440 to R447) as a table: where each register lies, how
wide it is, how its bits answer a write (R11) and what it holds at reset. A row with a shadow mask has its active copy
0x8000 above (R441).
-/

namespace Sys2Proof.Machine

/-- One register or one array of registers. -/
structure RegRow where
  base : Nat
  istride : Nat
  icount : Nat
  stride : Nat
  count : Nat
  wide : Bool
  rw : Nat
  w1c : Nat
  sh : Nat
  wo : Nat
  inst : Bool
  cset : Option Nat
  reset : Nat
  deriving DecidableEq, Repr

/-- Part 0 of the register table. -/
def regRows0 : List RegRow := [
  -- HUB.IDENT (26_register_summary.md, R445)
  ⟨0x0, 0x0, 1, 0x8, 1, false, 0x0, 0x0, 0x0, 0x0, false, none, 0x4c720000⟩,
  -- HUB.READY (22_reset_and_startup.md, R400)
  ⟨0x8, 0x0, 1, 0x8, 1, false, 0x0, 0x0, 0x0, 0x0, false, none, 0x0⟩,
  -- HUB.RESET_CAUSE (22_reset_and_startup.md, R400)
  ⟨0x10, 0x0, 1, 0x8, 1, false, 0x0, 0x0, 0x0, 0x0, false, none, 0x0⟩,
  -- HUB.RESET (22_reset_and_startup.md, R401)
  ⟨0x18, 0x0, 1, 0x8, 1, false, 0x0, 0x0, 0x0, 0xf, true, none, 0x0⟩,
  -- HUB.RESET_ENGINE (22_reset_and_startup.md, R401)
  ⟨0x20, 0x0, 1, 0x8, 1, false, 0xffffffff, 0x0, 0x0, 0x0, true, none, 0x0⟩,
  -- HUB.RESET_STATUS (22_reset_and_startup.md, R401)
  ⟨0x28, 0x0, 1, 0x8, 1, false, 0x0, 0x1, 0x0, 0x0, false, none, 0x0⟩,
  -- HUB.FABRIC_ID (16_plasusa_link.md, R319)
  ⟨0x40, 0x0, 1, 0x8, 1, false, 0x0, 0x0, 0xffff, 0x0, true, some 4, 0xffff⟩,
  -- HUB.VERDICT_CTRL (14_parameter_update.md, R283)
  ⟨0x48, 0x0, 1, 0x8, 1, false, 0x0, 0x0, 0xffffffff, 0x0, false, some 1, 0x180007d0⟩,
  -- HUB.VERDICT_SCALE (14_parameter_update.md, R283)
  ⟨0x50, 0x0, 1, 0x8, 1, false, 0x0, 0x0, 0xff, 0x0, false, some 1, 0x10⟩,
  -- HUB.GLOBAL_CLIP (14_parameter_update.md, R283)
  ⟨0x58, 0x0, 1, 0x8, 1, false, 0x0, 0x0, 0xffffffff, 0x0, false, some 1, 0x0⟩,
  -- HUB.UPD_STATUS (14_parameter_update.md, R284)
  ⟨0x60, 0x0, 1, 0x8, 1, false, 0x0, 0x3c, 0x0, 0x0, false, none, 0x0⟩,
  -- HUB.UPD_T (14_parameter_update.md, R284)
  ⟨0x68, 0x0, 1, 0x8, 1, true, 0x0, 0x0, 0x0, 0x0, false, none, 0x0⟩,
  -- HUB.CFG_STATUS (19_configuration_and_service.md, R365)
  ⟨0x70, 0x0, 1, 0x8, 1, false, 0x0, 0x7f80, 0x0, 0x0, false, none, 0x0⟩,
  -- HUB.CFG_TICK[0] to [6] (19_configuration_and_service.md, R365)
  ⟨0x80, 0x0, 1, 0x8, 7, true, 0x0, 0x0, 0x0, 0x0, false, none, 0x0⟩,
  -- HUB.MCAST_MAP[0] to [63] (16_plasusa_link.md, R319)
  ⟨0x100, 0x0, 1, 0x8, 64, false, 0x0, 0x0, 0xffffffff, 0x0, false, some 4, 0xffff0000⟩,
  -- HUB.UPD_APPLIED (14_parameter_update.md, R285)
  ⟨0x400, 0x0, 1, 0x8, 1, true, 0x0, 0x0, 0x0, 0x0, false, none, 0x0⟩,
  -- HUB.UPD_SKIPPED (14_parameter_update.md, R285)
  ⟨0x408, 0x0, 1, 0x8, 1, true, 0x0, 0x0, 0x0, 0x0, false, none, 0x0⟩,
  -- HUB.UPD_CAUGHT_UP (14_parameter_update.md, R285)
  ⟨0x410, 0x0, 1, 0x8, 1, false, 0x0, 0x0, 0x0, 0x0, false, none, 0x0⟩,
  -- HUB.UPD_MISSED (14_parameter_update.md, R285)
  ⟨0x418, 0x0, 1, 0x8, 1, false, 0x0, 0x0, 0x0, 0x0, false, none, 0x0⟩,
  -- HUB.UPD_MISMATCH (14_parameter_update.md, R285)
  ⟨0x420, 0x0, 1, 0x8, 1, false, 0x0, 0x0, 0x0, 0x0, false, none, 0x0⟩,
  -- HUB.UPD_STALE_SCHEDULE (14_parameter_update.md, R285)
  ⟨0x428, 0x0, 1, 0x8, 1, false, 0x0, 0x0, 0x0, 0x0, false, none, 0x0⟩,
  -- HUB.UPD_EXCLUDED_SEGMENTS (14_parameter_update.md, R285)
  ⟨0x430, 0x0, 1, 0x8, 1, true, 0x0, 0x0, 0x0, 0x0, false, none, 0x0⟩,
  -- HUB.PRECOND_RETRIES (14_parameter_update.md, R285)
  ⟨0x438, 0x0, 1, 0x8, 1, true, 0x0, 0x0, 0x0, 0x0, false, none, 0x0⟩,
  -- HUB.PRECOND_FALLBACK (14_parameter_update.md, R285)
  ⟨0x440, 0x0, 1, 0x8, 1, false, 0x0, 0x0, 0x0, 0x0, false, none, 0x0⟩,
  -- HUB.RED_LOCAL_RX (13_gradient_reduction.md, R265)
  ⟨0x448, 0x0, 1, 0x8, 1, true, 0x0, 0x0, 0x0, 0x0, false, none, 0x0⟩,
  -- HUB.RED_LOCAL_ACCEPTED (13_gradient_reduction.md, R265)
  ⟨0x450, 0x0, 1, 0x8, 1, true, 0x0, 0x0, 0x0, 0x0, false, none, 0x0⟩,
  -- HUB.RED_LOCAL_LATE (13_gradient_reduction.md, R265)
  ⟨0x458, 0x0, 1, 0x8, 1, true, 0x0, 0x0, 0x0, 0x0, false, none, 0x0⟩,
  -- TICK.STATUS (02_ticks_and_plans.md, R33)
  ⟨0x10000, 0x0, 1, 0x8, 1, false, 0x0, 0x700, 0x0, 0x0, false, none, 0x0⟩,
  -- TICK.NOW (02_ticks_and_plans.md, R33)
  ⟨0x10008, 0x0, 1, 0x8, 1, true, 0x0, 0x0, 0x0, 0x0, false, none, 0x0⟩,
  -- TICK.SKIPPED_COUNT (02_ticks_and_plans.md, R31)
  ⟨0x10010, 0x0, 1, 0x8, 1, true, 0x0, 0x0, 0x0, 0x0, false, none, 0x0⟩,
  -- CLK.STATUS (20_clocks.md, R379)
  ⟨0x20000, 0x0, 1, 0x8, 1, false, 0x0, 0x7fe00, 0x0, 0x0, false, none, 0x0⟩,
  -- CLK.SRC (20_clocks.md, R379)
  ⟨0x20008, 0x0, 1, 0x8, 1, false, 0x0, 0x0, 0x3ffff, 0x0, true, some 6, 0x20000⟩,
  -- CLK.RTC (20_clocks.md, R379)
  ⟨0x20010, 0x0, 1, 0x8, 1, true, 0x0, 0x0, 0x0, 0x0, false, none, 0x0⟩,
  -- CLK.LOSSES (20_clocks.md, R379)
  ⟨0x20018, 0x0, 1, 0x8, 1, false, 0x0, 0x0, 0x0, 0x0, false, none, 0x0⟩,
  -- PWR.STATUS (21_power_and_protection.md, R391)
  ⟨0x30000, 0x0, 1, 0x8, 1, false, 0x0, 0xac, 0x0, 0x0, false, none, 0x0⟩,
  -- PWR.CAP (21_power_and_protection.md, R392)
  ⟨0x30008, 0x0, 1, 0x8, 1, false, 0x0, 0x0, 0x1fff, 0x0, false, some 5, 0xed8⟩,
  -- PWR.RANGE (21_power_and_protection.md, R392)
  ⟨0x30010, 0x0, 1, 0x8, 1, false, 0x0, 0x0, 0x1fff1fff, 0x0, true, some 5, 0xed805dc⟩,
  -- PWR.RAMP_CFG (04_matrix_array.md, R88)
  ⟨0x30018, 0x0, 1, 0x8, 1, false, 0x0, 0x0, 0x3, 0x0, true, some 5, 0x1⟩,
  -- PWR.RAMP_TOKENS (04_matrix_array.md, R88)
  ⟨0x30020, 0x0, 1, 0x8, 1, false, 0x0, 0x0, 0x0, 0x0, false, none, 0x88⟩,
  -- PWR.BUDGET (21_power_and_protection.md, R392)
  ⟨0x30028, 0x0, 1, 0x8, 1, false, 0x0, 0x0, 0x0, 0x0, false, none, 0x88⟩]

/-- Part 1 of the register table. -/
def regRows1 : List RegRow := [
  -- PWR.INPUT (21_power_and_protection.md, R392)
  ⟨0x30030, 0x0, 1, 0x8, 1, false, 0x0, 0x0, 0x0, 0x0, false, none, 0x0⟩,
  -- PWR.INPUT_POWER (21_power_and_protection.md, R392)
  ⟨0x30038, 0x0, 1, 0x8, 1, false, 0x0, 0x0, 0x0, 0x0, false, none, 0x0⟩,
  -- PWR.COOLANT (21_power_and_protection.md, R392)
  ⟨0x30040, 0x0, 1, 0x8, 1, false, 0x0, 0x0, 0x0, 0x0, false, none, 0x0⟩,
  -- PWR.RAIL_OFF (21_power_and_protection.md, R392)
  ⟨0x30048, 0x0, 1, 0x8, 1, false, 0x0, 0x0, 0x0, 0x0, false, none, 0x0⟩,
  -- PWR.LAST_HALT (21_power_and_protection.md, R392)
  ⟨0x30050, 0x0, 1, 0x8, 1, false, 0x0, 0x0, 0x0, 0x0, false, none, 0x0⟩,
  -- PWR.SAGS (21_power_and_protection.md, R393)
  ⟨0x30100, 0x0, 1, 0x8, 1, false, 0x0, 0x0, 0x0, 0x0, false, none, 0x0⟩,
  -- PWR.WITHDRAWALS (21_power_and_protection.md, R393)
  ⟨0x30108, 0x0, 1, 0x8, 1, true, 0x0, 0x0, 0x0, 0x0, false, none, 0x0⟩,
  -- PWR.RETURNS (21_power_and_protection.md, R393)
  ⟨0x30110, 0x0, 1, 0x8, 1, true, 0x0, 0x0, 0x0, 0x0, false, none, 0x0⟩,
  -- PWR.THROTTLE_CYCLES (21_power_and_protection.md, R393)
  ⟨0x30118, 0x0, 1, 0x8, 1, true, 0x0, 0x0, 0x0, 0x0, false, none, 0x0⟩,
  -- PWR.ENERGY (21_power_and_protection.md, R393)
  ⟨0x30120, 0x0, 1, 0x8, 1, true, 0x0, 0x0, 0x0, 0x0, false, none, 0x0⟩,
  -- SEC.STATUS (23_roles_and_security.md, R415)
  ⟨0x40000, 0x0, 1, 0x8, 1, false, 0x0, 0xe0, 0x0, 0x0, false, none, 0x0⟩,
  -- SEC.PRESENCE_LEFT (23_roles_and_security.md, R416)
  ⟨0x40008, 0x0, 1, 0x8, 1, false, 0x0, 0x0, 0x0, 0x0, false, none, 0x0⟩,
  -- SEC.SVN (23_roles_and_security.md, R416)
  ⟨0x40010, 0x0, 1, 0x8, 1, false, 0x0, 0x0, 0x0, 0x0, false, none, 0x0⟩,
  -- SEC.MAKER_NONCE (23_roles_and_security.md, R416)
  ⟨0x40018, 0x0, 1, 0x8, 1, true, 0x0, 0x0, 0x0, 0x0, false, none, 0x0⟩,
  -- SEC.AUDIT_NEXT (23_roles_and_security.md, R416)
  ⟨0x40020, 0x0, 1, 0x8, 1, true, 0x0, 0x0, 0x0, 0x0, false, none, 0x0⟩,
  -- SEC.AUDIT_OLDEST (23_roles_and_security.md, R416)
  ⟨0x40028, 0x0, 1, 0x8, 1, true, 0x0, 0x0, 0x0, 0x0, false, none, 0x0⟩,
  -- SEC.IDENTITY_PUB[0] to [15] (23_roles_and_security.md, R416)
  ⟨0x40040, 0x0, 1, 0x8, 16, false, 0x0, 0x0, 0x0, 0x0, false, none, 0x0⟩,
  -- SEC.ROLE_DENIED (23_roles_and_security.md, R416)
  ⟨0x40100, 0x0, 1, 0x8, 1, false, 0x0, 0x0, 0x0, 0x0, false, none, 0x0⟩,
  -- SEC.PRESENCE_DENIED (23_roles_and_security.md, R416)
  ⟨0x40108, 0x0, 1, 0x8, 1, false, 0x0, 0x0, 0x0, 0x0, false, none, 0x0⟩,
  -- SEC.SIG_FAILS (23_roles_and_security.md, R416)
  ⟨0x40110, 0x0, 1, 0x8, 1, false, 0x0, 0x0, 0x0, 0x0, false, none, 0x0⟩,
  -- SEC.REG_WRITES_IGNORED (23_roles_and_security.md, R416)
  ⟨0x40118, 0x0, 1, 0x8, 1, true, 0x0, 0x0, 0x0, 0x0, false, none, 0x0⟩,
  -- SEC.PRESENCE_COALESCED (23_roles_and_security.md, R416)
  ⟨0x40120, 0x0, 1, 0x8, 1, false, 0x0, 0x0, 0x0, 0x0, false, none, 0x0⟩,
  -- CMD.CTRL (17_host_interface.md, R338)
  ⟨0x50000, 0x0, 1, 0x8, 1, false, 0xffff, 0x0, 0x0, 0x0, false, none, 0xa04⟩,
  -- CMD.LOCK_WAIT_US (17_host_interface.md, R340)
  ⟨0x50008, 0x0, 1, 0x8, 1, true, 0x0, 0x0, 0x0, 0x0, false, none, 0x0⟩,
  -- CMD.CFG[0] to [3] (17_host_interface.md, R338)
  ⟨0x50100, 0x100, 4, 0x8, 1, false, 0x7f, 0x0, 0x0, 0x0, false, none, 0x10⟩,
  -- CMD.BASE[0] to [3] (17_host_interface.md, R338)
  ⟨0x50108, 0x100, 4, 0x8, 1, true, 0xffffffffffffffff, 0x0, 0x0, 0x0, false, none, 0x0⟩,
  -- CMD.HEAD_ADDR[0] to [3] (17_host_interface.md, R338)
  ⟨0x50110, 0x100, 4, 0x8, 1, true, 0xffffffffffffffff, 0x0, 0x0, 0x0, false, none, 0x0⟩,
  -- CMD.STATUS_BASE[0] to [3] (17_host_interface.md, R338)
  ⟨0x50118, 0x100, 4, 0x8, 1, true, 0xffffffffffffffff, 0x0, 0x0, 0x0, false, none, 0x0⟩,
  -- CMD.HEAD[0] to [3] (17_host_interface.md, R338)
  ⟨0x50120, 0x100, 4, 0x8, 1, false, 0xffffffff, 0x0, 0x0, 0x0, false, none, 0x0⟩,
  -- CMD.TAIL[0] to [3] (17_host_interface.md, R338)
  ⟨0x50128, 0x100, 4, 0x8, 1, false, 0x0, 0x0, 0x0, 0x0, false, none, 0x0⟩,
  -- CMD.STATUS[0] to [3] (17_host_interface.md, R338)
  ⟨0x50130, 0x100, 4, 0x8, 1, false, 0x0, 0x0, 0x0, 0x0, false, none, 0x0⟩,
  -- CMD.LAST[0] to [3] (17_host_interface.md, R338)
  ⟨0x50138, 0x100, 4, 0x8, 1, true, 0x0, 0x0, 0x0, 0x0, false, none, 0x0⟩,
  -- CMD.DONE[0] to [3] (17_host_interface.md, R340)
  ⟨0x50140, 0x100, 4, 0x8, 1, true, 0x0, 0x0, 0x0, 0x0, false, none, 0x0⟩,
  -- CMD.WARN[0] to [3] (17_host_interface.md, R340)
  ⟨0x50148, 0x100, 4, 0x8, 1, true, 0x0, 0x0, 0x0, 0x0, false, none, 0x0⟩,
  -- CMD.ERRORS[0] to [3] (17_host_interface.md, R340)
  ⟨0x50150, 0x100, 4, 0x8, 1, true, 0x0, 0x0, 0x0, 0x0, false, none, 0x0⟩,
  -- TEL.STATUS (24_telemetry_and_faults.md, R430)
  ⟨0x60000, 0x0, 1, 0x8, 1, false, 0x0, 0xc, 0x0, 0x0, false, none, 0x0⟩,
  -- TEL.RING_BASE (24_telemetry_and_faults.md, R430)
  ⟨0x60008, 0x0, 1, 0x8, 1, true, 0x0, 0x0, 0x0, 0x0, false, none, 0x8ff0000000⟩,
  -- TEL.RING_BYTES (24_telemetry_and_faults.md, R430)
  ⟨0x60010, 0x0, 1, 0x8, 1, true, 0x0, 0x0, 0x0, 0x0, false, none, 0x10000000⟩,
  -- TEL.WRITE_INDEX (24_telemetry_and_faults.md, R431)
  ⟨0x60018, 0x0, 1, 0x8, 1, true, 0x0, 0x0, 0x0, 0x0, false, none, 0x0⟩,
  -- TEL.READ_INDEX (24_telemetry_and_faults.md, R431)
  ⟨0x60020, 0x0, 1, 0x8, 1, true, 0xffffffffffffffff, 0x0, 0x0, 0x0, false, none, 0x0⟩]

/-- Part 2 of the register table. -/
def regRows2 : List RegRow := [
  -- TEL.SRC_SEL (24_telemetry_and_faults.md, R431)
  ⟨0x60028, 0x0, 1, 0x8, 1, false, 0xffffffff, 0x0, 0x0, 0x0, false, none, 0x0⟩,
  -- TEL.WIN_TRACE_EMITTED (24_telemetry_and_faults.md, R431)
  ⟨0x60100, 0x0, 1, 0x8, 1, true, 0x0, 0x0, 0x0, 0x0, false, none, 0x0⟩,
  -- TEL.WIN_TRACE_WRITTEN (24_telemetry_and_faults.md, R431)
  ⟨0x60108, 0x0, 1, 0x8, 1, true, 0x0, 0x0, 0x0, 0x0, false, none, 0x0⟩,
  -- TEL.WIN_TRACE_DROPPED (24_telemetry_and_faults.md, R431)
  ⟨0x60110, 0x0, 1, 0x8, 1, true, 0x0, 0x0, 0x0, 0x0, false, none, 0x0⟩,
  -- TEL.WIN_LOG_EMITTED (24_telemetry_and_faults.md, R431)
  ⟨0x60118, 0x0, 1, 0x8, 1, true, 0x0, 0x0, 0x0, 0x0, false, none, 0x0⟩,
  -- TEL.WIN_LOG_WRITTEN (24_telemetry_and_faults.md, R431)
  ⟨0x60120, 0x0, 1, 0x8, 1, true, 0x0, 0x0, 0x0, 0x0, false, none, 0x0⟩,
  -- TEL.WIN_LOG_SUMMARISED (24_telemetry_and_faults.md, R431)
  ⟨0x60128, 0x0, 1, 0x8, 1, true, 0x0, 0x0, 0x0, 0x0, false, none, 0x0⟩,
  -- TEL.WIN_LOG_DROPPED (24_telemetry_and_faults.md, R431)
  ⟨0x60130, 0x0, 1, 0x8, 1, true, 0x0, 0x0, 0x0, 0x0, false, none, 0x0⟩,
  -- TEL.WIN_ALARM_CODES (24_telemetry_and_faults.md, R431)
  ⟨0x60138, 0x0, 1, 0x8, 1, true, 0x0, 0x0, 0x0, 0x0, false, none, 0x0⟩,
  -- TEL.WIN_ALARM_COUNT (24_telemetry_and_faults.md, R431)
  ⟨0x60140, 0x0, 1, 0x8, 1, true, 0x0, 0x0, 0x0, 0x0, false, none, 0x0⟩,
  -- TEL.WIN_ALARM_FIRST (24_telemetry_and_faults.md, R431)
  ⟨0x60148, 0x0, 1, 0x8, 1, true, 0x0, 0x0, 0x0, 0x0, false, none, 0x0⟩,
  -- TEL.WIN_ALARM_LAST (24_telemetry_and_faults.md, R431)
  ⟨0x60150, 0x0, 1, 0x8, 1, true, 0x0, 0x0, 0x0, 0x0, false, none, 0x0⟩,
  -- TEL.WIN_ALARM_RECORDS_DROPPED (24_telemetry_and_faults.md, R431)
  ⟨0x60158, 0x0, 1, 0x8, 1, false, 0x0, 0x0, 0x0, 0x0, false, none, 0x0⟩,
  -- TEL.SH_WRITES_IGNORED (24_telemetry_and_faults.md, R432)
  ⟨0x60200, 0x0, 1, 0x8, 1, false, 0x0, 0x0, 0x0, 0x0, false, none, 0x0⟩,
  -- TEL.CFG_DEFERRED (24_telemetry_and_faults.md, R432)
  ⟨0x60208, 0x0, 1, 0x8, 1, false, 0x0, 0x0, 0x0, 0x0, false, none, 0x0⟩,
  -- TEL.EPISODES (24_telemetry_and_faults.md, R432)
  ⟨0x60210, 0x0, 1, 0x8, 1, false, 0x0, 0x0, 0x0, 0x0, false, none, 0x0⟩,
  -- TEL.MEM_CORRECTED (24_telemetry_and_faults.md, R432)
  ⟨0x60218, 0x0, 1, 0x8, 1, true, 0x0, 0x0, 0x0, 0x0, false, none, 0x0⟩,
  -- TEL.MEM_UNCORRECTABLE (24_telemetry_and_faults.md, R432)
  ⟨0x60220, 0x0, 1, 0x8, 1, true, 0x0, 0x0, 0x0, 0x0, false, none, 0x0⟩,
  -- PCIE.STATUS (17_host_interface.md, R339)
  ⟨0x70000, 0x0, 1, 0x8, 1, false, 0x0, 0x400, 0x0, 0x0, false, none, 0x0⟩,
  -- PCIE.BAR2_BASE (17_host_interface.md, R339)
  ⟨0x70008, 0x0, 1, 0x8, 1, true, 0xffffffffffff, 0x0, 0x0, 0x0, false, none, 0x0⟩,
  -- PCIE.POOL_SHARE (10_activation_residency.md, R213)
  ⟨0x70010, 0x0, 1, 0x8, 1, false, 0x0, 0x0, 0x7f, 0x0, true, some 3, 0x20⟩,
  -- PCIE.BAR2_OUTSIDE (17_host_interface.md, R340)
  ⟨0x70100, 0x0, 1, 0x8, 1, true, 0x0, 0x0, 0x0, 0x0, false, none, 0x0⟩,
  -- PCIE.FETCH_RETRIES (17_host_interface.md, R340)
  ⟨0x70108, 0x0, 1, 0x8, 1, false, 0x0, 0x0, 0x0, 0x0, false, none, 0x0⟩,
  -- PCIE.POOL_READ_ERRORS (17_host_interface.md, R340)
  ⟨0x70110, 0x0, 1, 0x8, 1, false, 0x0, 0x0, 0x0, 0x0, false, none, 0x0⟩,
  -- PCIE.RX_BYTES (17_host_interface.md, R340)
  ⟨0x70118, 0x0, 1, 0x8, 1, true, 0x0, 0x0, 0x0, 0x0, false, none, 0x0⟩,
  -- PCIE.TX_BYTES (17_host_interface.md, R340)
  ⟨0x70120, 0x0, 1, 0x8, 1, true, 0x0, 0x0, 0x0, 0x0, false, none, 0x0⟩,
  -- SNAP.STATUS (15_mirrors_snapshots_restart.md, R303)
  ⟨0x80000, 0x0, 1, 0x8, 1, false, 0x0, 0x380, 0x0, 0x0, false, none, 0x0⟩,
  -- SNAP.GEN_COMMITTED (15_mirrors_snapshots_restart.md, R304)
  ⟨0x80100, 0x0, 1, 0x8, 1, true, 0x0, 0x0, 0x0, 0x0, false, none, 0x0⟩,
  -- SNAP.DEFERRED (15_mirrors_snapshots_restart.md, R304)
  ⟨0x80108, 0x0, 1, 0x8, 1, false, 0x0, 0x0, 0x0, 0x0, false, none, 0x0⟩,
  -- SNAP.HELD_WRITE_CYCLES (15_mirrors_snapshots_restart.md, R304)
  ⟨0x80110, 0x0, 1, 0x8, 1, true, 0x0, 0x0, 0x0, 0x0, false, none, 0x0⟩,
  -- SNAP.FLASH_BYTES (15_mirrors_snapshots_restart.md, R304)
  ⟨0x80118, 0x0, 1, 0x8, 1, true, 0x0, 0x0, 0x0, 0x0, false, none, 0x0⟩,
  -- SNAP.EXPORT_BYTES (15_mirrors_snapshots_restart.md, R304)
  ⟨0x80120, 0x0, 1, 0x8, 1, true, 0x0, 0x0, 0x0, 0x0, false, none, 0x0⟩,
  -- SNAP.ERASE_MAX (15_mirrors_snapshots_restart.md, R304)
  ⟨0x80128, 0x0, 1, 0x8, 1, false, 0x0, 0x0, 0x0, 0x0, false, none, 0x0⟩,
  -- SNAP.BLOCKS_RETIRED (15_mirrors_snapshots_restart.md, R304)
  ⟨0x80130, 0x0, 1, 0x8, 1, false, 0x0, 0x0, 0x0, 0x0, false, none, 0x0⟩,
  -- SNAP.SPARES_LEFT (15_mirrors_snapshots_restart.md, R304)
  ⟨0x80138, 0x0, 1, 0x8, 1, false, 0x0, 0x0, 0x0, 0x0, false, none, 0x0⟩,
  -- SNAP.LIFE_USED (15_mirrors_snapshots_restart.md, R304)
  ⟨0x80140, 0x0, 1, 0x8, 1, false, 0x0, 0x0, 0x0, 0x0, false, none, 0x0⟩,
  -- SNAP.MIRROR_RX (15_mirrors_snapshots_restart.md, R304)
  ⟨0x80148, 0x0, 1, 0x8, 1, true, 0x0, 0x0, 0x0, 0x0, false, none, 0x0⟩,
  -- SNAP.MIRROR_ACCEPTED (15_mirrors_snapshots_restart.md, R304)
  ⟨0x80150, 0x0, 1, 0x8, 1, true, 0x0, 0x0, 0x0, 0x0, false, none, 0x0⟩,
  -- SNAP.MIRROR_LATE (15_mirrors_snapshots_restart.md, R304)
  ⟨0x80158, 0x0, 1, 0x8, 1, true, 0x0, 0x0, 0x0, 0x0, false, none, 0x0⟩,
  -- SNAP.LANDINGS (15_mirrors_snapshots_restart.md, R304)
  ⟨0x80160, 0x0, 1, 0x8, 1, false, 0x0, 0x0, 0x0, 0x0, false, none, 0x0⟩]

/-- Part 3 of the register table. -/
def regRows3 : List RegRow := [
  -- SNAP.PROMOTIONS (15_mirrors_snapshots_restart.md, R304)
  ⟨0x80168, 0x0, 1, 0x8, 1, false, 0x0, 0x0, 0x0, 0x0, false, none, 0x0⟩,
  -- FABPn.STATUS (16_plasusa_link.md, R318)
  ⟨0x90000, 0x10000, 4, 0x8, 1, false, 0x0, 0x18000, 0x0, 0x0, false, none, 0x0⟩,
  -- FABPn.CTRL (16_plasusa_link.md, R319)
  ⟨0x90008, 0x10000, 4, 0x8, 1, false, 0x0, 0x0, 0x7, 0x0, true, some 4, 0x1⟩,
  -- FABPn.CREDIT[0] to [3] (25_conservation_guarantees.md, R438)
  ⟨0x90010, 0x10000, 4, 0x8, 4, false, 0x0, 0x0, 0x0, 0x0, false, none, 0x0⟩,
  -- FABPn.TX_PACKETS (16_plasusa_link.md, R320)
  ⟨0x90100, 0x10000, 4, 0x8, 1, true, 0x0, 0x0, 0x0, 0x0, false, none, 0x0⟩,
  -- FABPn.RX_PACKETS (16_plasusa_link.md, R320)
  ⟨0x90108, 0x10000, 4, 0x8, 1, true, 0x0, 0x0, 0x0, 0x0, false, none, 0x0⟩,
  -- FABPn.LINK_RETRIES (16_plasusa_link.md, R320)
  ⟨0x90110, 0x10000, 4, 0x8, 1, true, 0x0, 0x0, 0x0, 0x0, false, none, 0x0⟩,
  -- FABPn.FEC_CORRECTED (16_plasusa_link.md, R320)
  ⟨0x90118, 0x10000, 4, 0x8, 1, true, 0x0, 0x0, 0x0, 0x0, false, none, 0x0⟩,
  -- FABPn.FEC_UNCORRECTABLE (16_plasusa_link.md, R320)
  ⟨0x90120, 0x10000, 4, 0x8, 1, true, 0x0, 0x0, 0x0, 0x0, false, none, 0x0⟩,
  -- FABPn.CRC_DROPS (16_plasusa_link.md, R320)
  ⟨0x90128, 0x10000, 4, 0x8, 1, true, 0x0, 0x0, 0x0, 0x0, false, none, 0x0⟩,
  -- FABPn.MISROUTED (16_plasusa_link.md, R320)
  ⟨0x90130, 0x10000, 4, 0x8, 1, true, 0x0, 0x0, 0x0, 0x0, false, none, 0x0⟩,
  -- FABPn.TX_DISCARDED (16_plasusa_link.md, R320)
  ⟨0x90138, 0x10000, 4, 0x8, 1, true, 0x0, 0x0, 0x0, 0x0, false, none, 0x0⟩,
  -- FABPn.CREDIT_WAIT_CYCLES (16_plasusa_link.md, R320)
  ⟨0x90140, 0x10000, 4, 0x8, 1, true, 0x0, 0x0, 0x0, 0x0, false, none, 0x0⟩,
  -- FABPn.TICK_OS (16_plasusa_link.md, R320)
  ⟨0x90148, 0x10000, 4, 0x8, 1, true, 0x0, 0x0, 0x0, 0x0, false, none, 0x0⟩,
  -- FABPn.TICK_OS_BAD (16_plasusa_link.md, R320)
  ⟨0x90150, 0x10000, 4, 0x8, 1, true, 0x0, 0x0, 0x0, 0x0, false, none, 0x0⟩,
  -- FABPn.DEGRADES (16_plasusa_link.md, R320)
  ⟨0x90158, 0x10000, 4, 0x8, 1, false, 0x0, 0x0, 0x0, 0x0, false, none, 0x0⟩,
  -- FABPn.DOWNS (16_plasusa_link.md, R320)
  ⟨0x90160, 0x10000, 4, 0x8, 1, false, 0x0, 0x0, 0x0, 0x0, false, none, 0x0⟩,
  -- FABPn.RED_TX (13_gradient_reduction.md, R265)
  ⟨0x90200, 0x10000, 4, 0x8, 1, true, 0x0, 0x0, 0x0, 0x0, false, none, 0x0⟩,
  -- FABPn.RED_RX (13_gradient_reduction.md, R265)
  ⟨0x90208, 0x10000, 4, 0x8, 1, true, 0x0, 0x0, 0x0, 0x0, false, none, 0x0⟩,
  -- FABPn.RED_ACCEPTED (13_gradient_reduction.md, R265)
  ⟨0x90210, 0x10000, 4, 0x8, 1, true, 0x0, 0x0, 0x0, 0x0, false, none, 0x0⟩,
  -- FABPn.RED_LATE (13_gradient_reduction.md, R265)
  ⟨0x90218, 0x10000, 4, 0x8, 1, true, 0x0, 0x0, 0x0, 0x0, false, none, 0x0⟩,
  -- FABPn.RED_EARLY (13_gradient_reduction.md, R265)
  ⟨0x90220, 0x10000, 4, 0x8, 1, true, 0x0, 0x0, 0x0, 0x0, false, none, 0x0⟩,
  -- FABPn.RED_END (13_gradient_reduction.md, R265)
  ⟨0x90228, 0x10000, 4, 0x8, 1, true, 0x0, 0x0, 0x0, 0x0, false, none, 0x0⟩,
  -- RAU[Sn].ADDS (13_gradient_reduction.md, R265)
  ⟨0x100100, 0x1000, 12, 0x8, 1, true, 0x0, 0x0, 0x0, 0x0, false, none, 0x0⟩,
  -- RAU[Sn].CLOSED_PARTIAL (13_gradient_reduction.md, R265)
  ⟨0x100108, 0x1000, 12, 0x8, 1, true, 0x0, 0x0, 0x0, 0x0, false, none, 0x0⟩,
  -- RAU[Sn].CLOSED_ZERO (13_gradient_reduction.md, R265)
  ⟨0x100110, 0x1000, 12, 0x8, 1, true, 0x0, 0x0, 0x0, 0x0, false, none, 0x0⟩,
  -- RAU[Sn].NONFINITE (13_gradient_reduction.md, R265)
  ⟨0x100118, 0x1000, 12, 0x8, 1, true, 0x0, 0x0, 0x0, 0x0, false, none, 0x0⟩,
  -- RAU[Sn].LATE (13_gradient_reduction.md, R265)
  ⟨0x100120, 0x1000, 12, 0x8, 1, true, 0x0, 0x0, 0x0, 0x0, false, none, 0x0⟩,
  -- CORE[Dd.Cnn].STATUS (04_matrix_array.md, R85)
  ⟨0x1000000, 0x1000, 64, 0x8, 1, false, 0x0, 0x0, 0x0, 0x0, false, none, 0x0⟩,
  -- CORE[Dd.Cnn].STATUS (04_matrix_array.md, R85)
  ⟨0x2000000, 0x1000, 64, 0x8, 1, false, 0x0, 0x0, 0x0, 0x0, false, none, 0x0⟩,
  -- CORE[Dd.Cnn].SPARE_MAP (04_matrix_array.md, R86)
  ⟨0x1000008, 0x1000, 64, 0x8, 1, false, 0x0, 0x0, 0x0, 0x0, false, none, 0x0⟩,
  -- CORE[Dd.Cnn].SPARE_MAP (04_matrix_array.md, R86)
  ⟨0x2000008, 0x1000, 64, 0x8, 1, false, 0x0, 0x0, 0x0, 0x0, false, none, 0x0⟩,
  -- CORE[Dd.Cnn].SLICES (04_matrix_array.md, R87)
  ⟨0x1000100, 0x1000, 64, 0x8, 1, true, 0x0, 0x0, 0x0, 0x0, false, none, 0x0⟩,
  -- CORE[Dd.Cnn].SLICES (04_matrix_array.md, R87)
  ⟨0x2000100, 0x1000, 64, 0x8, 1, true, 0x0, 0x0, 0x0, 0x0, false, none, 0x0⟩,
  -- CORE[Dd.Cnn].BUBBLES (04_matrix_array.md, R87)
  ⟨0x1000108, 0x1000, 64, 0x8, 1, true, 0x0, 0x0, 0x0, 0x0, false, none, 0x0⟩,
  -- CORE[Dd.Cnn].BUBBLES (04_matrix_array.md, R87)
  ⟨0x2000108, 0x1000, 64, 0x8, 1, true, 0x0, 0x0, 0x0, 0x0, false, none, 0x0⟩,
  -- CORE[Dd.Cnn].RAMP_INS (04_matrix_array.md, R87)
  ⟨0x1000110, 0x1000, 64, 0x8, 1, false, 0x0, 0x0, 0x0, 0x0, false, none, 0x0⟩,
  -- CORE[Dd.Cnn].RAMP_INS (04_matrix_array.md, R87)
  ⟨0x2000110, 0x1000, 64, 0x8, 1, false, 0x0, 0x0, 0x0, 0x0, false, none, 0x0⟩,
  -- CORE[Dd.Cnn].TOKEN_WAIT_CYCLES (04_matrix_array.md, R87)
  ⟨0x1000118, 0x1000, 64, 0x8, 1, true, 0x0, 0x0, 0x0, 0x0, false, none, 0x0⟩,
  -- CORE[Dd.Cnn].TOKEN_WAIT_CYCLES (04_matrix_array.md, R87)
  ⟨0x2000118, 0x1000, 64, 0x8, 1, true, 0x0, 0x0, 0x0, 0x0, false, none, 0x0⟩]

/-- Part 4 of the register table. -/
def regRows4 : List RegRow := [
  -- CORE[Dd.Cnn].SET_STALLS (04_matrix_array.md, R87)
  ⟨0x1000120, 0x1000, 64, 0x8, 1, true, 0x0, 0x0, 0x0, 0x0, false, none, 0x0⟩,
  -- CORE[Dd.Cnn].SET_STALLS (04_matrix_array.md, R87)
  ⟨0x2000120, 0x1000, 64, 0x8, 1, true, 0x0, 0x0, 0x0, 0x0, false, none, 0x0⟩,
  -- CORE[Dd.Cnn].DRAIN_ROWS (06_drain_chains.md, R127)
  ⟨0x1000128, 0x1000, 64, 0x8, 1, true, 0x0, 0x0, 0x0, 0x0, false, none, 0x0⟩,
  -- CORE[Dd.Cnn].DRAIN_ROWS (06_drain_chains.md, R127)
  ⟨0x2000128, 0x1000, 64, 0x8, 1, true, 0x0, 0x0, 0x0, 0x0, false, none, 0x0⟩,
  -- CORE[Dd.Cnn].DRAIN_WAIT_CYCLES (06_drain_chains.md, R127)
  ⟨0x1000130, 0x1000, 64, 0x8, 1, true, 0x0, 0x0, 0x0, 0x0, false, none, 0x0⟩,
  -- CORE[Dd.Cnn].DRAIN_WAIT_CYCLES (06_drain_chains.md, R127)
  ⟨0x2000130, 0x1000, 64, 0x8, 1, true, 0x0, 0x0, 0x0, 0x0, false, none, 0x0⟩,
  -- CORE[Dd.Cnn].NONFINITE (06_drain_chains.md, R127)
  ⟨0x1000138, 0x1000, 64, 0x8, 1, true, 0x0, 0x0, 0x0, 0x0, false, none, 0x0⟩,
  -- CORE[Dd.Cnn].NONFINITE (06_drain_chains.md, R127)
  ⟨0x2000138, 0x1000, 64, 0x8, 1, true, 0x0, 0x0, 0x0, 0x0, false, none, 0x0⟩,
  -- CORE[Dd.Cnn].TAP_BYTES (06_drain_chains.md, R127)
  ⟨0x1000140, 0x1000, 64, 0x8, 1, true, 0x0, 0x0, 0x0, 0x0, false, none, 0x0⟩,
  -- CORE[Dd.Cnn].TAP_BYTES (06_drain_chains.md, R127)
  ⟨0x2000140, 0x1000, 64, 0x8, 1, true, 0x0, 0x0, 0x0, 0x0, false, none, 0x0⟩,
  -- CORE[Dd.Cnn].TBUF_LOADS (07_backward_pass.md, R143)
  ⟨0x1000148, 0x1000, 64, 0x8, 1, true, 0x0, 0x0, 0x0, 0x0, false, none, 0x0⟩,
  -- CORE[Dd.Cnn].TBUF_LOADS (07_backward_pass.md, R143)
  ⟨0x2000148, 0x1000, 64, 0x8, 1, true, 0x0, 0x0, 0x0, 0x0, false, none, 0x0⟩,
  -- CORE[Dd.Cnn].TBUF_BYTES (07_backward_pass.md, R143)
  ⟨0x1000150, 0x1000, 64, 0x8, 1, true, 0x0, 0x0, 0x0, 0x0, false, none, 0x0⟩,
  -- CORE[Dd.Cnn].TBUF_BYTES (07_backward_pass.md, R143)
  ⟨0x2000150, 0x1000, 64, 0x8, 1, true, 0x0, 0x0, 0x0, 0x0, false, none, 0x0⟩,
  -- CORE[Dd.Cnn].TBUF_BUSY_CYCLES (07_backward_pass.md, R143)
  ⟨0x1000158, 0x1000, 64, 0x8, 1, true, 0x0, 0x0, 0x0, 0x0, false, none, 0x0⟩,
  -- CORE[Dd.Cnn].TBUF_BUSY_CYCLES (07_backward_pass.md, R143)
  ⟨0x2000158, 0x1000, 64, 0x8, 1, true, 0x0, 0x0, 0x0, 0x0, false, none, 0x0⟩,
  -- CORE[Dd.Cnn].REBLOCK_BLOCKS (07_backward_pass.md, R143)
  ⟨0x1000160, 0x1000, 64, 0x8, 1, true, 0x0, 0x0, 0x0, 0x0, false, none, 0x0⟩,
  -- CORE[Dd.Cnn].REBLOCK_BLOCKS (07_backward_pass.md, R143)
  ⟨0x2000160, 0x1000, 64, 0x8, 1, true, 0x0, 0x0, 0x0, 0x0, false, none, 0x0⟩,
  -- CORE[Dd.Cnn].REBLOCK_SATURATED (07_backward_pass.md, R143)
  ⟨0x1000168, 0x1000, 64, 0x8, 1, true, 0x0, 0x0, 0x0, 0x0, false, none, 0x0⟩,
  -- CORE[Dd.Cnn].REBLOCK_SATURATED (07_backward_pass.md, R143)
  ⟨0x2000168, 0x1000, 64, 0x8, 1, true, 0x0, 0x0, 0x0, 0x0, false, none, 0x0⟩,
  -- CORE[Dd.Cnn].REBLOCK_RANGE (07_backward_pass.md, R143)
  ⟨0x1000170, 0x1000, 64, 0x8, 1, true, 0x0, 0x0, 0x0, 0x0, false, none, 0x0⟩,
  -- CORE[Dd.Cnn].REBLOCK_RANGE (07_backward_pass.md, R143)
  ⟨0x2000170, 0x1000, 64, 0x8, 1, true, 0x0, 0x0, 0x0, 0x0, false, none, 0x0⟩,
  -- CORE[Dd.Cnn].B_WAIT_CYCLES (07_backward_pass.md, R143)
  ⟨0x1000178, 0x1000, 64, 0x8, 1, true, 0x0, 0x0, 0x0, 0x0, false, none, 0x0⟩,
  -- CORE[Dd.Cnn].B_WAIT_CYCLES (07_backward_pass.md, R143)
  ⟨0x2000178, 0x1000, 64, 0x8, 1, true, 0x0, 0x0, 0x0, 0x0, false, none, 0x0⟩,
  -- CORE[Dd.Cnn].F_HELD_CYCLES (07_backward_pass.md, R143)
  ⟨0x1000180, 0x1000, 64, 0x8, 1, true, 0x0, 0x0, 0x0, 0x0, false, none, 0x0⟩,
  -- CORE[Dd.Cnn].F_HELD_CYCLES (07_backward_pass.md, R143)
  ⟨0x2000180, 0x1000, 64, 0x8, 1, true, 0x0, 0x0, 0x0, 0x0, false, none, 0x0⟩,
  -- CORE[Dd.Cnn].ATT_VISITED (08_attention_and_kv_cache.md, R167)
  ⟨0x1000188, 0x1000, 64, 0x8, 1, true, 0x0, 0x0, 0x0, 0x0, false, none, 0x0⟩,
  -- CORE[Dd.Cnn].ATT_VISITED (08_attention_and_kv_cache.md, R167)
  ⟨0x2000188, 0x1000, 64, 0x8, 1, true, 0x0, 0x0, 0x0, 0x0, false, none, 0x0⟩,
  -- CORE[Dd.Cnn].ATT_SKIPPED (08_attention_and_kv_cache.md, R167)
  ⟨0x1000190, 0x1000, 64, 0x8, 1, true, 0x0, 0x0, 0x0, 0x0, false, none, 0x0⟩,
  -- CORE[Dd.Cnn].ATT_SKIPPED (08_attention_and_kv_cache.md, R167)
  ⟨0x2000190, 0x1000, 64, 0x8, 1, true, 0x0, 0x0, 0x0, 0x0, false, none, 0x0⟩,
  -- CORE[Dd.Cnn].ATT_EMPTY_ROWS (08_attention_and_kv_cache.md, R167)
  ⟨0x1000198, 0x1000, 64, 0x8, 1, true, 0x0, 0x0, 0x0, 0x0, false, none, 0x0⟩,
  -- CORE[Dd.Cnn].ATT_EMPTY_ROWS (08_attention_and_kv_cache.md, R167)
  ⟨0x2000198, 0x1000, 64, 0x8, 1, true, 0x0, 0x0, 0x0, 0x0, false, none, 0x0⟩,
  -- CORE[Dd.Cnn].ATT_WIDENED_BLOCKS (08_attention_and_kv_cache.md, R167)
  ⟨0x10001a0, 0x1000, 64, 0x8, 1, true, 0x0, 0x0, 0x0, 0x0, false, none, 0x0⟩,
  -- CORE[Dd.Cnn].ATT_WIDENED_BLOCKS (08_attention_and_kv_cache.md, R167)
  ⟨0x20001a0, 0x1000, 64, 0x8, 1, true, 0x0, 0x0, 0x0, 0x0, false, none, 0x0⟩,
  -- CORE[Dd.Cnn].CONV_TAPS_SKIPPED (09_convolution_and_image_operators.md, R190)
  ⟨0x10001a8, 0x1000, 64, 0x8, 1, true, 0x0, 0x0, 0x0, 0x0, false, none, 0x0⟩,
  -- CORE[Dd.Cnn].CONV_TAPS_SKIPPED (09_convolution_and_image_operators.md, R190)
  ⟨0x20001a8, 0x1000, 64, 0x8, 1, true, 0x0, 0x0, 0x0, 0x0, false, none, 0x0⟩,
  -- CORE[Dd.Cnn].CONV_ZERO_ROWS (09_convolution_and_image_operators.md, R190)
  ⟨0x10001b0, 0x1000, 64, 0x8, 1, true, 0x0, 0x0, 0x0, 0x0, false, none, 0x0⟩,
  -- CORE[Dd.Cnn].CONV_ZERO_ROWS (09_convolution_and_image_operators.md, R190)
  ⟨0x20001b0, 0x1000, 64, 0x8, 1, true, 0x0, 0x0, 0x0, 0x0, false, none, 0x0⟩,
  -- CORE[Dd.Cnn].CLAIMS_TAKEN (25_conservation_guarantees.md, R439)
  ⟨0x10001b8, 0x1000, 64, 0x8, 1, true, 0x0, 0x0, 0x0, 0x0, false, none, 0x0⟩,
  -- CORE[Dd.Cnn].CLAIMS_TAKEN (25_conservation_guarantees.md, R439)
  ⟨0x20001b8, 0x1000, 64, 0x8, 1, true, 0x0, 0x0, 0x0, 0x0, false, none, 0x0⟩]

/-- Part 5 of the register table. -/
def regRows5 : List RegRow := [
  -- CORE[Dd].PHYS_MAP[00] to [63] (26_register_summary.md, R447)
  ⟨0x10f0000, 0x8, 64, 0x8, 1, false, 0x0, 0x0, 0x0, 0x0, false, none, 0x0⟩,
  -- CORE[Dd].PHYS_MAP[00] to [63] (26_register_summary.md, R447)
  ⟨0x20f0000, 0x8, 64, 0x8, 1, false, 0x0, 0x0, 0x0, 0x0, false, none, 0x0⟩,
  -- VEC[Dd.VEnn].INSTRUCTIONS (12_vector_engines.md, R245)
  ⟨0x1040100, 0x1000, 32, 0x8, 1, true, 0x0, 0x0, 0x0, 0x0, false, none, 0x0⟩,
  -- VEC[Dd.VEnn].INSTRUCTIONS (12_vector_engines.md, R245)
  ⟨0x2040100, 0x1000, 32, 0x8, 1, true, 0x0, 0x0, 0x0, 0x0, false, none, 0x0⟩,
  -- VEC[Dd.VEnn].BUSY_CYCLES (12_vector_engines.md, R245)
  ⟨0x1040108, 0x1000, 32, 0x8, 1, true, 0x0, 0x0, 0x0, 0x0, false, none, 0x0⟩,
  -- VEC[Dd.VEnn].BUSY_CYCLES (12_vector_engines.md, R245)
  ⟨0x2040108, 0x1000, 32, 0x8, 1, true, 0x0, 0x0, 0x0, 0x0, false, none, 0x0⟩,
  -- VEC[Dd.VEnn].MEM_BYTES (12_vector_engines.md, R245)
  ⟨0x1040110, 0x1000, 32, 0x8, 1, true, 0x0, 0x0, 0x0, 0x0, false, none, 0x0⟩,
  -- VEC[Dd.VEnn].MEM_BYTES (12_vector_engines.md, R245)
  ⟨0x2040110, 0x1000, 32, 0x8, 1, true, 0x0, 0x0, 0x0, 0x0, false, none, 0x0⟩,
  -- VEC[Dd.VEnn].RNG_WORDS (12_vector_engines.md, R245)
  ⟨0x1040118, 0x1000, 32, 0x8, 1, true, 0x0, 0x0, 0x0, 0x0, false, none, 0x0⟩,
  -- VEC[Dd.VEnn].RNG_WORDS (12_vector_engines.md, R245)
  ⟨0x2040118, 0x1000, 32, 0x8, 1, true, 0x0, 0x0, 0x0, 0x0, false, none, 0x0⟩,
  -- VEC[Dd.VEnn].FACTOR_FAILS (12_vector_engines.md, R245)
  ⟨0x1040120, 0x1000, 32, 0x8, 1, false, 0x0, 0x0, 0x0, 0x0, false, none, 0x0⟩,
  -- VEC[Dd.VEnn].FACTOR_FAILS (12_vector_engines.md, R245)
  ⟨0x2040120, 0x1000, 32, 0x8, 1, false, 0x0, 0x0, 0x0, 0x0, false, none, 0x0⟩,
  -- MOVE[Dd.TMnn].RUNS (09_convolution_and_image_operators.md, R190)
  ⟨0x1060100, 0x1000, 16, 0x8, 1, true, 0x0, 0x0, 0x0, 0x0, false, none, 0x0⟩,
  -- MOVE[Dd.TMnn].RUNS (09_convolution_and_image_operators.md, R190)
  ⟨0x2060100, 0x1000, 16, 0x8, 1, true, 0x0, 0x0, 0x0, 0x0, false, none, 0x0⟩,
  -- MOVE[Dd.TMnn].BYTES_READ (09_convolution_and_image_operators.md, R190)
  ⟨0x1060108, 0x1000, 16, 0x8, 1, true, 0x0, 0x0, 0x0, 0x0, false, none, 0x0⟩,
  -- MOVE[Dd.TMnn].BYTES_READ (09_convolution_and_image_operators.md, R190)
  ⟨0x2060108, 0x1000, 16, 0x8, 1, true, 0x0, 0x0, 0x0, 0x0, false, none, 0x0⟩,
  -- MOVE[Dd.TMnn].BYTES_WRITTEN (09_convolution_and_image_operators.md, R190)
  ⟨0x1060110, 0x1000, 16, 0x8, 1, true, 0x0, 0x0, 0x0, 0x0, false, none, 0x0⟩,
  -- MOVE[Dd.TMnn].BYTES_WRITTEN (09_convolution_and_image_operators.md, R190)
  ⟨0x2060110, 0x1000, 16, 0x8, 1, true, 0x0, 0x0, 0x0, 0x0, false, none, 0x0⟩,
  -- MOVE[Dd.TMnn].FILL_ELEMENTS (09_convolution_and_image_operators.md, R190)
  ⟨0x1060118, 0x1000, 16, 0x8, 1, true, 0x0, 0x0, 0x0, 0x0, false, none, 0x0⟩,
  -- MOVE[Dd.TMnn].FILL_ELEMENTS (09_convolution_and_image_operators.md, R190)
  ⟨0x2060118, 0x1000, 16, 0x8, 1, true, 0x0, 0x0, 0x0, 0x0, false, none, 0x0⟩,
  -- WTU[Dd.WTn].ELEMENTS (09_convolution_and_image_operators.md, R190)
  ⟨0x1070100, 0x1000, 8, 0x8, 1, true, 0x0, 0x0, 0x0, 0x0, false, none, 0x0⟩,
  -- WTU[Dd.WTn].ELEMENTS (09_convolution_and_image_operators.md, R190)
  ⟨0x2070100, 0x1000, 8, 0x8, 1, true, 0x0, 0x0, 0x0, 0x0, false, none, 0x0⟩,
  -- CODEC[Dd.CEn].ENC_RAW_BYTES (11_activation_codec.md, R231)
  ⟨0x1080100, 0x1000, 4, 0x8, 1, true, 0x0, 0x0, 0x0, 0x0, false, none, 0x0⟩,
  -- CODEC[Dd.CEn].ENC_RAW_BYTES (11_activation_codec.md, R231)
  ⟨0x2080100, 0x1000, 4, 0x8, 1, true, 0x0, 0x0, 0x0, 0x0, false, none, 0x0⟩,
  -- CODEC[Dd.CEn].ENC_STORED_BYTES (11_activation_codec.md, R231)
  ⟨0x1080108, 0x1000, 4, 0x8, 1, true, 0x0, 0x0, 0x0, 0x0, false, none, 0x0⟩,
  -- CODEC[Dd.CEn].ENC_STORED_BYTES (11_activation_codec.md, R231)
  ⟨0x2080108, 0x1000, 4, 0x8, 1, true, 0x0, 0x0, 0x0, 0x0, false, none, 0x0⟩,
  -- CODEC[Dd.CEn].DEC_STORED_BYTES (11_activation_codec.md, R231)
  ⟨0x1080110, 0x1000, 4, 0x8, 1, true, 0x0, 0x0, 0x0, 0x0, false, none, 0x0⟩,
  -- CODEC[Dd.CEn].DEC_STORED_BYTES (11_activation_codec.md, R231)
  ⟨0x2080110, 0x1000, 4, 0x8, 1, true, 0x0, 0x0, 0x0, 0x0, false, none, 0x0⟩,
  -- CODEC[Dd.CEn].DEC_RAW_BYTES (11_activation_codec.md, R231)
  ⟨0x1080118, 0x1000, 4, 0x8, 1, true, 0x0, 0x0, 0x0, 0x0, false, none, 0x0⟩,
  -- CODEC[Dd.CEn].DEC_RAW_BYTES (11_activation_codec.md, R231)
  ⟨0x2080118, 0x1000, 4, 0x8, 1, true, 0x0, 0x0, 0x0, 0x0, false, none, 0x0⟩,
  -- CODEC[Dd.CEn].ABANDONED (11_activation_codec.md, R231)
  ⟨0x1080120, 0x1000, 4, 0x8, 1, false, 0x0, 0x0, 0x0, 0x0, false, none, 0x0⟩,
  -- CODEC[Dd.CEn].ABANDONED (11_activation_codec.md, R231)
  ⟨0x2080120, 0x1000, 4, 0x8, 1, false, 0x0, 0x0, 0x0, 0x0, false, none, 0x0⟩,
  -- CODEC[Dd.CEn].REJECTED (11_activation_codec.md, R231)
  ⟨0x1080128, 0x1000, 4, 0x8, 1, false, 0x0, 0x0, 0x0, 0x0, false, none, 0x0⟩,
  -- CODEC[Dd.CEn].REJECTED (11_activation_codec.md, R231)
  ⟨0x2080128, 0x1000, 4, 0x8, 1, false, 0x0, 0x0, 0x0, 0x0, false, none, 0x0⟩,
  -- CODEC[Dd.CEn].ZERO_BLOCKS (11_activation_codec.md, R231)
  ⟨0x1080130, 0x1000, 4, 0x8, 1, true, 0x0, 0x0, 0x0, 0x0, false, none, 0x0⟩,
  -- CODEC[Dd.CEn].ZERO_BLOCKS (11_activation_codec.md, R231)
  ⟨0x2080130, 0x1000, 4, 0x8, 1, true, 0x0, 0x0, 0x0, 0x0, false, none, 0x0⟩,
  -- CODEC[Dd.CEn].NAN_BLOCKS (11_activation_codec.md, R231)
  ⟨0x1080138, 0x1000, 4, 0x8, 1, true, 0x0, 0x0, 0x0, 0x0, false, none, 0x0⟩,
  -- CODEC[Dd.CEn].NAN_BLOCKS (11_activation_codec.md, R231)
  ⟨0x2080138, 0x1000, 4, 0x8, 1, true, 0x0, 0x0, 0x0, 0x0, false, none, 0x0⟩,
  -- CODEC[Dd.CEn].BUSY_CYCLES (11_activation_codec.md, R231)
  ⟨0x1080140, 0x1000, 4, 0x8, 1, true, 0x0, 0x0, 0x0, 0x0, false, none, 0x0⟩,
  -- CODEC[Dd.CEn].BUSY_CYCLES (11_activation_codec.md, R231)
  ⟨0x2080140, 0x1000, 4, 0x8, 1, true, 0x0, 0x0, 0x0, 0x0, false, none, 0x0⟩]

/-- Part 6 of the register table. -/
def regRows6 : List RegRow := [
  -- KVA[Dd.KAn].TOKENS (08_attention_and_kv_cache.md, R167)
  ⟨0x1090100, 0x1000, 4, 0x8, 1, true, 0x0, 0x0, 0x0, 0x0, false, none, 0x0⟩,
  -- KVA[Dd.KAn].TOKENS (08_attention_and_kv_cache.md, R167)
  ⟨0x2090100, 0x1000, 4, 0x8, 1, true, 0x0, 0x0, 0x0, 0x0, false, none, 0x0⟩,
  -- KVA[Dd.KAn].EVICTED (08_attention_and_kv_cache.md, R167)
  ⟨0x1090108, 0x1000, 4, 0x8, 1, true, 0x0, 0x0, 0x0, 0x0, false, none, 0x0⟩,
  -- KVA[Dd.KAn].EVICTED (08_attention_and_kv_cache.md, R167)
  ⟨0x2090108, 0x1000, 4, 0x8, 1, true, 0x0, 0x0, 0x0, 0x0, false, none, 0x0⟩,
  -- KVA[Dd.KAn].EVICT_WAIT_CYCLES (08_attention_and_kv_cache.md, R167)
  ⟨0x1090110, 0x1000, 4, 0x8, 1, true, 0x0, 0x0, 0x0, 0x0, false, none, 0x0⟩,
  -- KVA[Dd.KAn].EVICT_WAIT_CYCLES (08_attention_and_kv_cache.md, R167)
  ⟨0x2090110, 0x1000, 4, 0x8, 1, true, 0x0, 0x0, 0x0, 0x0, false, none, 0x0⟩,
  -- KVA[Dd.KAn].LOCK_WAIT_CYCLES (08_attention_and_kv_cache.md, R167)
  ⟨0x1090118, 0x1000, 4, 0x8, 1, true, 0x0, 0x0, 0x0, 0x0, false, none, 0x0⟩,
  -- KVA[Dd.KAn].LOCK_WAIT_CYCLES (08_attention_and_kv_cache.md, R167)
  ⟨0x2090118, 0x1000, 4, 0x8, 1, true, 0x0, 0x0, 0x0, 0x0, false, none, 0x0⟩,
  -- KVA[Dd.KAn].BAD_ENTRIES (08_attention_and_kv_cache.md, R167)
  ⟨0x1090120, 0x1000, 4, 0x8, 1, false, 0x0, 0x0, 0x0, 0x0, false, none, 0x0⟩,
  -- KVA[Dd.KAn].BAD_ENTRIES (08_attention_and_kv_cache.md, R167)
  ⟨0x2090120, 0x1000, 4, 0x8, 1, false, 0x0, 0x0, 0x0, 0x0, false, none, 0x0⟩,
  -- YOYO[Dd].STATUS (10_activation_residency.md, R212)
  ⟨0x10a0000, 0x0, 1, 0x8, 1, false, 0x0, 0xf0000, 0x0, 0x0, false, none, 0x0⟩,
  -- YOYO[Dd].STATUS (10_activation_residency.md, R212)
  ⟨0x20a0000, 0x0, 1, 0x8, 1, false, 0x0, 0xf0000, 0x0, 0x0, false, none, 0x0⟩,
  -- YOYO[Dd].LEAD (10_activation_residency.md, R213)
  ⟨0x10a0008, 0x0, 1, 0x8, 1, false, 0x0, 0x0, 0xffff, 0x0, false, some 3, 0x2⟩,
  -- YOYO[Dd].LEAD (10_activation_residency.md, R213)
  ⟨0x20a0008, 0x0, 1, 0x8, 1, false, 0x0, 0x0, 0xffff, 0x0, false, some 3, 0x2⟩,
  -- YOYO[Dd].CODEC_MASK (10_activation_residency.md, R213)
  ⟨0x10a0010, 0x0, 1, 0x8, 1, false, 0x0, 0x0, 0xf, 0x0, false, some 3, 0x0⟩,
  -- YOYO[Dd].CODEC_MASK (10_activation_residency.md, R213)
  ⟨0x20a0010, 0x0, 1, 0x8, 1, false, 0x0, 0x0, 0xf, 0x0, false, some 3, 0x0⟩,
  -- YOYO[Dd].REPLAY_CORES (10_activation_residency.md, R213)
  ⟨0x10a0018, 0x0, 1, 0x8, 1, true, 0x0, 0x0, 0xffffffffffffffff, 0x0, false, some 3, 0x0⟩,
  -- YOYO[Dd].REPLAY_CORES (10_activation_residency.md, R213)
  ⟨0x20a0018, 0x0, 1, 0x8, 1, true, 0x0, 0x0, 0xffffffffffffffff, 0x0, false, some 3, 0x0⟩,
  -- YOYO[Dd].CTRL (10_activation_residency.md, R213)
  ⟨0x10a0020, 0x0, 1, 0x8, 1, false, 0x0, 0x0, 0x0, 0x1, false, none, 0x0⟩,
  -- YOYO[Dd].CTRL (10_activation_residency.md, R213)
  ⟨0x20a0020, 0x0, 1, 0x8, 1, false, 0x0, 0x0, 0x0, 0x1, false, none, 0x0⟩,
  -- YOYO[Dd].PROFILE[0] to [15] W0 (11_activation_codec.md, R230)
  ⟨0x10a0400, 0x20, 16, 0x8, 1, false, 0x0, 0x0, 0xffffff, 0x0, false, some 3, 0x0⟩,
  -- YOYO[Dd].PROFILE[0] to [15] W0 (11_activation_codec.md, R230)
  ⟨0x20a0400, 0x20, 16, 0x8, 1, false, 0x0, 0x0, 0xffffff, 0x0, false, some 3, 0x0⟩,
  -- YOYO[Dd].PROFILE[0] to [15] W1 (11_activation_codec.md, R230)
  ⟨0x10a0408, 0x20, 16, 0x8, 1, false, 0x0, 0x0, 0xffffffff, 0x0, false, some 3, 0x0⟩,
  -- YOYO[Dd].PROFILE[0] to [15] W1 (11_activation_codec.md, R230)
  ⟨0x20a0408, 0x20, 16, 0x8, 1, false, 0x0, 0x0, 0xffffffff, 0x0, false, some 3, 0x0⟩,
  -- YOYO[Dd].PROFILE[0] to [15] W2 (11_activation_codec.md, R230)
  ⟨0x10a0410, 0x20, 16, 0x8, 1, false, 0x0, 0x0, 0xffffffff, 0x0, false, some 3, 0x0⟩,
  -- YOYO[Dd].PROFILE[0] to [15] W2 (11_activation_codec.md, R230)
  ⟨0x20a0410, 0x20, 16, 0x8, 1, false, 0x0, 0x0, 0xffffffff, 0x0, false, some 3, 0x0⟩,
  -- YOYO[Dd].PROFILE[0] to [15] W3 (11_activation_codec.md, R230)
  ⟨0x10a0418, 0x20, 16, 0x8, 1, false, 0x0, 0x0, 0x0, 0x0, false, none, 0x0⟩,
  -- YOYO[Dd].PROFILE[0] to [15] W3 (11_activation_codec.md, R230)
  ⟨0x20a0418, 0x20, 16, 0x8, 1, false, 0x0, 0x0, 0x0, 0x0, false, none, 0x0⟩,
  -- YOYO[Dd].TAP_RECEIVED (10_activation_residency.md, R214)
  ⟨0x10a1000, 0x0, 1, 0x8, 1, true, 0x0, 0x0, 0x0, 0x0, false, none, 0x0⟩,
  -- YOYO[Dd].TAP_RECEIVED (10_activation_residency.md, R214)
  ⟨0x20a1000, 0x0, 1, 0x8, 1, true, 0x0, 0x0, 0x0, 0x0, false, none, 0x0⟩,
  -- YOYO[Dd].TAP_ACCEPTED (10_activation_residency.md, R214)
  ⟨0x10a1008, 0x0, 1, 0x8, 1, true, 0x0, 0x0, 0x0, 0x0, false, none, 0x0⟩,
  -- YOYO[Dd].TAP_ACCEPTED (10_activation_residency.md, R214)
  ⟨0x20a1008, 0x0, 1, 0x8, 1, true, 0x0, 0x0, 0x0, 0x0, false, none, 0x0⟩,
  -- YOYO[Dd].TAP_REJECTED (10_activation_residency.md, R214)
  ⟨0x10a1010, 0x0, 1, 0x8, 1, true, 0x0, 0x0, 0x0, 0x0, false, none, 0x0⟩,
  -- YOYO[Dd].TAP_REJECTED (10_activation_residency.md, R214)
  ⟨0x20a1010, 0x0, 1, 0x8, 1, true, 0x0, 0x0, 0x0, 0x0, false, none, 0x0⟩,
  -- YOYO[Dd].REPLAY_TAP_DISCARDED (10_activation_residency.md, R214)
  ⟨0x10a1018, 0x0, 1, 0x8, 1, true, 0x0, 0x0, 0x0, 0x0, false, none, 0x0⟩,
  -- YOYO[Dd].REPLAY_TAP_DISCARDED (10_activation_residency.md, R214)
  ⟨0x20a1018, 0x0, 1, 0x8, 1, true, 0x0, 0x0, 0x0, 0x0, false, none, 0x0⟩,
  -- YOYO[Dd].ADOPTED_BYTES (10_activation_residency.md, R214)
  ⟨0x10a1020, 0x0, 1, 0x8, 1, true, 0x0, 0x0, 0x0, 0x0, false, none, 0x0⟩,
  -- YOYO[Dd].ADOPTED_BYTES (10_activation_residency.md, R214)
  ⟨0x20a1020, 0x0, 1, 0x8, 1, true, 0x0, 0x0, 0x0, 0x0, false, none, 0x0⟩,
  -- YOYO[Dd].RAW_STORED (10_activation_residency.md, R214)
  ⟨0x10a1028, 0x0, 1, 0x8, 1, true, 0x0, 0x0, 0x0, 0x0, false, none, 0x0⟩,
  -- YOYO[Dd].RAW_STORED (10_activation_residency.md, R214)
  ⟨0x20a1028, 0x0, 1, 0x8, 1, true, 0x0, 0x0, 0x0, 0x0, false, none, 0x0⟩]

/-- Part 7 of the register table. -/
def regRows7 : List RegRow := [
  -- YOYO[Dd].STORED_FORM_BYTES (10_activation_residency.md, R214)
  ⟨0x10a1030, 0x0, 1, 0x8, 1, true, 0x0, 0x0, 0x0, 0x0, false, none, 0x0⟩,
  -- YOYO[Dd].STORED_FORM_BYTES (10_activation_residency.md, R214)
  ⟨0x20a1030, 0x0, 1, 0x8, 1, true, 0x0, 0x0, 0x0, 0x0, false, none, 0x0⟩,
  -- YOYO[Dd].RAW_RESTORED (10_activation_residency.md, R214)
  ⟨0x10a1038, 0x0, 1, 0x8, 1, true, 0x0, 0x0, 0x0, 0x0, false, none, 0x0⟩,
  -- YOYO[Dd].RAW_RESTORED (10_activation_residency.md, R214)
  ⟨0x20a1038, 0x0, 1, 0x8, 1, true, 0x0, 0x0, 0x0, 0x0, false, none, 0x0⟩,
  -- YOYO[Dd].DROPPED_BYTES (10_activation_residency.md, R214)
  ⟨0x10a1040, 0x0, 1, 0x8, 1, true, 0x0, 0x0, 0x0, 0x0, false, none, 0x0⟩,
  -- YOYO[Dd].DROPPED_BYTES (10_activation_residency.md, R214)
  ⟨0x20a1040, 0x0, 1, 0x8, 1, true, 0x0, 0x0, 0x0, 0x0, false, none, 0x0⟩,
  -- YOYO[Dd].DISCARDED_BYTES (10_activation_residency.md, R214)
  ⟨0x10a1048, 0x0, 1, 0x8, 1, true, 0x0, 0x0, 0x0, 0x0, false, none, 0x0⟩,
  -- YOYO[Dd].DISCARDED_BYTES (10_activation_residency.md, R214)
  ⟨0x20a1048, 0x0, 1, 0x8, 1, true, 0x0, 0x0, 0x0, 0x0, false, none, 0x0⟩,
  -- YOYO[Dd].UNAVAILABLE_BYTES (10_activation_residency.md, R214)
  ⟨0x10a1050, 0x0, 1, 0x8, 1, true, 0x0, 0x0, 0x0, 0x0, false, none, 0x0⟩,
  -- YOYO[Dd].UNAVAILABLE_BYTES (10_activation_residency.md, R214)
  ⟨0x20a1050, 0x0, 1, 0x8, 1, true, 0x0, 0x0, 0x0, 0x0, false, none, 0x0⟩,
  -- YOYO[Dd].STATE_BYTES[0] (10_activation_residency.md, R214)
  ⟨0x10a1058, 0x0, 1, 0x8, 1, true, 0x0, 0x0, 0x0, 0x0, false, none, 0x0⟩,
  -- YOYO[Dd].STATE_BYTES[0] (10_activation_residency.md, R214)
  ⟨0x20a1058, 0x0, 1, 0x8, 1, true, 0x0, 0x0, 0x0, 0x0, false, none, 0x0⟩,
  -- YOYO[Dd].STATE_BYTES[1] (10_activation_residency.md, R214)
  ⟨0x10a1060, 0x0, 1, 0x8, 1, true, 0x0, 0x0, 0x0, 0x0, false, none, 0x0⟩,
  -- YOYO[Dd].STATE_BYTES[1] (10_activation_residency.md, R214)
  ⟨0x20a1060, 0x0, 1, 0x8, 1, true, 0x0, 0x0, 0x0, 0x0, false, none, 0x0⟩,
  -- YOYO[Dd].STATE_BYTES[2] (10_activation_residency.md, R214)
  ⟨0x10a1068, 0x0, 1, 0x8, 1, true, 0x0, 0x0, 0x0, 0x0, false, none, 0x0⟩,
  -- YOYO[Dd].STATE_BYTES[2] (10_activation_residency.md, R214)
  ⟨0x20a1068, 0x0, 1, 0x8, 1, true, 0x0, 0x0, 0x0, 0x0, false, none, 0x0⟩,
  -- YOYO[Dd].STATE_BYTES[3] (10_activation_residency.md, R214)
  ⟨0x10a1070, 0x0, 1, 0x8, 1, true, 0x0, 0x0, 0x0, 0x0, false, none, 0x0⟩,
  -- YOYO[Dd].STATE_BYTES[3] (10_activation_residency.md, R214)
  ⟨0x20a1070, 0x0, 1, 0x8, 1, true, 0x0, 0x0, 0x0, 0x0, false, none, 0x0⟩,
  -- YOYO[Dd].STATE_BYTES[4] (10_activation_residency.md, R214)
  ⟨0x10a1078, 0x0, 1, 0x8, 1, true, 0x0, 0x0, 0x0, 0x0, false, none, 0x0⟩,
  -- YOYO[Dd].STATE_BYTES[4] (10_activation_residency.md, R214)
  ⟨0x20a1078, 0x0, 1, 0x8, 1, true, 0x0, 0x0, 0x0, 0x0, false, none, 0x0⟩,
  -- YOYO[Dd].STATE_BYTES[5] (10_activation_residency.md, R214)
  ⟨0x10a1080, 0x0, 1, 0x8, 1, true, 0x0, 0x0, 0x0, 0x0, false, none, 0x0⟩,
  -- YOYO[Dd].STATE_BYTES[5] (10_activation_residency.md, R214)
  ⟨0x20a1080, 0x0, 1, 0x8, 1, true, 0x0, 0x0, 0x0, 0x0, false, none, 0x0⟩,
  -- YOYO[Dd].STATE_BYTES[6] (10_activation_residency.md, R214)
  ⟨0x10a1088, 0x0, 1, 0x8, 1, true, 0x0, 0x0, 0x0, 0x0, false, none, 0x0⟩,
  -- YOYO[Dd].STATE_BYTES[6] (10_activation_residency.md, R214)
  ⟨0x20a1088, 0x0, 1, 0x8, 1, true, 0x0, 0x0, 0x0, 0x0, false, none, 0x0⟩,
  -- YOYO[Dd].STATE_BYTES[7] (10_activation_residency.md, R214)
  ⟨0x10a1090, 0x0, 1, 0x8, 1, true, 0x0, 0x0, 0x0, 0x0, false, none, 0x0⟩,
  -- YOYO[Dd].STATE_BYTES[7] (10_activation_residency.md, R214)
  ⟨0x20a1090, 0x0, 1, 0x8, 1, true, 0x0, 0x0, 0x0, 0x0, false, none, 0x0⟩,
  -- YOYO[Dd].BOUND_BYTES (10_activation_residency.md, R214)
  ⟨0x10a1098, 0x0, 1, 0x8, 1, true, 0x0, 0x0, 0x0, 0x0, false, none, 0x0⟩,
  -- YOYO[Dd].BOUND_BYTES (10_activation_residency.md, R214)
  ⟨0x20a1098, 0x0, 1, 0x8, 1, true, 0x0, 0x0, 0x0, 0x0, false, none, 0x0⟩,
  -- YOYO[Dd].DEMAND_RESTORES (10_activation_residency.md, R214)
  ⟨0x10a10a0, 0x0, 1, 0x8, 1, true, 0x0, 0x0, 0x0, 0x0, false, none, 0x0⟩,
  -- YOYO[Dd].DEMAND_RESTORES (10_activation_residency.md, R214)
  ⟨0x20a10a0, 0x0, 1, 0x8, 1, true, 0x0, 0x0, 0x0, 0x0, false, none, 0x0⟩,
  -- YOYO[Dd].LATE_FILLS (10_activation_residency.md, R214)
  ⟨0x10a10a8, 0x0, 1, 0x8, 1, true, 0x0, 0x0, 0x0, 0x0, false, none, 0x0⟩,
  -- YOYO[Dd].LATE_FILLS (10_activation_residency.md, R214)
  ⟨0x20a10a8, 0x0, 1, 0x8, 1, true, 0x0, 0x0, 0x0, 0x0, false, none, 0x0⟩,
  -- YOYO[Dd].CANCELLED_STORES (10_activation_residency.md, R214)
  ⟨0x10a10b0, 0x0, 1, 0x8, 1, true, 0x0, 0x0, 0x0, 0x0, false, none, 0x0⟩,
  -- YOYO[Dd].CANCELLED_STORES (10_activation_residency.md, R214)
  ⟨0x20a10b0, 0x0, 1, 0x8, 1, true, 0x0, 0x0, 0x0, 0x0, false, none, 0x0⟩,
  -- YOYO[Dd].REPLAYS (10_activation_residency.md, R214)
  ⟨0x10a10b8, 0x0, 1, 0x8, 1, true, 0x0, 0x0, 0x0, 0x0, false, none, 0x0⟩,
  -- YOYO[Dd].REPLAYS (10_activation_residency.md, R214)
  ⟨0x20a10b8, 0x0, 1, 0x8, 1, true, 0x0, 0x0, 0x0, 0x0, false, none, 0x0⟩,
  -- YOYO[Dd].REPLAY_FAILURES (10_activation_residency.md, R214)
  ⟨0x10a10c0, 0x0, 1, 0x8, 1, true, 0x0, 0x0, 0x0, 0x0, false, none, 0x0⟩,
  -- YOYO[Dd].REPLAY_FAILURES (10_activation_residency.md, R214)
  ⟨0x20a10c0, 0x0, 1, 0x8, 1, true, 0x0, 0x0, 0x0, 0x0, false, none, 0x0⟩,
  -- YOYO[Dd].CONSUMER_WAIT_CYCLES (10_activation_residency.md, R214)
  ⟨0x10a10c8, 0x0, 1, 0x8, 1, true, 0x0, 0x0, 0x0, 0x0, false, none, 0x0⟩,
  -- YOYO[Dd].CONSUMER_WAIT_CYCLES (10_activation_residency.md, R214)
  ⟨0x20a10c8, 0x0, 1, 0x8, 1, true, 0x0, 0x0, 0x0, 0x0, false, none, 0x0⟩]

/-- Part 8 of the register table. -/
def regRows8 : List RegRow := [
  -- YOYO[Dd].IGNORED_DIRECTIVES (10_activation_residency.md, R214)
  ⟨0x10a10d0, 0x0, 1, 0x8, 1, true, 0x0, 0x0, 0x0, 0x0, false, none, 0x0⟩,
  -- YOYO[Dd].IGNORED_DIRECTIVES (10_activation_residency.md, R214)
  ⟨0x20a10d0, 0x0, 1, 0x8, 1, true, 0x0, 0x0, 0x0, 0x0, false, none, 0x0⟩,
  -- YOYO[Dd] snapshot copies of R214, slot for slot (26_register_summary.md, R447)
  ⟨0x10a2000, 0x0, 1, 0x8, 27, true, 0x0, 0x0, 0x0, 0x0, false, none, 0x0⟩,
  -- YOYO[Dd] snapshot copies of R214, slot for slot (26_register_summary.md, R447)
  ⟨0x20a2000, 0x0, 1, 0x8, 27, true, 0x0, 0x0, 0x0, 0x0, false, none, 0x0⟩]

/-- The whole register table. -/
def regRows : List RegRow :=
  regRows0 ++ regRows1 ++ regRows2 ++ regRows3 ++ regRows4 ++ regRows5 ++ regRows6 ++ regRows7 ++ regRows8

/-- Whether a row holds a register at this slot offset. -/
def RegRow.has (r : RegRow) (off : Nat) : Bool :=
  if off < r.base then false
  else
    let d := off - r.base
    let i := if r.icount = 1 then 0 else d / r.istride
    let e := d - i * r.istride
    decide (i < r.icount) && e % r.stride == 0 && decide (e / r.stride < r.count)

/-- The register at a slot offset, if one is listed there (R440). -/
def findReg (off : Nat) : Option RegRow := regRows.find? (fun r => r.has off)

/-- The SH register whose active copy stands at this offset (R441). -/
def findActive (off : Nat) : Option RegRow :=
  if off < 0x8000 then none
  else match findReg (off - 0x8000) with
    | some r => if r.sh = 0 then none else some r
    | none => none

/-- The physical-position map lies here on die `d` (R443). -/
def rPhysMap (d c : Nat) : Nat := 0x1000000 * (d + 1) + 0xF0000 + 8 * c

/-- The reset value of a register slot; a physical position is its logical number (log 8). -/
def regReset (off : Nat) : BitVec 64 :=
  match findReg off with
  | some r =>
    if 0x10F0000 ≤ off ∧ off < 0x10F0200 then BitVec.ofNat 64 ((off - 0x10F0000) / 8)
    else if 0x20F0000 ≤ off ∧ off < 0x20F0200 then BitVec.ofNat 64 ((off - 0x20F0000) / 8)
    else BitVec.ofNat 64 r.reset
  | none => match findActive off with
    | some r => BitVec.ofNat 64 r.reset
    | none => 0#64

/-- Largest value of a counter register (R459). -/
def regTop (off : Nat) : Nat :=
  match findReg off with
  | some r => if r.wide then 2 ^ 64 - 1 else 2 ^ 32 - 1
  | none => 2 ^ 64 - 1

/-! Offsets, by the names of the registers: `d` is the die, `i` the instance, `k` the index. -/

def rHubIdent : Nat := 0x0
def rHubReady : Nat := 0x8
def rHubResetCause : Nat := 0x10
def rHubReset : Nat := 0x18
def rHubResetEngine : Nat := 0x20
def rHubResetStatus : Nat := 0x28
def rHubFabricId : Nat := 0x40
def rHubVerdictCtrl : Nat := 0x48
def rHubVerdictScale : Nat := 0x50
def rHubGlobalClip : Nat := 0x58
def rHubUpdStatus : Nat := 0x60
def rHubUpdT : Nat := 0x68
def rHubCfgStatus : Nat := 0x70
def rHubCfgTick (k : Nat) : Nat := 0x80 + 0x8 * k
def rHubMcastMap (k : Nat) : Nat := 0x100 + 0x8 * k
def rHubCtrUPDAPPLIED : Nat := 0x400
def rHubCtrUPDSKIPPED : Nat := 0x408
def rHubCtrUPDCAUGHTUP : Nat := 0x410
def rHubCtrUPDMISSED : Nat := 0x418
def rHubCtrUPDMISMATCH : Nat := 0x420
def rHubCtrUPDSTALESCHEDULE : Nat := 0x428
def rHubCtrUPDEXCLUDEDSEGMENTS : Nat := 0x430
def rHubCtrPRECONDRETRIES : Nat := 0x438
def rHubCtrPRECONDFALLBACK : Nat := 0x440
def rHubRedLocalRX : Nat := 0x448
def rHubRedLocalACCEPTED : Nat := 0x450
def rHubRedLocalLATE : Nat := 0x458
def rTickStatus : Nat := 0x10000
def rTickNow : Nat := 0x10008
def rTickSkipped : Nat := 0x10010
def rClkStatus : Nat := 0x20000
def rClkSrc : Nat := 0x20008
def rClkRtc : Nat := 0x20010
def rClkLosses : Nat := 0x20018
def rPwrStatus : Nat := 0x30000
def rPwrCap : Nat := 0x30008
def rPwrRange : Nat := 0x30010
def rPwrRampCfg : Nat := 0x30018
def rPwrRampTokens : Nat := 0x30020
def rPwrBudget : Nat := 0x30028
def rPwrInput : Nat := 0x30030
def rPwrInputPower : Nat := 0x30038
def rPwrCoolant : Nat := 0x30040
def rPwrRailOff : Nat := 0x30048
def rPwrLastHalt : Nat := 0x30050
def rPwrCtrSAGS : Nat := 0x30100
def rPwrCtrWITHDRAWALS : Nat := 0x30108
def rPwrCtrRETURNS : Nat := 0x30110
def rPwrCtrTHROTTLECYCLES : Nat := 0x30118
def rPwrCtrENERGY : Nat := 0x30120
def rSecStatus : Nat := 0x40000
def rSecPresenceLeft : Nat := 0x40008
def rSecSvn : Nat := 0x40010
def rSecMakerNonce : Nat := 0x40018
def rSecAuditNext : Nat := 0x40020
def rSecAuditOldest : Nat := 0x40028
def rSecIdentityPub (k : Nat) : Nat := 0x40040 + 0x8 * k
def rSecCtrROLEDENIED : Nat := 0x40100
def rSecCtrPRESENCEDENIED : Nat := 0x40108
def rSecCtrSIGFAILS : Nat := 0x40110
def rSecCtrREGWRITESIGNORED : Nat := 0x40118
def rSecCtrPRESENCECOALESCED : Nat := 0x40120
def rCmdCtrl : Nat := 0x50000
def rCmdLockWaitUs : Nat := 0x50008
def rCmdCFG (i : Nat) : Nat := 0x50100 + 0x100 * i
def rCmdBASE (i : Nat) : Nat := 0x50108 + 0x100 * i
def rCmdHEADADDR (i : Nat) : Nat := 0x50110 + 0x100 * i
def rCmdSTATUSBASE (i : Nat) : Nat := 0x50118 + 0x100 * i
def rCmdHEAD (i : Nat) : Nat := 0x50120 + 0x100 * i
def rCmdTAIL (i : Nat) : Nat := 0x50128 + 0x100 * i
def rCmdSTATUS (i : Nat) : Nat := 0x50130 + 0x100 * i
def rCmdLAST (i : Nat) : Nat := 0x50138 + 0x100 * i
def rCmdDONE (i : Nat) : Nat := 0x50140 + 0x100 * i
def rCmdWARN (i : Nat) : Nat := 0x50148 + 0x100 * i
def rCmdERRORS (i : Nat) : Nat := 0x50150 + 0x100 * i
def rTelStatus : Nat := 0x60000
def rTelRingBase : Nat := 0x60008
def rTelRingBytes : Nat := 0x60010
def rTelWriteIndex : Nat := 0x60018
def rTelReadIndex : Nat := 0x60020
def rTelSrcSel : Nat := 0x60028
def rTelWinTRACEEMITTED : Nat := 0x60100
def rTelWinTRACEWRITTEN : Nat := 0x60108
def rTelWinTRACEDROPPED : Nat := 0x60110
def rTelWinLOGEMITTED : Nat := 0x60118
def rTelWinLOGWRITTEN : Nat := 0x60120
def rTelWinLOGSUMMARISED : Nat := 0x60128
def rTelWinLOGDROPPED : Nat := 0x60130
def rTelWinALARMCODES : Nat := 0x60138
def rTelWinALARMCOUNT : Nat := 0x60140
def rTelWinALARMFIRST : Nat := 0x60148
def rTelWinALARMLAST : Nat := 0x60150
def rTelWinALARMRECORDSDROPPED : Nat := 0x60158
def rTelCtrSHWRITESIGNORED : Nat := 0x60200
def rTelCtrCFGDEFERRED : Nat := 0x60208
def rTelCtrEPISODES : Nat := 0x60210
def rTelCtrMEMCORRECTED : Nat := 0x60218
def rTelCtrMEMUNCORRECTABLE : Nat := 0x60220
def rPcieStatus : Nat := 0x70000
def rPcieBar2Base : Nat := 0x70008
def rPciePoolShare : Nat := 0x70010
def rPcieCtrBAR2OUTSIDE : Nat := 0x70100
def rPcieCtrFETCHRETRIES : Nat := 0x70108
def rPcieCtrPOOLREADERRORS : Nat := 0x70110
def rPcieCtrRXBYTES : Nat := 0x70118
def rPcieCtrTXBYTES : Nat := 0x70120
def rSnapStatus : Nat := 0x80000
def rSnapCtrGENCOMMITTED : Nat := 0x80100
def rSnapCtrDEFERRED : Nat := 0x80108
def rSnapCtrHELDWRITECYCLES : Nat := 0x80110
def rSnapCtrFLASHBYTES : Nat := 0x80118
def rSnapCtrEXPORTBYTES : Nat := 0x80120
def rSnapCtrERASEMAX : Nat := 0x80128
def rSnapCtrBLOCKSRETIRED : Nat := 0x80130
def rSnapCtrSPARESLEFT : Nat := 0x80138
def rSnapCtrLIFEUSED : Nat := 0x80140
def rSnapCtrMIRRORRX : Nat := 0x80148
def rSnapCtrMIRRORACCEPTED : Nat := 0x80150
def rSnapCtrMIRRORLATE : Nat := 0x80158
def rSnapCtrLANDINGS : Nat := 0x80160
def rSnapCtrPROMOTIONS : Nat := 0x80168
def rFabStatus (i : Nat) : Nat := 0x90000 + 0x10000 * i
def rFabCtrl (i : Nat) : Nat := 0x90008 + 0x10000 * i
def rFabCredit (i k : Nat) : Nat := 0x90010 + 0x10000 * i + 0x8 * k
def rFabCtrTXPACKETS (i : Nat) : Nat := 0x90100 + 0x10000 * i
def rFabCtrRXPACKETS (i : Nat) : Nat := 0x90108 + 0x10000 * i
def rFabCtrLINKRETRIES (i : Nat) : Nat := 0x90110 + 0x10000 * i
def rFabCtrFECCORRECTED (i : Nat) : Nat := 0x90118 + 0x10000 * i
def rFabCtrFECUNCORRECTABLE (i : Nat) : Nat := 0x90120 + 0x10000 * i
def rFabCtrCRCDROPS (i : Nat) : Nat := 0x90128 + 0x10000 * i
def rFabCtrMISROUTED (i : Nat) : Nat := 0x90130 + 0x10000 * i
def rFabCtrTXDISCARDED (i : Nat) : Nat := 0x90138 + 0x10000 * i
def rFabCtrCREDITWAITCYCLES (i : Nat) : Nat := 0x90140 + 0x10000 * i
def rFabCtrTICKOS (i : Nat) : Nat := 0x90148 + 0x10000 * i
def rFabCtrTICKOSBAD (i : Nat) : Nat := 0x90150 + 0x10000 * i
def rFabCtrDEGRADES (i : Nat) : Nat := 0x90158 + 0x10000 * i
def rFabCtrDOWNS (i : Nat) : Nat := 0x90160 + 0x10000 * i
def rFabCtrREDTX (i : Nat) : Nat := 0x90200 + 0x10000 * i
def rFabCtrREDRX (i : Nat) : Nat := 0x90208 + 0x10000 * i
def rFabCtrREDACCEPTED (i : Nat) : Nat := 0x90210 + 0x10000 * i
def rFabCtrREDLATE (i : Nat) : Nat := 0x90218 + 0x10000 * i
def rFabCtrREDEARLY (i : Nat) : Nat := 0x90220 + 0x10000 * i
def rFabCtrREDEND (i : Nat) : Nat := 0x90228 + 0x10000 * i
def rRauCtrADDS (i : Nat) : Nat := 0x100100 + 0x1000 * i
def rRauCtrCLOSEDPARTIAL (i : Nat) : Nat := 0x100108 + 0x1000 * i
def rRauCtrCLOSEDZERO (i : Nat) : Nat := 0x100110 + 0x1000 * i
def rRauCtrNONFINITE (i : Nat) : Nat := 0x100118 + 0x1000 * i
def rRauCtrLATE (i : Nat) : Nat := 0x100120 + 0x1000 * i
def rCoreStatus (d i : Nat) : Nat := 0x1000000 * (d + 1) + 0x0 + 0x1000 * i
def rCoreSpareMap (d i : Nat) : Nat := 0x1000000 * (d + 1) + 0x8 + 0x1000 * i
def rCoreCtrSLICES (d i : Nat) : Nat := 0x1000000 * (d + 1) + 0x100 + 0x1000 * i
def rCoreCtrBUBBLES (d i : Nat) : Nat := 0x1000000 * (d + 1) + 0x108 + 0x1000 * i
def rCoreCtrRAMPINS (d i : Nat) : Nat := 0x1000000 * (d + 1) + 0x110 + 0x1000 * i
def rCoreCtrTOKENWAITCYCLES (d i : Nat) : Nat := 0x1000000 * (d + 1) + 0x118 + 0x1000 * i
def rCoreCtrSETSTALLS (d i : Nat) : Nat := 0x1000000 * (d + 1) + 0x120 + 0x1000 * i
def rCoreCtrDRAINROWS (d i : Nat) : Nat := 0x1000000 * (d + 1) + 0x128 + 0x1000 * i
def rCoreCtrDRAINWAITCYCLES (d i : Nat) : Nat := 0x1000000 * (d + 1) + 0x130 + 0x1000 * i
def rCoreCtrNONFINITE (d i : Nat) : Nat := 0x1000000 * (d + 1) + 0x138 + 0x1000 * i
def rCoreCtrTAPBYTES (d i : Nat) : Nat := 0x1000000 * (d + 1) + 0x140 + 0x1000 * i
def rCoreCtrTBUFLOADS (d i : Nat) : Nat := 0x1000000 * (d + 1) + 0x148 + 0x1000 * i
def rCoreCtrTBUFBYTES (d i : Nat) : Nat := 0x1000000 * (d + 1) + 0x150 + 0x1000 * i
def rCoreCtrTBUFBUSYCYCLES (d i : Nat) : Nat := 0x1000000 * (d + 1) + 0x158 + 0x1000 * i
def rCoreCtrREBLOCKBLOCKS (d i : Nat) : Nat := 0x1000000 * (d + 1) + 0x160 + 0x1000 * i
def rCoreCtrREBLOCKSATURATED (d i : Nat) : Nat := 0x1000000 * (d + 1) + 0x168 + 0x1000 * i
def rCoreCtrREBLOCKRANGE (d i : Nat) : Nat := 0x1000000 * (d + 1) + 0x170 + 0x1000 * i
def rCoreCtrBWAITCYCLES (d i : Nat) : Nat := 0x1000000 * (d + 1) + 0x178 + 0x1000 * i
def rCoreCtrFHELDCYCLES (d i : Nat) : Nat := 0x1000000 * (d + 1) + 0x180 + 0x1000 * i
def rCoreCtrATTVISITED (d i : Nat) : Nat := 0x1000000 * (d + 1) + 0x188 + 0x1000 * i
def rCoreCtrATTSKIPPED (d i : Nat) : Nat := 0x1000000 * (d + 1) + 0x190 + 0x1000 * i
def rCoreCtrATTEMPTYROWS (d i : Nat) : Nat := 0x1000000 * (d + 1) + 0x198 + 0x1000 * i
def rCoreCtrATTWIDENEDBLOCKS (d i : Nat) : Nat := 0x1000000 * (d + 1) + 0x1a0 + 0x1000 * i
def rCoreCtrCONVTAPSSKIPPED (d i : Nat) : Nat := 0x1000000 * (d + 1) + 0x1a8 + 0x1000 * i
def rCoreCtrCONVZEROROWS (d i : Nat) : Nat := 0x1000000 * (d + 1) + 0x1b0 + 0x1000 * i
def rCoreCtrCLAIMSTAKEN (d i : Nat) : Nat := 0x1000000 * (d + 1) + 0x1b8 + 0x1000 * i
def rVecCtrINSTRUCTIONS (d i : Nat) : Nat := 0x1000000 * (d + 1) + 0x40100 + 0x1000 * i
def rVecCtrBUSYCYCLES (d i : Nat) : Nat := 0x1000000 * (d + 1) + 0x40108 + 0x1000 * i
def rVecCtrMEMBYTES (d i : Nat) : Nat := 0x1000000 * (d + 1) + 0x40110 + 0x1000 * i
def rVecCtrRNGWORDS (d i : Nat) : Nat := 0x1000000 * (d + 1) + 0x40118 + 0x1000 * i
def rVecCtrFACTORFAILS (d i : Nat) : Nat := 0x1000000 * (d + 1) + 0x40120 + 0x1000 * i
def rMoveCtrRUNS (d i : Nat) : Nat := 0x1000000 * (d + 1) + 0x60100 + 0x1000 * i
def rMoveCtrBYTESREAD (d i : Nat) : Nat := 0x1000000 * (d + 1) + 0x60108 + 0x1000 * i
def rMoveCtrBYTESWRITTEN (d i : Nat) : Nat := 0x1000000 * (d + 1) + 0x60110 + 0x1000 * i
def rMoveCtrFILLELEMENTS (d i : Nat) : Nat := 0x1000000 * (d + 1) + 0x60118 + 0x1000 * i
def rWtuCtrELEMENTS (d i : Nat) : Nat := 0x1000000 * (d + 1) + 0x70100 + 0x1000 * i
def rCodecCtrENCRAWBYTES (d i : Nat) : Nat := 0x1000000 * (d + 1) + 0x80100 + 0x1000 * i
def rCodecCtrENCSTOREDBYTES (d i : Nat) : Nat := 0x1000000 * (d + 1) + 0x80108 + 0x1000 * i
def rCodecCtrDECSTOREDBYTES (d i : Nat) : Nat := 0x1000000 * (d + 1) + 0x80110 + 0x1000 * i
def rCodecCtrDECRAWBYTES (d i : Nat) : Nat := 0x1000000 * (d + 1) + 0x80118 + 0x1000 * i
def rCodecCtrABANDONED (d i : Nat) : Nat := 0x1000000 * (d + 1) + 0x80120 + 0x1000 * i
def rCodecCtrREJECTED (d i : Nat) : Nat := 0x1000000 * (d + 1) + 0x80128 + 0x1000 * i
def rCodecCtrZEROBLOCKS (d i : Nat) : Nat := 0x1000000 * (d + 1) + 0x80130 + 0x1000 * i
def rCodecCtrNANBLOCKS (d i : Nat) : Nat := 0x1000000 * (d + 1) + 0x80138 + 0x1000 * i
def rCodecCtrBUSYCYCLES (d i : Nat) : Nat := 0x1000000 * (d + 1) + 0x80140 + 0x1000 * i
def rKvaCtrTOKENS (d i : Nat) : Nat := 0x1000000 * (d + 1) + 0x90100 + 0x1000 * i
def rKvaCtrEVICTED (d i : Nat) : Nat := 0x1000000 * (d + 1) + 0x90108 + 0x1000 * i
def rKvaCtrEVICTWAITCYCLES (d i : Nat) : Nat := 0x1000000 * (d + 1) + 0x90110 + 0x1000 * i
def rKvaCtrLOCKWAITCYCLES (d i : Nat) : Nat := 0x1000000 * (d + 1) + 0x90118 + 0x1000 * i
def rKvaCtrBADENTRIES (d i : Nat) : Nat := 0x1000000 * (d + 1) + 0x90120 + 0x1000 * i
def rYoyoStatus (d : Nat) : Nat := 0x1000000 * (d + 1) + 0xa0000
def rYoyoLead (d : Nat) : Nat := 0x1000000 * (d + 1) + 0xa0008
def rYoyoCodecMask (d : Nat) : Nat := 0x1000000 * (d + 1) + 0xa0010
def rYoyoReplayCores (d : Nat) : Nat := 0x1000000 * (d + 1) + 0xa0018
def rYoyoCtrl (d : Nat) : Nat := 0x1000000 * (d + 1) + 0xa0020
def rYoyoProfileW0 (d i : Nat) : Nat := 0x1000000 * (d + 1) + 0xa0400 + 0x20 * i
def rYoyoProfileW1 (d i : Nat) : Nat := 0x1000000 * (d + 1) + 0xa0408 + 0x20 * i
def rYoyoProfileW2 (d i : Nat) : Nat := 0x1000000 * (d + 1) + 0xa0410 + 0x20 * i
def rYoyoProfileW3 (d i : Nat) : Nat := 0x1000000 * (d + 1) + 0xa0418 + 0x20 * i
def rYoyoCtrTAPRECEIVED (d : Nat) : Nat := 0x1000000 * (d + 1) + 0xa1000
def rYoyoCtrTAPACCEPTED (d : Nat) : Nat := 0x1000000 * (d + 1) + 0xa1008
def rYoyoCtrTAPREJECTED (d : Nat) : Nat := 0x1000000 * (d + 1) + 0xa1010
def rYoyoCtrREPLAYTAPDISCARDED (d : Nat) : Nat := 0x1000000 * (d + 1) + 0xa1018
def rYoyoCtrADOPTEDBYTES (d : Nat) : Nat := 0x1000000 * (d + 1) + 0xa1020
def rYoyoCtrRAWSTORED (d : Nat) : Nat := 0x1000000 * (d + 1) + 0xa1028
def rYoyoCtrSTOREDFORMBYTES (d : Nat) : Nat := 0x1000000 * (d + 1) + 0xa1030
def rYoyoCtrRAWRESTORED (d : Nat) : Nat := 0x1000000 * (d + 1) + 0xa1038
def rYoyoCtrDROPPEDBYTES (d : Nat) : Nat := 0x1000000 * (d + 1) + 0xa1040
def rYoyoCtrDISCARDEDBYTES (d : Nat) : Nat := 0x1000000 * (d + 1) + 0xa1048
def rYoyoCtrUNAVAILABLEBYTES (d : Nat) : Nat := 0x1000000 * (d + 1) + 0xa1050
def rYoyoCtrSTATEBYTES0 (d : Nat) : Nat := 0x1000000 * (d + 1) + 0xa1058
def rYoyoCtrSTATEBYTES1 (d : Nat) : Nat := 0x1000000 * (d + 1) + 0xa1060
def rYoyoCtrSTATEBYTES2 (d : Nat) : Nat := 0x1000000 * (d + 1) + 0xa1068
def rYoyoCtrSTATEBYTES3 (d : Nat) : Nat := 0x1000000 * (d + 1) + 0xa1070
def rYoyoCtrSTATEBYTES4 (d : Nat) : Nat := 0x1000000 * (d + 1) + 0xa1078
def rYoyoCtrSTATEBYTES5 (d : Nat) : Nat := 0x1000000 * (d + 1) + 0xa1080
def rYoyoCtrSTATEBYTES6 (d : Nat) : Nat := 0x1000000 * (d + 1) + 0xa1088
def rYoyoCtrSTATEBYTES7 (d : Nat) : Nat := 0x1000000 * (d + 1) + 0xa1090
def rYoyoCtrBOUNDBYTES (d : Nat) : Nat := 0x1000000 * (d + 1) + 0xa1098
def rYoyoCtrDEMANDRESTORES (d : Nat) : Nat := 0x1000000 * (d + 1) + 0xa10a0
def rYoyoCtrLATEFILLS (d : Nat) : Nat := 0x1000000 * (d + 1) + 0xa10a8
def rYoyoCtrCANCELLEDSTORES (d : Nat) : Nat := 0x1000000 * (d + 1) + 0xa10b0
def rYoyoCtrREPLAYS (d : Nat) : Nat := 0x1000000 * (d + 1) + 0xa10b8
def rYoyoCtrREPLAYFAILURES (d : Nat) : Nat := 0x1000000 * (d + 1) + 0xa10c0
def rYoyoCtrCONSUMERWAITCYCLES (d : Nat) : Nat := 0x1000000 * (d + 1) + 0xa10c8
def rYoyoCtrIGNOREDDIRECTIVES (d : Nat) : Nat := 0x1000000 * (d + 1) + 0xa10d0
def rYoyoSnap (d k : Nat) : Nat := 0x1000000 * (d + 1) + 0xa2000 + 0x8 * k

end Sys2Proof.Machine
end

