-- ==== Sys2Proof/Machine/State.lean ====
section
/-!
DEFINITION. Machine/State.lean: everything the spec gives the module to hold, as plain data, and the module right after
reset. Registers live in one table by BAR0 offset (spec/26); what their fields are views of lives in the structures
below (`Machine/Regs.lean` computes the views). Fields marked as the model's own are listed so in INVENTORY.md.
-/

namespace Sys2Proof.Machine

/-! ## Plans, packets and engines (spec/02) -/

/-- The job table as the hub holds it (R249, R286). -/
structure JobTable where
  bytes : List Byte := []
  lists : List (List Nat) := []
  deriving DecidableEq, Repr

/-- A plan binding: the image, the ticks and generator base it was bound with, and the job table copied with it (R39, R240,
R249, R343, R359). -/
structure Bind where
  addr : Nat := 0
  planId : Nat := 0
  first : Nat := 0
  period : Nat := 1
  rngBase : Nat := 0
  ramp : Nat := 0
  job : JobTable := {}
  deriving DecidableEq, Repr

/-- A binding an engine still has packets of: `upto` is the boundary at which the next binding took over, if any. -/
structure BindUse where
  bind : Bind
  upto : Option Nat := none
  deriving DecidableEq, Repr

/-- Where a matrix sequence, attention or convolution packet stands in its items, chunks and instructions
(R91 to R97, R103, R104). `pc` is the place in this chunk's order, each repeat iteration's apart, of the next instruction
that is no LOAD; `lpos` that of the next LOAD, counted over all chunks of the item (R98). -/
structure Cursor where
  items : Nat := 0
  item : Option Nat := none
  next : Nat := 0
  claimed : Option Nat := none
  needClaim : Bool := false
  claimsEnded : Bool := false
  chunk : Nat := 0
  pc : Nat := 0
  lpos : Nat := 0
  entryOf : Option Nat := none
  entry : List Byte := []
  deriving DecidableEq, Repr

/-- One frame of a vector program's loop nest (R234). -/
structure LoopFrame where
  start : Nat
  stop : Nat
  left : Nat
  done : Nat
  deriving DecidableEq, Repr

/-- A place in a packet, as a record names it (R109, R420). -/
structure Place where
  item : Nat := 0
  instr : Nat := 0
  gi : Nat := 0
  gj : Nat := 0
  chunk : Nat := 0
  deriving DecidableEq, Repr

/-- One step of the update list (R269). -/
structure UpdStep where
  step : Nat
  catchUp : Bool
  tUse : Nat
  scale : BitVec 32
  clip : List (BitVec 32)
  deriving DecidableEq, Repr

/-- What fixes the destinations and ports of a sending packet when it starts (R248, R292, R314, R316): the ports enabled
and UP, those of them whose switch offers multicast, the pairs of list and group, and the owner map. -/
structure Route where
  up : List Nat := []
  multi : List Nat := []
  groups : List (Nat × Nat) := []
  owners : List (Nat × Nat) := []
  deriving DecidableEq, Repr

/-- A work packet in hand on an engine (R36, R46), with what its completion record will carry (R420). -/
structure Run where
  pid : Nat := 0
  kind : Nat := 0
  bind : Bind := {}
  step : Nat := 0
  start : Nat := 0
  stop : Nat := 0
  budget : Nat := 0
  abort : Bool := false
  body : Nat := 0
  bodyLen : Nat := 0
  shapes : List Nat := []
  dimsUsed : Nat := 0
  rngStream : Nat := 0
  genBase : Nat := 0
  status : Nat := 0
  fault : Nat := 0
  second : Nat := 0
  late : Bool := false
  judged : Bool := false
  superseded : Bool := false
  mismatch : Bool := false
  tapRejected : Bool := false
  widened : Bool := false
  replayOf : Option Nat := none
  stopped : Bool := false
  retired : Bool := false
  executed : Nat := 0
  recItem : Nat := 0
  recInstr : Nat := 0
  recGi : Nat := 0
  recGj : Nat := 0
  recChunk : Nat := 0
  neverBegun : Nat := 0xFFFFFFFF
  nonfinite : Nat := 0
  cur : Cursor := {}
  loops : List LoopFrame := []
  prog : Nat := 0
  aux : List Nat := []
  began : Nat := 0             -- tick in force when it started
  rampCfg : Nat := 0           -- the ramp length in force when it started, as PWR.RAMP_CFG codes it
  route : Route := {}          -- of a sending packet
  work : List UpdStep := []    -- of an update packet: the update list it read when it started (R275)
  holding : Bool := false      -- of an update packet: it copies to the hold area (R275)
  deriving DecidableEq, Repr

/-- An engine of R44: the bindings it still serves, its place in its work list, and the packet in hand. -/
structure Engine where
  binds : List BindUse := []
  step : Nat := 0
  idx : Nat := 0
  run : Option Run := none
  deriving DecidableEq, Repr

/-- The configured tick source (R29). -/
inductive TickMode where
  | local | fabric
  deriving DecidableEq, Repr

/-- A fabric port as a tick source (R30, R31). -/
structure TickPort where
  runLen : Nat := 0
  lastNum : Nat := 0
  lastAt : Nat := 0
  good : Bool := false
  rank : Nat := 0         -- TCLK cycle in which the port became good
  rejoin : Bool := false  -- the comparison of R31 is due at its next ordered-set
  deriving DecidableEq, Repr

/-- The tick generator (R27 to R33, R460, R461). -/
structure TickSt where
  now : BitVec 64 := 0#64
  taken : Bool := false        -- a tick has been taken since the mode was set
  first : Bool := false        -- READY has become 6 and tick 0 is still to come
  source : Nat := 0
  port : Nat := 0
  cause : Option Nat := none   -- a passed-on cause: the number its edge carries
  held : Option Nat := none    -- edges suppressed: the followed port is below the local number
  ports : List TickPort := [{}, {}, {}, {}]
  edgeAt : Nat := 0            -- TCLK cycle of the last edge
  mode : TickMode := .local
  period : Nat := 1000
  shMode : TickMode := .local
  shPeriod : Nat := 1000
  deriving DecidableEq, Repr

/-! ## Matrix cores (spec/04 to spec/07) -/

/-- What the drain needs to know of a tile (R92, R110 to R122, R153, R177): its packet's chain, the index `r` of its
row 0, the index `c` of its column 0, the value of b × M + r for its row 0, and its N tile. `nCount` is the number of
valid N tiles its item has. -/
structure DrainCtx where
  engine : Nat := 0
  pid : Nat := 0
  chain : List (BitVec 64) := []
  a16 : Bool := false
  hb4 : Bool := false
  tau : Int := 0
  cBase : Nat := 0
  ldc : Nat := 0
  planeRows : Nat := 0
  row0 : Nat := 0
  col0 : Nat := 0
  stat0 : Nat := 0
  nTiles : Nat := 0
  nt : Nat := 0
  nCount : Nat := 1
  rows : Nat := 0
  cols : Nat := 0
  obBase : Nat := 0
  rngStream : Nat := 0
  genBase : Nat := 0
  seed : Nat := 0              -- the generator's seed, of the job table its packet runs under (R249)
  place : Place := {}
  replayOf : Option Nat := none
  deriving DecidableEq, Repr

/-- An open tile (R101): valid rows and columns only; `set` is the register set it holds, if any. -/
structure Tile where
  stream : Nat
  gi : Nat
  gj : Nat
  ctx : DrainCtx
  vals : List (List (BitVec 32))
  set : Option Nat := none
  deriving DecidableEq, Repr

/-- A LOAD that has begun and not yet written its last byte (R98, R462), or waits for the transposing buffer (R130), with
what it reads: the runs, the format code, valid rows, length and k_chunk, and its place. -/
structure LoadJob where
  stream : Nat
  dst : Nat
  len : Nat
  chunks : List (Nat × List Byte)
  transposed : Bool := false
  started : Bool := true
  reads : List (Nat × Nat) := []
  fmt : Nat := 0
  valid : Nat := 0
  kj : Nat := 0
  kChunk : Nat := 0
  place : Place := {}
  blocks : Nat := 0
  saturated : Nat := 0
  rangeCount : Nat := 0
  deriving DecidableEq, Repr

/-- The feeder's ramp (R79 to R82): state as CORE.STATUS.RAMP codes it. The current step began in ACLK cycle `stepAt`, its
counter `ph` has run to `upTo`, and `len` is the ramp length L. -/
structure Ramp where
  phase : Nat := 0        -- 0 idle, 1 ramp-in, 2 full rate, 3 ramp-out or hold
  duty : Nat := 1
  ph : Nat := 0
  stepAt : Nat := 0
  upTo : Nat := 0
  len : Nat := 32
  token : Bool := false
  grantAt : Nat := 0
  request : Option Nat := none
  waiting : Bool := false
  deriving DecidableEq, Repr

/-- Statistics of one tile row that the drain carries until the item's last N tile (R117, R118), by stream, chain slot,
row and N tile. -/
structure RowAcc where
  stream : Nat
  slot : Nat
  row : Nat
  nt : Nat
  sum : BitVec 32
  sumsq : BitVec 32
  max : BitVec 32
  arg : Nat
  deriving DecidableEq, Repr

/-- A logical matrix core. -/
structure Core where
  ob : Mem := []
  ramp : Ramp := {}
  chosen : Option Nat := none   -- the stream whose run the feeder presents
  setFed : List Nat := [0, 0, 0, 0]
  clock : Nat := 0
  tiles : List Tile := []
  drainQ : List Tile := []
  loads : List LoadJob := []
  tbuf : List LoadJob := []
  rowAcc : List RowAcc := []
  stalled : Bool := false
  stallFor : List Nat := []     -- grains the stalled head waits for
  lost : List Nat := []         -- those of them whose restore failed while it waited (R207)
  fenceReq : Bool := false
  fenced : Bool := false
  substituted : Bool := false
  deriving DecidableEq, Repr

/-- A vector engine's registers and scratch (R232). -/
structure Vec where
  v : Tbl (BitVec 32) := []     -- 256 × register + lane
  x : Tbl (BitVec 64) := []
  m : Tbl (BitVec 256) := []
  scratch : Mem := []
  deriving DecidableEq, Repr

/-! ## The Yo-yo and the codec (spec/10, spec/11) -/

/-- A grain: its policy entry (R195) and its descriptor (R192). -/
structure Grain where
  size : Nat := 0
  policy : Nat := 0
  profile : Nat := 0
  adoptFill : Bool := false
  hold : Bool := false
  rawBase : Nat := 0
  replay : Nat := 0xFFFF
  storeAddr : Nat := 0
  lead : Nat := 0
  fillBytes : Nat := 0
  dueOffset : Nat := 0
  uses : Nat := 0
  bound : Bool := false
  state : Nat := 0
  filled : Nat := 0
  stored : Nat := 0
  usesLeft : Nat := 0
  dest : Nat := 0
  unavailable : Bool := false
  lateFill : Bool := false
  pending : Bool := false
  depth : Nat := 0
  releaseDue : Bool := false   -- a release that waits for a restore in progress (R194)
  dueStep : Nat := 0           -- the step whose due and restore ticks are those of the fill in hand (R201)
  queuedDue : Nat := 0         -- the due tick a queued restore or replay goes by (R201)
  releasedFor : Nat := 0       -- one more than the step whose due tick was last acted on
  consumers : List Nat := []   -- packets with a start use (R195, R197)
  drainers : List Nat := []    -- packets with a drain use
  deriving DecidableEq, Repr

/-- A store or a restore in flight (R199, R201). -/
structure Xfer where
  grain : Nat
  outbound : Bool
  codec : Bool := false         -- still to be handed to a codec engine (R215)
  engine : Option Nat := none
  host : Bool := false
  data : List Byte := []
  total : Nat := 0
  asked : Nat := 0              -- bytes requested of the host pool so far
  got : Nat := 0
  failed : Bool := false
  ready : Bool := false
  raw : List Byte := []         -- what a decode rebuilt
  deriving DecidableEq, Repr

/-- A tap on its way to a Yo-yo (R121, R198). -/
structure Tap where
  grain : Nat
  offset : Nat
  bytes : List Byte
  mask : Bool := false
  bits : List (Nat × Bool) := []
  engine : Nat := 0
  pid : Nat := 0
  replayOf : Option Nat := none
  deriving DecidableEq, Repr

/-- A replay queued or running (R204, R205). -/
structure Replay where
  grain : Nat
  depth : Nat
  parent : Option Nat := none
  demanded : Bool := false     -- begun on demand, ahead of the due list (R201, R205)
  due : Nat := 0               -- its place in the order of R201
  core : Option Nat := none
  seg : Nat := 0
  begun : Bool := false
  failed : Bool := false
  held : List Nat := []
  deriving DecidableEq, Repr

/-- A die's Yo-yo. -/
structure Yoyo where
  table : Option Nat := none
  bound : Bool := false
  grains : Tbl Grain := []
  taps : List Tap := []
  storeQ : List Nat := []
  restoreQ : List Nat := []
  demandQ : List Nat := []
  xfers : List Xfer := []
  replays : List Replay := []
  codecBusy : List Bool := [false, false, false, false]
  deriving DecidableEq, Repr
/-! ## Gradient reduction and parameter update (spec/13, spec/14) -/

/-- A contribution, result or broadcast segment on its way to a RAU (R257). `path` is the port it came by, 4 for the
local path. -/
structure RauReq where
  entry : Nat
  ptype : Nat
  seg : Nat
  weight : Nat := 0
  nonfinite : Bool := false
  side : BitVec 64 := 0#64
  payload : List Byte := []
  path : Nat := 4
  vc : Nat := 0
  seq : Nat := 0               -- order of arrival (model's own)
  deriving DecidableEq, Repr

/-- An END that waits for the earlier packets of its path (R260). -/
structure EndReq where
  key : Nat
  src : Nat
  sum : Nat
  path : Nat
  vc : Nat := 0
  seq : Nat
  deriving DecidableEq, Repr

/-- The tracker's view of one bushel in the current step (R256, R259, R260), by 2 × table index + role (0 owner,
1 receiver). `cause` is 0 until the close is decided, then the record's cause. -/
structure Bushel where
  step : Nat := 0
  opened : Bool := false
  cause : Nat := 0
  added : Nat := 0
  late : Nat := 0
  ends : List Nat := []        -- positions of the sender list whose END was counted
  endSum : Nat := 0
  closedSegs : Nat := 0        -- segments closed by count, or arrived
  closeTick : Nat := 0
  written : Bool := false      -- the close record is written
  early : List (Nat × Nat) := []   -- segments that came before the open edge: the step of their tag, and how many (R260)
  deriving DecidableEq, Repr

/-- The coordinator's verdict state (R267, R268). -/
structure Verdict where
  started : Bool := false      -- a step has been decided; before that the loss scale is 2^INIT_EXP
  scale : BitVec 32 := 0#32
  clean : Nat := 0
  t : BitVec 64 := 0#64
  history : BitVec 64 := 0#64
  prevFlags : Nat := 0
  prevScale : BitVec 32 := 0#32
  prevT : BitVec 64 := 0#64
  prevClip : List (BitVec 32) := []
  lastStep : Option Nat := none
  deriving DecidableEq, Repr

/-- The owner's resolution of a step (R269, R275). -/
structure UpdSt where
  resolved : Option Nat := none
  work : List UpdStep := []
  missed : Bool := false       -- the step resolved had no record and awaits catch-up
  deriving DecidableEq, Repr

/-- The three copies of the rule table (R270), by byte offset. -/
structure Rules where
  active : Mem := []
  shadow : Mem := []
  prior : Mem := []
  deriving DecidableEq, Repr

/-! ## Fabric ports (spec/16) -/

/-- A packet to be sent: its end-to-end header fields and payload (R308). -/
structure TxPkt where
  dst : Nat
  mcast : Bool := false
  vc : Nat
  ptype : Nat
  stepTag : Nat := 0
  bushel : Nat := 0xFFFF
  index : Nat := 0
  aux : Nat := 0
  ext : Nat := 0
  payload : List Byte := []
  pid : Nat := 0xFFFFFFFF
  deriving DecidableEq, Repr

/-- A received packet that waits in a receive buffer for its consumer (R312). -/
structure RxPkt where
  vc : Nat
  units : Nat
  bytes : List Byte
  old : Bool := false            -- received before the link last went DOWN: its credits are owed to nobody
  deriving DecidableEq, Repr

/-- One fabric port's link layer (R306, R307, R310 to R312). -/
structure Port where
  state : Nat := 0               -- 0 DOWN, 1 TRAINING, 2 UP, 3 RETRAIN, 4 DISABLED
  width : Nat := 0               -- 0 none, 1 x1, 2 x2, 3 x4
  lanes : List Bool := [false, false, false, false]
  inverted : Nat := 0
  reversed : Bool := false
  mcastCap : Bool := false
  trained : Bool := false        -- training has ended and the INIT exchange is due
  txSeq : Nat := 0
  rxSeq : Nat := 0
  credits : List Nat := [0, 0, 0, 0]
  owed : List Nat := [0, 0, 0, 0]
  queues : List (List TxPkt) := [[], [], [], []]
  retry : List (Nat × TxPkt × List Nat) := []   -- sequence number, packet, and the credits that its link field returned
  resend : List Nat := []        -- sequence numbers to be put out again (R311)
  ackDue : Bool := false         -- an acceptance, or a duplicate, is still to be acknowledged
  lastVc : Nat := 3
  naks : Nat := 0
  nakSeq : Nat := 0
  rxBuf : List RxPkt := []
  nakDue : Bool := false
  lastWidth : Nat := 0           -- the width at which it was last UP
  mayWiden : Bool := false       -- lane recalibration lets it return to a wider width (R307)
  fresh : Bool := false          -- its RETRAIN began in DOWN: the next UP restarts numbering and credits (R310)
  deriving DecidableEq, Repr

/-! ## Mirrors, snapshots and exports (spec/15) -/

/-- A region of R293: base and bytes. -/
structure Region where
  base : Nat
  bytes : Nat
  deriving DecidableEq, Repr

/-- The snapshot configuration (R293). -/
structure SnapCfg where
  enable : Bool := false
  k : Nat := 1
  phase : Nat := 0
  n : Nat := 2
  slotBytes : Nat := 0
  stagingBase : Nat := 0
  stagingBytes : Nat := 0
  regions : List Region := []
  cursorAddr : Nat := 0
  cursorLen : Nat := 0
  discard : Bool := false
  deriving DecidableEq, Repr

/-- A generation being staged or drained (R294, R295), with what its commit record will carry (R296). -/
structure GenJob where
  gen : Nat
  slot : Nat
  step : Nat
  tick : Nat
  t : Nat
  planId : Nat
  rngBase : Nat
  jobId : Nat
  ownId : Nat
  regions : List Region
  stagingBase : Nat
  cursorAddr : Nat := 0
  cursorLen : Nat
  cursor : Option (List Byte) := none   -- the cursor bytes, once the host's completion has come
  failed : Bool := false
  bytes : List Byte := []
  blocks : List Nat := []
  deriving DecidableEq, Repr

/-- A generation on the flash: its ring slot, its blocks, its bytes and its commit page (R295, R296). -/
structure Gen where
  slot : Nat
  gen : Nat
  blocks : List Nat := []
  bytes : List Byte := []
  commit : List Byte := []
  deriving DecidableEq, Repr

/-- An export (R298). `phase` is 0 armed, 1 its regions are being staged, 2 conversion and shipping. -/
structure ExportJob where
  regions : List Region
  cvt : Nat
  tau : Int
  fabric : Bool
  dst : Nat                -- host address, or module ID
  limit : Nat              -- host limit, or window number
  stagingBase : Nat
  stagingBytes : Nat
  atTick : Nat
  phase : Nat := 0
  tick : Nat := 0          -- tick in force at the start of staging
  step : Nat := 0
  t : Nat := 0             -- HUB.UPD_T, plan_id and rng_step_base at the start of staging
  planId : Nat := 0
  rngBase : Nat := 0
  deriving DecidableEq, Repr

/-- A window opened to receive an export stream (R298, R350). -/
structure ExportWin where
  window : Nat
  source : Nat
  base : Nat
  bytes : Nat
  got : Nat := 0                       -- bytes of the stream's planes that have come
  header : Option (List Byte) := none  -- its header, which is written last
  deriving DecidableEq, Repr

/-- A write held while its region is staged (R294). -/
structure HeldWrite where
  addr : Nat
  bytes : List Byte
  engine : Option Nat := none    -- the engine whose packet the hold stalls
  accumulate : Nat := 0          -- 0 a plain write; 1 and 2 FP32 contributions to FP32 and BF16 elements
  deriving DecidableEq, Repr

/-- The snapshot engine, the mirror's landing and the owner map (R286 to R304). -/
structure Snap where
  cfg : SnapCfg := {}
  cfgGiven : Bool := false           -- a configuration has been set
  cfgNext : Option (Nat × SnapCfg) := none   -- the tick it takes effect at
  now : Option Nat := none           -- SNAP_NOW since the last staging: the tick in force when it was issued
  owed : Bool := false               -- a deferred staging keeps its turn
  base : Nat := 0                    -- the step stagings under K are counted from
  considered : Option Nat := none    -- the latest step whose boundary has been judged
  turn : Option Nat := none          -- the step whose staging waits for packets of earlier steps to end
  staging : Option GenJob := none
  drain : Option GenJob := none
  held : List HeldWrite := []
  gens : List Gen := []
  erase : Tbl Nat := []              -- erase counts by block
  retired : List Nat := []
  dirty : List Nat := []             -- free blocks that hold pages no generation needs, to be erased before use
  sparesUsed : Nat := 0              -- the model's own: numbers the spares taken
  shipping : Option ExportJob := none
  windows : List ExportWin := []
  landingStep : Nat := 0
  landed : List Nat := []
  landingDone : Bool := false
  everLanded : Bool := false
  copying : Bool := false
  checkedStep : Option Nat := none   -- the latest step whose boundary was checked for a missed landing
  mirrored : Option Nat := none      -- mirrored_id after a promotion took it away
  promoteAt : Option Nat := none     -- the tick at which an armed promotion takes effect
  activated : Bool := false
  ownerMap : List (Nat × Nat) := []
  deriving DecidableEq, Repr
/-! ## Host interface (spec/17, spec/18) -/

/-- A command fetched from a ring: its index, header and payload (R329, R330), and the slot count and status ring of the
ring as it was when the command was fetched. -/
structure Cmd where
  index : Nat
  header : List Byte
  payload : List Byte := []
  slots : Nat := 1024
  status : Nat := 0
  deriving DecidableEq, Repr

/-- A ring's state beyond its registers (R328 to R336). -/
structure Ring where
  fetched : List Cmd := []
  holding : Bool := false        -- the command at the front has passed check 5 and holds its locks
  waitFrom : Option Nat := none  -- order in which it began to wait for a lock
  waited : Bool := false         -- it has waited on a lock
  stopping : Bool := false       -- ENABLE was cleared; the ring stops at its next poll
  fetchFail : Nat := 0
  slotRetry : Bool := false      -- the read to be retried at the next poll is one of a slot
  deriving DecidableEq, Repr

/-- A read the module has outstanding with the host, by kind (R323). -/
inductive HostRead where
  | pool (grain addr bytes : Nat)
  | ring (r : Nat)
  | slots (r : Nat)
  | cursor
  deriving DecidableEq, Repr

/-- A registered host-pool extent (R200, R345). -/
structure Extent where
  offset : Nat
  host : Nat
  bytes : Nat
  num : Nat := 0
  deriving DecidableEq, Repr

/-- The host, as far as the module reaches it, and the Puppeteer. -/
structure HostSt where
  mem : Mem := []
  bar4 : Mem := []
  rings : List Ring := [{}, {}, {}, {}]
  waits : Nat := 0
  locks : List (Nat × Nat) := []    -- (lock, ring)
  extents : List Extent := []
  reads : List HostRead := []
  poolLog : List (Nat × Bool × Nat) := []
  poolLast : Nat := 1
  deriving DecidableEq, Repr

/-! ## Telemetry (spec/24) -/

/-- A telemetry record before it is written (R419). -/
structure TelRec where
  seq : Nat
  tick : Nat
  source : Nat
  cls : Nat
  kind : Nat
  code : Nat
  body : List Byte
  deriving DecidableEq, Repr

/-- What the collector keeps of one source (R423, R425, R426). -/
structure TelSrc where
  codes : BitVec 64 := 0#64
  count : Nat := 0
  first : Nat := 0
  last : Nat := 0
  recDropped : Nat := 0
  trE : Nat := 0
  trW : Nat := 0
  trD : Nat := 0
  loE : Nat := 0
  loW : Nat := 0
  loS : Nat := 0
  loD : Nat := 0
  sumCount : Nat := 0
  sumFirst : Nat := 0
  sumLast : Nat := 0
  sumCode : Nat := 0
  sumAt : Nat := 0               -- the tick in force when its first waiting log was suppressed
  deriving DecidableEq, Repr

/-- The telemetry collector (R418, R422 to R426). -/
structure TelSt where
  seq : Nat := 0
  queue : List TelRec := []
  level : Nat := 0
  high : Nat := 0
  epTr : Nat := 0
  epSum : Nat := 0
  epLo : Nat := 0
  epAl : Nat := 0
  srcs : Tbl TelSrc := []
  traceSel : Nat := 0
  logSel : Nat := 0xF
  deriving DecidableEq, Repr

/-! ## Clocks, power and hold-up (spec/20, spec/21, R299) -/

/-- A PLL being re-locked (R369, R377, R378): by a command on `ring`, or by a swap. -/
structure Relock where
  pll : Nat
  ring : Option Nat := none
  again : Bool := false          -- a swap fell on the domain meanwhile; it re-locks again
  deriving DecidableEq, Repr

/-- Clock state beyond CLK.STATUS (R371 to R379). -/
structure Clk where
  relocks : List Relock := []
  rtcStopped : Bool := false     -- XB is lost; CLK.RTC stands still
  bootSrc : Nat := 0x20000       -- the selection PLLs 5 to 8 run from since the last module reset (R378)
  deriving DecidableEq, Repr

/-- The 16 budget tokens (R383, R393): what each die holds, and the two counters whose difference is FREE. -/
structure Budget where
  held0 : Nat := 8
  held1 : Nat := 8
  withdrawals : Nat := 0
  returns : Nat := 0
  deriving DecidableEq, Repr

/-- What the power manager remembers from mark to mark (R383, R384, R387 to R389). -/
structure PwrMon where
  lowMarks : Nat := 0            -- marks in a row with P below the cap less 2 %
  overMarks : Nat := 0           -- marks since both dies came to hold one token, that one as 1; 102 once R384 has acted
  dieOpen : List Bool := [false, false]
  coolOpen : Bool := false
  above : Bool := false           -- P exceeded the cap at the latest mark
  deriving DecidableEq, Repr

/-- Hold-up and halt (R299, R381): the stage reached. -/
structure Halt where
  stage : Nat := 0               -- 0 running, 1 begun, 2 HOLDUP, 3 clocks stopped, 4 flash stopped, 5 tail written, 6 done
  cause : Nat := 0
  switchOpen : Bool := false     -- the input switch opened on an overvoltage
  converterOff : Bool := false   -- the converter stopped; the next start is cold
  returned : Bool := false       -- the input returned before the sequence ended
  powerGood : Bool := false
  deriving DecidableEq, Repr

/-! ## Roles, security, firmware and the boot flash (spec/22, spec/23, R366, R367) -/

/-- The installer configuration in boot flash (R366, R382, R410). -/
structure InstCfg where
  clkSrc : Nat := 0x20000
  rangeMin : Nat := 1500
  rangeMax : Nat := 3800
  spareMaps : Tbl Nat := []      -- by 128 × die + physical position
  physMap : Tbl Nat := []        -- by 64 × die + logical core; unlisted: its own number
  fw : Tbl (List Byte) := []     -- activated images, by class
  rows : List (Nat × Nat × Nat) := []
  strapEn : Bool := true
  buttonEn : Bool := true
  bootPref : Nat := 0
  interval : Nat := 1024
  deriving DecidableEq, Repr

/-- Fuses, boot flash and manufacturing data (R395, R406, R409): no reset value is given for any of them (log 8). -/
structure Nvm where
  sealFuse : Bool := false
  rootSlot : Nat := 0
  svn : Nat := 0
  roots : List (List Byte) := [[], [], [], []]
  idKey : Nat := 1
  repair : Tbl Nat := []         -- repair fuse words by index
  fuseWords : Nat := 1024        -- fuse words the module has
  imageA : List Byte := []
  imageB : List Byte := []
  calib : List Byte := []
  chain : List Byte := []
  serial : Nat := 0
  romVersion : Nat := 0
  deriving DecidableEq, Repr

/-- Firmware of one class of engines, or of the Puppeteer as class 0 (R367). -/
structure Fw where
  image : List Byte := []
  staged : Option (List Byte) := none
  activating : Bool := false
  switched : List Nat := []      -- engines, or rings, that run the staged image
  ring : Option Nat := none
  deriving DecidableEq, Repr

/-- Presence and the audit log (R402 to R405, R413, R414). -/
structure Sec where
  strapLow : Bool := false
  pressed : Bool := false
  window : Bool := false         -- the 60 s window runs
  windowLeft : Nat := 0          -- TCLK cycles left in it
  entries : List (List Byte) := []   -- kept entries, oldest first
  sinceCkpt : Nat := 0
  deriving DecidableEq, Repr

/-- The SPDM responder (R411, R412). -/
structure Spdm where
  version : Option Nat := none   -- 0x12 or 0x13, once chosen
  algs : Bool := false           -- ALGORITHMS has been answered
  vca : List Byte := []          -- messages from GET_VERSION to ALGORITHMS
  certs : List Byte := []        -- digests and certificate messages since
  meas : List Byte := []         -- measurement messages since the last signature
  session : Option Nat := none
  finished : Bool := false
  secret : List Byte := []       -- handshake secret of the session
  keys : List Byte := []         -- its KEY_EXCHANGE messages
  updates : Nat := 0             -- key updates in the session
  reqKey : List Byte := []       -- the secret that protects what the requester sends, and the records it has sent under it
  reqSeq : Nat := 0
  rspKey : List Byte := []       -- the same of what the responder sends
  rspSeq : Nat := 0
  deriving DecidableEq, Repr

/-- The I3C target (R453). -/
structure I3c where
  offset : Nat := 0
  dyn : Option Nat := none
  deriving DecidableEq, Repr

/-- The PCIe endpoint (R321 to R327, R396, R397). -/
structure Pcie where
  perst : Bool := true           -- the endpoint is held in reset
  training : Bool := false
  bar2Log2 : Nat := 30
  cto : Nat := 5                 -- Device Control 2 completion timeout value: 16 ms (R323, log 9)
  doe : List Byte := []
  doeType : Nat := 0
  doeError : Bool := false
  doeReply : List Byte := []     -- the answer as a message
  doeWire : List Byte := []      -- the object that carries it: in a session its record
  deriving DecidableEq, Repr

/-! ## KV regions, configuration sets (R157, R164, R353 to R363) -/

/-- A KV region beyond its descriptor in memory (R157, R160, R164): whether it exists, one more than the highest position
tag it has held, the append unit that holds its lock, the units that wait for it in order, the attend items that read
it, and whether its append waits to evict. -/
structure KvUse where
  present : Bool := false
  top : Nat := 0
  lock : Option Nat := none
  waiters : List Nat := []
  readers : List Nat := []
  evicting : Bool := false
  deriving DecidableEq, Repr

/-- What the attend items of one entry have added up towards its status record (R166), in one step. -/
structure AttEntry where
  step : Nat := 0
  done : Nat := 0
  bits : Nat := 0
  empty : Nat := 0
  visited : Nat := 0
  skipped : Nat := 0
  deriving DecidableEq, Repr

/-- The plan binding set: active, armed, and an armed unbinding (R343). -/
structure Binding where
  active : Option Bind := none
  activeJob : Option JobTable := none
  armed : Option Bind := none
  armedJob : Option JobTable := none
  armedTick : Nat := 0           -- the tick the armed binding swaps at
  stay : Nat := 0                -- sets deferred with no plan active, one bit each (R363)
  stayAt : Nat := 0              -- the tick of their latest try
  unbindAt : Option Nat := none
  registered : Option JobTable := none
  lastSwap : List Nat := [0, 0, 0, 0, 0, 0, 0]   -- tick of each set's latest swap (R363); 0 before the first
  deriving DecidableEq, Repr

/-- Self-test and row-repair bookkeeping (R352, R368). -/
structure Maint where
  rowFails : Tbl (List Nat) := []   -- failing rows of physical position 128 × die + position at its latest self-test
  rowSpares : Tbl Nat := []         -- spare rows left in pseudo-channel 32 × stack + channel; unlisted: 1 (log 59)
  repair : Tbl Nat := []            -- the repair fuses as start-up read them (R86, R409)
  deriving DecidableEq, Repr

/-- Why a run stops for good. -/
inductive Fault where
  /-- The input left the absolute maximum ratings (R381): the spec gives no behaviour beyond 'may be damaged'. Raised
  by OVERVOLTAGE alone. Safe: nothing can be proved of a damaged module. -/
  | absoluteMaximum
  deriving DecidableEq, Repr

/-- Why a command has no meaning. -/
inductive Refusal where
  /-- The command has no meaning in this model yet. Raised by `exec` alone. Safe: nothing can be proved of it. -/
  | notModelled (mnemonic : String)
  deriving DecidableEq, Repr

/-- The module. Every default below is the value at reset (spec/26 for registers, which an empty table reads as their
reset values). -/
structure State where
  /-- Commands that wait, first in, first out. -/
  pending : List Instr := []
  /-- The model's own counter of free values drawn. -/
  free : Nat := 0
  /-- The model's own: the value the last register or memory read returned to its reader. -/
  readData : W64 := 0#64
  /-- The model's own: the bytes the last BAR2, configuration or I3C transfer returned to its reader. -/
  readBytes : List Byte := []
  /-- Registers by BAR0 offset (R440). -/
  regs : Tbl W64 := []
  /-- Read latches: the latched high half by register (R13). -/
  latches : List (Nat × W32) := []
  /-- Staging latches: the held low half by register (R13). -/
  staging : List (Nat × W32) := []
  /-- Stack memory and the shared memories by device address (R8). -/
  mem : Mem := []
  /-- The 32-byte words that read with an uncorrectable error, by word address (R20). -/
  badWords : List Nat := []
  host : HostSt := {}
  tick : TickSt := {}
  binding : Binding := {}
  engines : Tbl Engine := []
  cores : Tbl Core := []
  /-- Ramp token requests of each die: (request cycle, core) (R82). -/
  tokenQ : List (List (Nat × Nat)) := [[], []]
  /-- The core of each die that received its last contended grant; C63 before the first, so that C00 comes first. -/
  tokenLast : List Nat := [63, 63]
  vecs : Tbl Vec := []
  yoyos : List Yoyo := [{}, {}]
  kvTable : Option Nat := none
  kv : Tbl KvUse := []
  /-- By the address of the entry's status record. -/
  att : Tbl AttEntry := []
  bushels : Tbl Bushel := []
  /-- By 32 × stack + pseudo-channel. -/
  rauQ : Tbl (List RauReq) := []
  /-- The model's own: numbers the requests in order of arrival. -/
  rauSeq : Nat := 0
  ends : List EndReq := []
  verdict : Verdict := {}
  upd : UpdSt := {}
  rules : Rules := {}
  ports : List Port := [{}, {}, {}, {}]
  localQ : List TxPkt := []
  snap : Snap := {}
  tel : TelSt := {}
  clk : Clk := {}
  budget : Budget := {}
  mon : PwrMon := {}
  halt : Halt := {}
  inst : InstCfg := {}
  nvm : Nvm := {}
  fw : Tbl Fw := []
  sec : Sec := {}
  spdm : Spdm := {}
  i3c : I3c := {}
  pcie : Pcie := {}
  maint : Maint := {}
  /-- Dies whose reset is in progress (R399). -/
  dieReset : List Bool := [false, false]
  /-- An accepted write of HUB.RESET whose action is still to run (R401). -/
  resetReq : Nat := 0
  /-- Stacks that failed training at start-up (R398), one bit each. -/
  stackFail : Nat := 0
  deriving DecidableEq, Repr

/-- The module right after reset. -/
def State.reset : State := {}

end Sys2Proof.Machine
end

