-- ==== Sys2Proof/Machine/Ops.lean ====
section
/-!
DEFINITION. Machine/Ops.lean: the named operations over registers, counters and memory. Registers: R11 to R13, R440,
R459. Memory: the address map of R8, who may reach what (R9), the 32-byte ECC words of R20, the holds of R294.
-/

namespace Sys2Proof.Machine

/-- What a command answers. -/
abbrev Answer := Host.Outcome State Fault Refusal

/-- `t` with the queue, the budget tokens, the one-time and boot memories of `s`, and its tick but for a tick
configuration that is being prepared. -/
def State.keepFixed (s t : State) : State :=
  { t with pending := s.pending, budget := s.budget, nvm := s.nvm,
           tick := { s.tick with shMode := t.tick.shMode, shPeriod := t.tick.shPeriod } }

/-- `t` with everything of `s` that no engine, transfer or access changes: beside `keepFixed` the bindings, the KV
table's place, verdict and update state, rules, clocks, the power manager's and the hold-up's state, installer
configuration, firmware, SPDM, I3C and PCIe endpoint, maintenance and die resets. -/
def State.keepSystem (s t : State) : State :=
  { t with pending := s.pending, budget := s.budget, nvm := s.nvm, tick := s.tick, binding := s.binding,
           kvTable := s.kvTable, verdict := s.verdict, upd := s.upd, rules := s.rules, clk := s.clk, mon := s.mon,
           halt := s.halt, inst := s.inst, fw := s.fw, spdm := s.spdm, i3c := s.i3c, pcie := s.pcie, maint := s.maint,
           dieReset := s.dieReset, stackFail := s.stackFail }

/-- `t` with the device memory of `s`. -/
def State.keepMem (s t : State) : State := { t with mem := s.mem, badWords := s.badWords }

/-- The answer of a command of the data path: the state its body made, with the system state as it was. -/
def answer (s t : State) : Answer := .next (s.keepSystem t)

/-- The answer of such a command that stores nothing in device memory. -/
def answerNoMem (s t : State) : Answer := .next (s.keepSystem (s.keepMem t))

/-- The answer of a command that may change the system state. -/
def answerSys (s t : State) : Answer := .next (s.keepFixed t)

/-- The answer of such a command that stores nothing in device memory. -/
def answerSysNoMem (s t : State) : Answer := .next (s.keepFixed (s.keepMem t))

/-- The answer of a command of the tick generator: the tick may change, and nothing else of the system. Its alarm may write
a record into the telemetry ring. -/
def answerTick (s t : State) : Answer := .next { s.keepSystem t with tick := t.tick }

/-- The answer of a configuration swap: it may change the tick generator's mode and period. -/
def answerSwap (s t : State) : Answer := .next { t with pending := s.pending, budget := s.budget, nvm := s.nvm }

/-- The answer of a command that may also change fuses or boot flash. -/
def answerNvm (s t : State) : Answer := .next { s.keepFixed t with nvm := t.nvm }

/-- The answer of a command of the power manager, which moves budget tokens. -/
def answerPower (s t : State) : Answer := .next { s.keepFixed t with budget := t.budget }

/-- The answer of a reset of the module: only the queue is as it was. -/
def answerAll (s t : State) : Answer := .next { t with pending := s.pending }

/-! ## Registers -/

/-- The stored value of the register at a slot offset. -/
def State.reg (s : State) (off : Nat) : Nat := (Tbl.get regReset s.regs off).toNat

/-- Store a register. -/
def State.setReg (s : State) (off v : Nat) : State :=
  { s with regs := Tbl.set regReset s.regs off (BitVec.ofNat 64 v) }

/-- Bits [hi:lo] of a stored register. -/
def State.field (s : State) (off hi lo : Nat) : Nat := bitsOf (s.reg off) hi lo

/-- Store bits [hi:lo] of a register. -/
def State.setField (s : State) (off hi lo v : Nat) : State := s.setReg off (putBits (s.reg off) hi lo v)

/-- Set or clear one bit of a register. -/
def State.setFlag (s : State) (off i : Nat) (v : Bool) : State := s.setField off i i (b2n v)

/-- The active copy of an SH register (R441). -/
def State.act (s : State) (off : Nat) : Nat := s.reg (off + 0x8000)

/-- Count `n` events in a register that saturates (R459). -/
def State.count (s : State) (off n : Nat) : State := s.setReg off (capAt (regTop off) (s.reg off + n))

/-- The next free value of a site, and the counter moved on. -/
def State.draw (s : State) (site : Nat) : State × Nat :=
  ({ s with free := s.free + 1 }, (Config.freeValue site s.free).toNat)

/-! ## Engines, cores and dies -/

/-- An engine identifier (R44). -/
def engineId (cls die inst : Nat) : Nat := cls <<< 24 ||| die <<< 16 ||| inst
def engClass (e : Nat) : Nat := bitsOf e 31 24
def engDie (e : Nat) : Nat := bitsOf e 23 16
def engInst (e : Nat) : Nat := bitsOf e 15 0

/-- How many instances a class has on a die (R44); 0 where the class or the die does not exist. -/
def classCount (cls die : Nat) : Nat :=
  if cls = 9 then (if die = 0xFF then 1 else 0)
  else if 2 ≤ die then 0
  else match cls with
    | 1 => 64 | 2 => 64 | 3 => 32 | 4 => 16 | 5 => 8 | 6 => 4 | 7 => 4 | 8 => 1
    | _ => 0

/-- Whether an identifier names an engine (R44). -/
def isEngine (e : Nat) : Bool := decide (engInst e < classCount (engClass e) (engDie e)) && decide (e < 2 ^ 32)

/-- The key of a matrix core. -/
def coreKey (die c : Nat) : Nat := die * 64 + c

def State.core (s : State) (k : Nat) : Core := Tbl.get (fun _ => {}) s.cores k
def State.setCore (s : State) (k : Nat) (c : Core) : State := { s with cores := Tbl.set (fun _ => {}) s.cores k c }
def State.modCore (s : State) (k : Nat) (f : Core → Core) : State := s.setCore k (f (s.core k))

def State.engine (s : State) (e : Nat) : Engine := Tbl.get (fun _ => {}) s.engines e
def State.setEngine (s : State) (e : Nat) (v : Engine) : State :=
  { s with engines := Tbl.set (fun _ => {}) s.engines e v }
def State.modEngine (s : State) (e : Nat) (f : Engine → Engine) : State := s.setEngine e (f (s.engine e))

def State.vec (s : State) (e : Nat) : Vec := Tbl.get (fun _ => {}) s.vecs e
def State.setVec (s : State) (e : Nat) (v : Vec) : State := { s with vecs := Tbl.set (fun _ => {}) s.vecs e v }

def State.yoyo (s : State) (d : Nat) : Yoyo := listGet {} s.yoyos d
def State.setYoyo (s : State) (d : Nat) (y : Yoyo) : State := { s with yoyos := listPut {} 2 s.yoyos d y }
def State.modYoyo (s : State) (d : Nat) (f : Yoyo → Yoyo) : State := s.setYoyo d (f (s.yoyo d))

def State.port (s : State) (p : Nat) : Port := listGet {} s.ports p
def State.setPort (s : State) (p : Nat) (v : Port) : State := { s with ports := listPut {} 4 s.ports p v }
def State.modPort (s : State) (p : Nat) (f : Port → Port) : State := s.setPort p (f (s.port p))

def State.ring (s : State) (r : Nat) : Ring := listGet {} s.host.rings r
def State.setRing (s : State) (r : Nat) (v : Ring) : State :=
  { s with host := { s.host with rings := listPut {} 4 s.host.rings r v } }

/-! ## Views: register fields that other state determines -/

/-- Whether presence holds (R402). -/
def State.presence (s : State) : Bool :=
  (s.inst.strapEn && s.sec.strapLow) || (s.inst.buttonEn && (s.sec.pressed || s.sec.window))

/-- The retired physical rows a spare map names (R86). -/
def retiredRows (m : Nat) : List Nat :=
  (if bitOf m 8 then [bitsOf m 7 0] else []) ++ (if bitOf m 24 then [bitsOf m 23 16] else [])

/-- SPARE_SHIFT of a set of retired rows (R78): the highest physical row in use, less 127. -/
def spareShift (rows : List Nat) : Nat :=
  match ((List.range 130).filter (fun p => !rows.contains p)).getD 127 127 with
  | h => h - 127

/-- Free tokens of the budget (R383). -/
def Budget.free (b : Budget) : Nat := 16 - b.held0 - b.held1

/-- Ramp tokens that cores of a die hold, and cores that wait for one (R82). -/
def State.rampHeld (s : State) (d : Nat) : Nat :=
  ((List.range 64).filter (fun c => (s.core (coreKey d c)).ramp.token)).length
def State.rampWaiting (s : State) (d : Nat) : Nat :=
  ((List.range 64).filter (fun c => (s.core (coreKey d c)).ramp.waiting)).length

/-- A stream has a tile in the array (R85): one that holds a register set, also one that waits for the drain. -/
def Core.active (c : Core) (stream : Nat) : Bool :=
  (c.tiles ++ c.drainQ).any (fun t => t.stream == stream && t.set.isSome)

/-- CORE.STATUS (R85). -/
def State.coreStatus (s : State) (d i : Nat) : Nat :=
  let c := s.core (coreKey d i)
  let rows := retiredRows (s.reg (rCoreSpareMap d i))
  spareShift rows + 4 * b2n c.fenced + 8 * b2n (c.active 0) + 16 * b2n (c.active 1) + 32 * c.ramp.phase
    + 128 * b2n c.ramp.waiting + 256 * (c.ramp.duty - 1) + 2048 * b2n (!rows.isEmpty)

/-- A port as the tick generator sees it. -/
def State.tickPort (s : State) (p : Nat) : TickPort := listGet {} s.tick.ports p

/-- The good port that became good first (R29, R30). -/
def State.firstGood (s : State) : Option Nat :=
  (List.range 4).foldl (fun (best : Option Nat) p =>
    let q := s.tickPort p
    if !q.good then best
    else match best with
      | none => some p
      | some b => if q.rank < (s.tickPort b).rank then some p else best) none

/-- TICK.STATUS (R33): in mode FABRIC a good port makes the source 2 at once, by the table of R29, even while the
comparison of R31 is still due. -/
def State.tickStatus (s : State) : Nat :=
  let good := (s.tick.ports.zip [1, 2, 4, 8]).foldl (fun a p => if p.1.good then a + p.2 else a) 0
  let src := match s.tick.mode, s.firstGood with
    | .fabric, some p => 2 + 4 * p
    | _, _ => s.tick.source
  src + 16 * good + (s.reg rTickStatus) / 256 * 256

/-- FABPn.STATUS (R318). -/
def State.fabStatus (s : State) (p : Nat) : Nat :=
  let q := s.port p
  let lanes := (q.lanes.zip [1, 2, 4, 8]).foldl (fun a l => if l.1 then a + l.2 else a) 0
  q.state + 8 * q.width + 32 * lanes + 512 * q.inverted + 8192 * b2n q.reversed + 16384 * b2n q.mcastCap
    + (s.reg (rFabStatus p)) / 32768 * 32768

/-- YOYO[Dd].STATUS (R212). -/
def State.yoyoStatus (s : State) (d : Nat) : Nat :=
  let y := s.yoyo d
  let queued := (y.replays.filter (fun r => r.core.isNone)).length
  b2n y.bound + 2 * y.xfers.length + 128 * capAt 255 queued
    + 32768 * b2n (y.replays.any (fun r => r.core.isSome)) + (s.reg (rYoyoStatus d)) / 65536 * 65536

/-- Sources whose alarm latch is set (R430). -/
def State.latchedCount (s : State) : Nat := (s.tel.srcs.filter (fun e => e.2.codes != 0#64)).length

/-- The value a read of the register at a slot offset returns, views included. -/
def State.regVal (s : State) (off : Nat) : Nat :=
  let raw := s.reg off
  if off = rTickNow then s.tick.now.toNat
  else if off = rTickStatus then s.tickStatus
  else if off = rPwrRampTokens then
    (8 - s.rampHeld 0) + 16 * (8 - s.rampHeld 1) + 256 * s.rampWaiting 0 + 65536 * s.rampWaiting 1
  else if off = rPwrBudget then s.budget.held0 + 16 * s.budget.held1 + 256 * s.budget.free
  else if off = rPwrCtrWITHDRAWALS then capAt (2 ^ 64 - 1) s.budget.withdrawals
  else if off = rPwrCtrRETURNS then capAt (2 ^ 64 - 1) s.budget.returns
  else if off = rPwrStatus then
    putBits (putBits raw 4 4 (b2n (s.budget.free != 0))) 8 8 (b2n (s.reg rPwrRailOff != 0))
  else if off = rTelStatus then putBits raw 15 4 s.latchedCount + s.tel.level
  else if off = rSecStatus then
    raw / 32 * 32 + b2n s.sec.strapLow + 2 * b2n s.presence + 4 * b2n s.nvm.sealFuse + 8 * s.nvm.rootSlot
  else if off = rSecPresenceLeft then (if s.sec.window then s.sec.windowLeft / 50000000 else 0)
  else if off = rSecSvn then s.nvm.svn
  else if off = rHubResetStatus then raw + 2 * b2n (s.dieReset.any id)
  else if off = rYoyoStatus 0 then s.yoyoStatus 0
  else if off = rYoyoStatus 1 then s.yoyoStatus 1
  else if 0x90000 ≤ off ∧ off < 0xD0000 then
    let p := (off - 0x90000) / 0x10000
    if off = rFabStatus p then s.fabStatus p
    else match findN 4 (fun v => off == rFabCredit p v) with
      | some v => listGet 0 (s.port p).credits v + 65536 * listGet 0 (s.port p).owed v
      | none => raw
  else if 0x50100 ≤ off ∧ off < 0x50500 then
    let r := (off - 0x50100) / 0x100
    if off = rCmdSTATUS r then
      let q := s.ring r
      putBits (putBits raw 2 2 (b2n (q.holding || q.waitFrom.isSome))) 3 3 (b2n q.waitFrom.isSome)
    else raw
  else match findN 16 (fun k => off == rSecIdentityPub k) with
    | some k => beNat (((ecdsaPublic s.nvm.idKey).drop (4 * k)).take 4)
    | none =>
      if 0x1000000 ≤ off ∧ off < 0x3000000 ∧ off % 0x1000 = 0 ∧ off % 0x1000000 < 0x40000 then
        s.coreStatus (off / 0x1000000 - 1) (off % 0x1000000 / 0x1000)
      else raw

/-- Places that are not served at this moment (R395, R444): a read returns 0 and a write is ignored. -/
def State.served (s : State) (off : Nat) : Bool :=
  let dieOff := fun d => decide (0x1000000 * (d + 1) ≤ off) && decide (off < 0x1000000 * (d + 2))
  if s.field rHubReady 3 0 = 7 then
    decide (off < 0x10000) || (decide (0x40000 ≤ off) && decide (off < 0x50000))
  else if (dieOff 0 && (listGet false s.dieReset 0 || bitOf (s.reg rPwrRailOff) 0)) ||
      (dieOff 1 && (listGet false s.dieReset 1 || bitOf (s.reg rPwrRailOff) 1)) then false
  else if 0x100000 ≤ off ∧ off < 0x10C000 then !bitOf (s.reg rPwrRailOff) (2 + (off - 0x100000) / 0x1000)
  else true

/-- Whether a 64-bit register lies at a slot offset, as itself or as an active copy. -/
def wideAt (off : Nat) : Bool :=
  match findReg off with
  | some r => r.wide
  | none => match findActive off with
    | some r => r.wide
    | none => false

/-- What a read of a whole slot returns (R7, R444): 0 where nothing is listed or served. -/
def State.busReg (s : State) (off : Nat) : Nat :=
  if (findReg off).isSome || (findActive off).isSome then
    if s.served off then s.regVal off else 0
  else 0

/-- Empty a register's read latch (R13). -/
def State.dropLatch (s : State) (off : Nat) : State :=
  { s with latches := s.latches.filter (fun l => l.1 != off) }

/-- Discard the low half a register's staging latch holds (R13). -/
def State.dropStaged (s : State) (off : Nat) : State :=
  { s with staging := s.staging.filter (fun l => l.1 != off) }

/-- A 32-bit read at a BAR0 offset (R13, R440): a low half of a 64-bit register latches its high half; a high half
returns and empties the latch, or the high half as it stands. -/
def State.read32 (s : State) (off : Nat) : State × Nat :=
  let slot := off / 8 * 8
  let v := s.busReg slot
  if !wideAt slot then (s, if off % 8 = 0 then v % 2 ^ 32 else 0)
  else if off % 8 = 0 then
    ({ s.dropLatch slot with latches := (slot, BitVec.ofNat 32 (v / 2 ^ 32)) :: (s.dropLatch slot).latches }, v % 2 ^ 32)
  else match s.latches.find? (fun l => l.1 == slot) with
    | some l => (s.dropLatch slot, l.2.toNat)
    | none => (s, v / 2 ^ 32)

/-- A 64-bit read at a slot offset (R13): one consistent value; the latch is emptied. -/
def State.read64 (s : State) (off : Nat) : State × Nat := (s.dropLatch off, s.busReg off)

/-! ## Device memory -/

/-- The parts of the device address map (R8). -/
inductive Space where
  | stack | shm | ctl | pool | none
  deriving DecidableEq, Repr

def stackEnd : Nat := 0x012000000000
def halfBase : Nat := 0x009000000000
def shmBase (d : Nat) : Nat := 0x200000000000 + 0x10000000 * d
def ctlBase : Nat := 0x300000000000
def poolBase : Nat := 0x400000000000
def poolEnd : Nat := 0x500000000000
def claimBase (d : Nat) : Nat := shmBase d + 0x0FFFF000

/-- The part of the map an address lies in (R8). -/
def spaceOf (a : Nat) : Space :=
  if a < stackEnd then .stack
  else if 0x200000000000 ≤ a ∧ a < 0x200020000000 then .shm
  else if ctlBase ≤ a ∧ a < ctlBase + 0x4000000 then .ctl
  else if poolBase ≤ a ∧ a < poolEnd then .pool
  else .none

/-- Whether n bytes from an address lie in one part of the map. -/
def inSpace (sp : Space) (a n : Nat) : Bool :=
  spaceOf a == sp && (n == 0 || spaceOf (a + n - 1) == sp)
def inStack (a n : Nat) : Bool := inSpace .stack a n
def inMem (a n : Nat) : Bool := inSpace .stack a n || inSpace .shm a n

/-- The stack, pseudo-channel and byte within it of a stack address (R18). -/
def stackOf (a : Nat) : Nat × Nat × Nat :=
  let d := if a < halfBase then 0 else 1
  let o := a - d * halfBase
  let n := o >>> 12
  (d * 6 + n % 6, n / 6 % 32, n / 192 * 4096 + o % 4096)

/-- The die whose stacks or shared memory hold an address. -/
def dieOf (a : Nat) : Nat := if a < stackEnd then (if a < halfBase then 0 else 1) else (if a < shmBase 1 then 0 else 1)

/-- What an unlisted byte reads as: stacks and shared memory are written to zero before READY (R394), and each
tile-claim counter's epoch is set to 0xFFFF_FFFF (R103). -/
def memDefault (a : Nat) : Byte :=
  if ((claimBase 0 ≤ a ∧ a < shmBase 1) ∨ (claimBase 1 ≤ a ∧ a < shmBase 2)) ∧ a % 16 < 4 then 0xFF#8 else 0#8

/-- The bytes as they stand, whatever their ECC. -/
def State.peek (s : State) (a n : Nat) : List Byte := Tbl.getMany memDefault s.mem a n

/-- Put bytes into memory. -/
def State.poke (s : State) (a : Nat) (bs : List Byte) : State := { s with mem := Tbl.setMany memDefault s.mem a bs }

/-- Host memory reads as 0 where nothing is listed (log 4). -/
def hostDefault (_ : Nat) : Byte := 0#8
def State.hostPeek (s : State) (a n : Nat) : List Byte := Tbl.getMany hostDefault s.host.mem a n
def State.hostPoke (s : State) (a : Nat) (bs : List Byte) : State :=
  { s with host := { s.host with mem := Tbl.setMany hostDefault s.host.mem a bs } }

/-- Bytes the module sends to the host, by a posted write (R340). -/
def State.hostWrite (s : State) (a : Nat) (bs : List Byte) : State :=
  (s.hostPoke a bs).count rPcieCtrTXBYTES bs.length

/-- A stack whose rail is off or that failed training serves nothing (R390, R398). -/
def State.stackDead (s : State) (n : Nat) : Bool := bitOf (s.reg rPwrRailOff) (2 + n) || bitOf s.stackFail n

/-- Whether a memory range meets an uncorrectable word or a dead stack (R20, R390, R429). -/
def State.badRange (s : State) (a n : Nat) : Bool :=
  n != 0 && (s.badWords.any (fun w => decide (w < a + n) && decide (a < w + 32)) ||
    (decide (a < stackEnd) &&
      ((s.reg rPwrRailOff) / 4 != 0 || s.stackFail != 0) &&
      (List.range ((a + n - 1) / 4096 + 1 - a / 4096)).any (fun i => s.stackDead (stackOf (a / 4096 * 4096 + 4096 * i)).1)))

/-- The registered extent that holds a window offset (R200). -/
def State.extentOf (s : State) (o : Nat) : Option Extent :=
  s.host.extents.find? (fun x => decide (x.offset ≤ o) && decide (o < x.offset + x.bytes))

/-- The host address behind a window offset. -/
def State.poolHost (s : State) (o : Nat) : Option Nat := (s.extentOf o).map (fun x => x.host + (o - x.offset))

/-- Whether every 2 MiB piece of a pool range is registered (R9). -/
def State.poolOk (s : State) (a n : Nat) : Bool :=
  inSpace .pool a n && (n == 0 ||
    (List.range ((a + n - 1) / 0x200000 + 1 - a / 0x200000)).all
      (fun i => (s.extentOf ((a / 0x200000 + i) * 0x200000 - poolBase)).isSome))

def State.poolPeek (s : State) (a : Nat) : Nat → List Byte
  | 0 => []
  | n + 1 =>
    (match s.poolHost (a - poolBase) with
      | some h => Tbl.get hostDefault s.host.mem h
      | none => 0#8) :: State.poolPeek s (a + 1) n

def State.poolPoke (s : State) (a : Nat) : List Byte → State
  | [] => s
  | b :: bs =>
    State.poolPoke (match s.poolHost (a - poolBase) with
      | some h => s.hostPoke h [b]
      | none => s) (a + 1) bs

/-- A read: its bytes, or the fault code it ends with. -/
inductive Rd where
  | ok (bs : List Byte)
  | fault (code : Nat)
  deriving DecidableEq, Repr

/-- Which halves of the 8-byte slot at `slot` the bytes from `a` reach. -/
def halvesIn (slot a n : Nat) : Bool × Bool :=
  (decide (a < slot + 4) && decide (slot < a + n), decide (a < slot + 8) && decide (slot + 4 < a + n))

/-- The bytes of the control space (R8: the registers of BAR0). A read that reaches the high half of a 64-bit register alone
returns what its read latch holds (R13). -/
def State.ctlPeek (s : State) (a n : Nat) : List Byte :=
  (List.range n).map (fun i =>
    let slot := (a + i) / 8 * 8
    let off := slot - ctlBase
    let v := match halvesIn slot a n, s.latches.find? (fun l => l.1 == off) with
      | (false, true), some l => l.2.toNat * 2 ^ 32
      | _, _ => s.busReg off
    BitVec.ofNat 8 (v >>> (8 * ((a + i) % 8))))

/-- A read by an engine (R9, R17, R20): ISSUE_SHAPE outside the map or in an unregistered part of the pool,
MEM_UNCORRECTABLE where a word is uncorrectable. -/
def State.load (s : State) (a n : Nat) : Rd :=
  if inMem a n then (if s.badRange a n then .fault 6 else .ok (s.peek a n))
  else if inSpace .ctl a n then .ok (s.ctlPeek a n)
  else if s.poolOk a n then .ok (s.poolPeek a n)
  else .fault 1

/-- What a read by an engine leaves behind beside its bytes: in the control space it uses the read latches of the registers
it reaches (R13), and bytes that come through the host-pool window are received over PCIe (R340). -/
def State.noteRead (s : State) (a n : Nat) : State :=
  if n = 0 ∨ inMem a n then s
  else if inSpace .ctl a n then
    (List.range ((a + n - 1) / 8 + 1 - a / 8)).foldl (fun (t : State) i =>
      let slot := (a / 8 + i) * 8
      match halvesIn slot a n with
      | (true, true) => (t.read64 (slot - ctlBase)).1
      | (true, false) => (t.read32 (slot - ctlBase)).1
      | (false, true) => (t.read32 (slot - ctlBase + 4)).1
      | _ => t) s
  else if s.poolOk a n then s.count rPcieCtrRXBYTES n
  else s

def State.noteReads (s : State) (l : List (Nat × Nat)) : State := l.foldl (fun t p => t.noteRead p.1 p.2) s

/-- Words of a write that cover a bad word only in part. -/
def State.partialBad (s : State) (a n : Nat) : List Nat :=
  s.badWords.filter (fun w => decide (w < a + n) && decide (a < w + 32) && !(decide (a ≤ w) && decide (w + 32 ≤ a + n)))

/-- Store bytes word by word (R20): a word wholly covered is replaced and healed; an uncorrectable word covered in part
keeps its bytes and stays uncorrectable. -/
def State.storeEcc (s : State) (a : Nat) (bs : List Byte) : State :=
  let n := bs.length
  if s.badWords.isEmpty then s.poke a bs
  else
    let keep := s.partialBad a n
    let s' := (indexed bs).foldl (fun (t : State) ib =>
      if keep.contains ((a + ib.1) / 32 * 32) then t else t.poke (a + ib.1) [ib.2]) s
    { s' with badWords := s.badWords.filter (fun w => !(decide (a ≤ w) && decide (w + 32 ≤ a + n))) }

/-- The regions whose staging holds writes (R294): those of the generation being staged, or of the export. -/
def State.heldRegions (s : State) : List Region :=
  (match s.snap.staging with
    | some j => j.regions
    | none => []) ++
    (match s.snap.shipping with
      | some x => if x.phase = 1 then x.regions else []
      | none => [])

def State.heldAt (s : State) (a n : Nat) : Bool :=
  n != 0 && s.heldRegions.any (fun r => decide (r.base < a + n) && decide (a < r.base + r.bytes))

/-- A plain write to stack or shared memory, held while its region is staged (R294). Nothing is stored in a stack that
is off. -/
def State.store (s : State) (eng : Option Nat) (a : Nat) (bs : List Byte) : State :=
  if s.heldAt a bs.length then { s with snap := { s.snap with held := s.snap.held ++ [{ addr := a, bytes := bs, engine := eng }] } }
  else if decide (a < stackEnd) && s.stackDead (stackOf a).1 then s
  else s.storeEcc a bs

end Sys2Proof.Machine
end

