-- ==== Sys2Proof/Machine/Operands.lean ====
section
/-!
DEFINITION. Machine/Operands.lean: how work reaches an engine: the plan image (R41 to R48), the packet an engine has in
hand or takes next (R34 to R36, R39), its shape words (R49), its place in the noise stream (R240), and element access
in the tensor formats of spec/03.
-/

namespace Sys2Proof.Machine

/-- An n-byte little-endian number in memory. -/
def State.ld (s : State) (n a : Nat) : Nat := leNat (s.peek a n)

/-- A section of the image (R42), with its absolute first byte. -/
structure Section where
  type : Nat
  entry : Nat
  count : Nat
  base : Nat
  size : Nat
  target : Nat
  deriving DecidableEq, Repr

def State.sectionAt (s : State) (img i : Nat) : Section :=
  let a := img + s.ld 4 (img + 0x0C) + 32 * i
  { type := s.ld 2 a, entry := s.ld 2 (a + 2), count := s.ld 4 (a + 4), base := img + s.ld 8 (a + 8),
    size := s.ld 8 (a + 16), target := s.ld 4 (a + 24) }

def State.sections (s : State) (img : Nat) : List Section :=
  (List.range (s.ld 2 (img + 0x0A))).map (s.sectionAt img)

/-- The one table section of a type, if the image has it (R43). -/
def State.tableOf (s : State) (img type : Nat) : Option Section := (s.sections img).find? (fun x => x.type == type)

/-- The work list of an engine (R43, R44). -/
def State.listOf (s : State) (img e : Nat) : Option Section :=
  (s.sections img).find? (fun x => x.type == 2 && x.target == e)

/-- A window: start offset, end offset, budget (R45). -/
def State.windowAt (s : State) (img i : Nat) : Nat × Nat × Nat :=
  match s.tableOf img 1 with
  | some w => let a := w.base + 16 * i
    (s.ld 4 a, s.ld 4 (a + 4), s.ld 4 (a + 8))
  | none => (0, 1, 0)

/-- A packet header (R46), with the address of its body. -/
structure Packet where
  pid : Nat
  window : Nat
  kind : Nat
  abort : Bool
  bodyLen : Nat
  bound : Nat
  rngStream : Nat
  rngOffset : Nat
  shapes : Nat
  body : Nat
  deriving DecidableEq, Repr

def State.packetAt (s : State) (a : Nat) : Packet :=
  { pid := s.ld 4 a, window := s.ld 4 (a + 4), kind := s.ld 2 (a + 8), abort := bitOf (s.ld 2 (a + 10)) 0,
    bodyLen := s.ld 4 (a + 12), bound := s.ld 2 (a + 16), rngStream := s.ld 4 (a + 20), rngOffset := s.ld 8 (a + 24),
    shapes := s.ld 8 (a + 32), body := a + 64 }

/-- Where packet `i` of a list begins: each body is padded to 64 bytes (R46). -/
def State.packetAddr (s : State) (a : Nat) : Nat → Nat
  | 0 => a
  | i + 1 => s.packetAddr (a + 64 + alignUp (s.ld 4 (a + 12)) 64) i

/-- The packet an engine takes next, and its absolute window (R36, R39). -/
structure NextPacket where
  bind : Bind
  step : Nat
  packet : Packet
  start : Nat
  stop : Nat
  budget : Nat
  deriving DecidableEq, Repr

/-- The packet at place `idx` of step `step` under a binding; `none` past the list's end or where there is no list. -/
def State.packetIn (s : State) (b : Bind) (e step idx : Nat) : Option NextPacket :=
  match s.listOf b.addr e with
  | none => none
  | some l =>
    if l.count ≤ idx then none
    else
      let p := s.packetAt (s.packetAddr l.base idx)
      let w := s.windowAt b.addr p.window
      let t0 := b.first + step * b.period
      some { bind := b, step := step, packet := p, start := t0 + w.1, stop := t0 + w.2.1, budget := w.2.2 }

/-- The next packet over the bindings an engine still serves, oldest first: a binding that another took over from
yields only packets whose start tick lies before that boundary (R40). Answers the bindings that remain, the step and
the place in the list. -/
def State.nextIn (s : State) (e : Nat) : List BindUse → Nat → Nat → Option (NextPacket × List BindUse × Nat × Nat)
  | [], _, _ => none
  | u :: us, step, idx =>
    let here := match s.packetIn u.bind e step idx with
      | some p => some (p, step, idx)
      | none => match s.packetIn u.bind e (step + 1) 0 with
        | some p => some (p, step + 1, 0)
        | none => none
    match here with
    | none => s.nextIn e us 0 0
    | some (p, st, ix) =>
      match u.upto with
      | some b => if b ≤ p.start then s.nextIn e us 0 0 else some (p, u :: us, st, ix)
      | none => some (p, u :: us, st, ix)

def State.nextPacket (s : State) (e : Nat) : Option (NextPacket × List BindUse × Nat × Nat) :=
  let g := s.engine e
  s.nextIn e g.binds g.step g.idx

/-- The shape words of a packet: its bounds entry and the six words (R48, R49); `none` for static shapes. -/
def State.shapeWords (s : State) (p : NextPacket) : Option (List Nat) :=
  if p.packet.bound = 0xFFFF then none
  else some ((List.range 6).map (fun i => s.ld 4 (p.packet.shapes + 4 * i)))

def State.boundsOf (s : State) (p : NextPacket) : List Nat × Nat :=
  match s.tableOf p.bind.addr 6 with
  | some t => let a := t.base + 32 * p.packet.bound
    ((List.range 6).map (fun i => s.ld 4 (a + 4 * i)), s.ld 2 (a + 24))
  | none => ([0, 0, 0, 0, 0, 0], 0)

/-- The outcome of the shape check at start (R49): a fault code, or 0. -/
def shapeCheck (ws bounds : List Nat) (used : Nat) : Nat :=
  if (indexed ws).any (fun iw => decide (used ≤ iw.1) && iw.2 != 0) then 1
  else if (indexed ws).any (fun iw => decide (iw.1 < used) && decide (listGet 0 bounds iw.1 < iw.2)) then 2
  else 0

/-- The value of dimension `i`: the shape word where the packet has them, else the static value. -/
def Run.dim (r : Run) (i static : Nat) : Nat :=
  if r.shapes.isEmpty then static else if i < r.dimsUsed then listGet 0 r.shapes i else static

/-- O_s, the offset of a packet's stream in its step (R240). -/
def rngBaseOf (rngOffset stepBase step : Nat) : Nat := (rngOffset + (stepBase + step) * 2 ^ 40) % 2 ^ 64

/-- The job-wide seed of the generator (R249), from the job table in force. -/
def JobTable.field (j : JobTable) (o n : Nat) : Nat := leNat ((j.bytes.drop o).take n)
def State.job (s : State) : JobTable := s.binding.activeJob.getD {}

/-! ## Element access -/

/-- The bytes of element `i` of a plain format at `base`, as a value. -/
def decodePlainBytes (f : Fmt) (bs : List Byte) : Fp := decodePlain f (leNat bs)

/-- The values of `n` elements of a plain format from their bytes. -/
def decodePlains (f : Fmt) (n : Nat) (bs : List Byte) : List Fp :=
  let w := f.elemBits / 8
  (List.range n).map (fun i => decodePlainBytes f ((bs.drop (w * i)).take w))

/-- The values of whole blocks from an element plane and a scale plane (R57). -/
def decodeBlocks (f : Fmt) (tau : Int) (mo : Moment) (n : Nat) (elems scales : List Byte) : List Fp :=
  let es := unpackElems f.elemBits n elems
  (indexed es).map (fun ie =>
    let b := ie.1 / f.block
    decodeScaled f tau mo (leNat ((scales.drop (b * f.scaleBytes)).take f.scaleBytes)) ie.2)

/-- The values of `n` elements of any format. -/
def decodeAny (f : Fmt) (tau : Int) (mo : Moment) (n : Nat) (elems scales : List Byte) : List Fp :=
  if f.scaled then decodeBlocks f tau mo n elems scales else decodePlains f n elems

/-- Conversion of values to a plain format: the bytes. -/
def encodePlains (f : Fmt) (ovfNan : Bool) (rnd : Nat → Rnd) (xs : List Fp) : List Byte :=
  (indexed xs).flatMap (fun ix => leBytes (f.elemBits / 8) (convPlain f ovfNan (rnd ix.1) ix.2))

/-- Conversion of values to a block-scaled format along the list: the element bytes and the scale bytes. -/
def encodeBlocks (f : Fmt) (ovfNan : Bool) (tau : Int) (mo : Moment) (rnd : Nat → Rnd) (xs : List Fp) :
    List Byte × List Byte :=
  let blocks := chunksOf f.block (xs.length + 1) xs
  let encs := (indexed blocks).map (fun ib =>
    encodeBlock f ovfNan tau mo (fun k => rnd (ib.1 * f.block + k)) ib.2)
  (packElems f.elemBits (encs.flatMap (fun e => e.2)), encs.flatMap (fun e => leBytes f.scaleBytes e.1))

end Sys2Proof.Machine
end

