-- ==== Sys2Proof/Machine/Codec.lean ====
section
/-!
DEFINITION. Machine/Codec.lean: the activation codec's bitstream as functions on bytes (R217 to R227): profiles, the
lossless planes, the closed loop of the quantising kinds, records, headers, and what a decoder rejects.
-/

namespace Sys2Proof.Machine

/-- A profile descriptor (R217). -/
structure Profile where
  kind : Nat
  src : Fmt
  ovfNan : Bool
  g : Nat
  stride : Nat
  period : Nat
  bytes : List Byte
  deriving DecidableEq, Repr

/-- A descriptor legal under R217; `none` for any other, kind 0x0 included. -/
def profileOf (bs : List Byte) : Option Profile :=
  let kind := leNat (bs.take 1) % 16
  let sf := leNat (bs.take 1) / 16
  let cvt := leNat ((bs.drop 1).take 1)
  let g := leNat ((bs.drop 2).take 1)
  let f := leNat ((bs.drop 4).take 4)
  let p := leNat ((bs.drop 8).take 4)
  let zero := leNat ((bs.drop 3).take 1) == 0 && leNat ((bs.drop 12).take 4) == 0
  let temporal := kind == 3 || kind == 4
  let srcOk := if kind = 1 then sf == 1 || sf == 2 else decide (sf ≤ 2)
  let cvtOk := if kind = 1 then cvt == 0
    else match Cvt.ofByte cvt with
      | some c => c.fmt == .mxE4m3 && !c.sr
      | none => false
  let frameOk := if temporal then
      decide (1 ≤ g) && decide (g ≤ 16) && f % 32 == 0 && decide (32 ≤ f) && decide (f ≤ 268435456) &&
        decide (1 ≤ p) && decide (p ≤ 65535)
    else g == 0 && f == 0 && p == 0
  if bs.length == 16 && decide (1 ≤ kind) && decide (kind ≤ 4) && zero && srcOk && cvtOk && frameOk then
    match Fmt.ofCode sf with
    | some s => some { kind := kind, src := s, ovfNan := (match Cvt.ofByte cvt with | some c => c.ovfNan | none => false),
                       g := g, stride := f, period := p, bytes := bs }
    | none => none
  else none

def Profile.elemBytes (p : Profile) : Nat := p.src.elemBits / 8

/-- F for a grain of n elements (R218). -/
def Profile.frame (p : Profile) (n : Nat) : Nat := if p.kind = 2 then alignUp n 32 else p.stride

/-- Whether grain frame `k` is a key frame (R218). -/
def Profile.key (p : Profile) (k : Nat) : Bool := k == 0 || (p.kind != 2 && k % p.period % p.g == 0)

/-! ## LOSSLESS-BF16 (R219, R223) -/

/-- Bytes that occur at least twice, most frequent first, then by value: the table of at most 14. -/
def loTable (plane : List Byte) : List Byte :=
  let counts := (List.range 256).filterMap (fun v =>
    let c := (plane.filter (fun b => b.toNat == v)).length
    if 2 ≤ c then some (c, v) else none)
  let sorted := counts.mergeSort (fun a b => decide (b.1 < a.1) || (a.1 == b.1 && decide (a.2 ≤ b.2)))
  (sorted.take 14).map (fun cv => BitVec.ofNat 8 cv.2)

/-- How many bytes at the front equal `b`. -/
def leadRun (b : Byte) : List Byte → Nat
  | [] => 0
  | x :: xs => if x = b then leadRun b xs + 1 else 0

/-- The nibbles of a plane (R219), by fuel. -/
def loSymbols (table : List Byte) : Nat → Option Byte → List Byte → List Nat
  | 0, _, _ => []
  | fuel + 1, prev, bs =>
    match bs with
    | [] => []
    | b :: rest =>
      let r := match prev with
        | some p => leadRun p bs
        | none => 0
      if 2 ≤ r then
        let k := capAt 17 r
        [0xE, k - 2] ++ loSymbols table fuel prev (bs.drop k)
      else
        let sym := match table.findIdx? (fun t => t == b) with
          | some i => [i]
          | none => [0xF, b.toNat % 16, b.toNat / 16]
        sym ++ loSymbols table fuel (some b) rest

/-- Nibbles as bytes, low nibble first; a final unpaired nibble is padded with 0x0. -/
def packNibbles : List Nat → List Byte
  | [] => []
  | [a] => [BitVec.ofNat 8 a]
  | a :: b :: t => BitVec.ofNat 8 (a + 16 * b) :: packNibbles t

/-- Every second byte, from the first. -/
def evens {α : Type} : List α → List α
  | [] => []
  | [a] => [a]
  | a :: _ :: t => a :: evens t

/-- One chunk record. -/
def loChunk (bs : List Byte) : List Byte :=
  let low := evens bs
  let high := evens (bs.drop 1)
  let m := low.length
  let table := loTable high
  let coded := packNibbles (loSymbols table (m + 1) none high)
  let head := fun (len : Nat) => leBytes 2 len ++ [BitVec.ofNat 8 table.length, 0#8] ++
    (table ++ List.replicate 14 0#8).take 14
  if m ≤ coded.length then head 0xFFFF ++ high ++ low else head coded.length ++ coded ++ low

/-- Decode the nibbles of a coded plane of `m` bytes: the plane and the nibbles left. -/
def loDecode (table : List Byte) : Nat → Option Byte → Nat → List Nat → Option (List Byte × List Nat)
  | 0, _, _, _ => none
  | fuel + 1, prev, m, ns =>
    if m = 0 then some ([], ns)
    else match ns with
      | [] => none
      | 0xE :: c :: rest =>
        match prev with
        | none => none
        | some p =>
          if m < c + 2 then none
          else (loDecode table fuel prev (m - (c + 2)) rest).map (fun r => (List.replicate (c + 2) p ++ r.1, r.2))
      | 0xF :: lo :: hi :: rest =>
        let b := BitVec.ofNat 8 (lo + 16 * hi)
        (loDecode table fuel (some b) (m - 1) rest).map (fun r => (b :: r.1, r.2))
      | i :: rest =>
        if i < table.length then
          let b := listGet 0#8 table i
          (loDecode table fuel (some b) (m - 1) rest).map (fun r => (b :: r.1, r.2))
        else none

def interleave {α : Type} : List α → List α → List α
  | a :: as, b :: bs => a :: b :: interleave as bs
  | _, _ => []

/-- One chunk record decoded: its raw bytes and what follows it. -/
def loChunkDecode (m : Nat) (bs : List Byte) : Option (List Byte × List Byte) :=
  let hl := leNat (bs.take 2)
  let ts := leNat ((bs.drop 2).take 1)
  let tbl := (bs.drop 4).take 14
  if bs.length < 18 || leNat ((bs.drop 3).take 1) != 0 || decide (14 < ts) || (tbl.drop ts).any (fun b => b != 0#8) then none
  else
    let body := bs.drop 18
    let take := if hl = 0xFFFF then m else hl
    if body.length < take + m then none
    else
      let high := if hl = 0xFFFF then some (body.take m)
        else if hl = 0 ∨ m ≤ hl then none
        else
          let ns := (body.take hl).flatMap (fun b => [b.toNat % 16, b.toNat / 16])
          match loDecode (tbl.take ts) (m + 1) none m ns with
          | some (p, []) => some p
          | some (p, [0]) => some p
          | _ => none
      match high with
      | some h => some (interleave ((body.drop take).take m) h, body.drop (take + m))
      | none => none

def loChunksDecode : Nat → Nat → List Byte → Option (List Byte)
  | 0, _, _ => none
  | fuel + 1, n, bs =>
    if n = 0 then (if bs.isEmpty then some [] else none)
    else match loChunkDecode (capAt 2048 n) bs with
      | some (raw, rest) => (loChunksDecode fuel (n - capAt 2048 n) rest).map (fun r => raw ++ r)
      | none => none

/-! ## The closed loop (R220, R224) -/

/-- What an encode makes: the stored records, the raw region as it is left, and the two block counts of R231. -/
structure EncOut where
  form : List Byte := []
  raw : List Byte := []
  zeros : Nat := 0
  nans : Nat := 0
  deriving DecidableEq, Repr

/-- Values filled to whole blocks with +0. -/
def fillTo (b : Nat) (xs : List Fp) : List Fp := xs ++ List.replicate (alignUp xs.length b - xs.length) Fp.zero

/-- The FP32 value of an exact number. -/
def fp32Of (x : Fp) : Fp := ofF32 (toF32 x)

/-- τ of a residual frame (R220): ⌈log2(a ÷ 688,128)⌉ clamped; 0 when a is 0. -/
def frameTau (rs : List Fp) : Int :=
  match amaxOf rs with
  | .fin _ m e =>
    if m = 0 then 0
    else
      let l := (Nat.log2 m : Int) + e - 21
      let fits := fun (t : Int) => !magGt m e (21 * 2 ^ 15) t
      let t := if fits l then l else if fits (l + 1) then l + 1 else if fits (l + 2) then l + 2 else l + 3
      if t < -126 then -126 else if 126 < t then 126 else t
  | _ => 126

/-- One frame coded: its bytes, the reconstruction, zero blocks and NaN blocks. -/
def codeFrame (p : Profile) (key : Bool) (src ref : List Fp) : List Byte × List Fp × Nat × Nat :=
  let f : Fmt := if key then .mxE4m3 else if p.kind = 3 then .mxfp4 else .hb4
  let r := (src.zip ref).map (fun sr => fp32Of (Fp.sub (fp32Of sr.1) (fp32Of sr.2)))
  let tau : Int := if f = .hb4 then frameTau r else 0
  let blocks := chunksOf f.block (r.length + 1) (fillTo f.block r)
  let encs := blocks.map (fun b => encodeBlock f (key && p.ovfNan) tau .first (fun _ => .rne) b)
  let isNan := fun (e : Nat × List Nat) => (decodeScale f tau e.1).isNaN
  let isZero := fun (e : Nat × List Nat) => !key && !isNan e && e.2.all (fun x => x == 0)
  let deq := encs.flatMap (fun e =>
    if isZero e then e.2.map (fun _ => Fp.zero) else e.2.map (fun x => decodeScaled f tau .first e.1 x))
  let xh := (ref.zip deq).map (fun rd =>
    decodePlain p.src (convPlain p.src false .rne (fp32Of (Fp.add (fp32Of rd.1) (fp32Of rd.2)))))
  let rec' := fun (e : Nat × List Nat) => leBytes 1 e.1 ++ packElems f.elemBits e.2
  let nans := (encs.filter isNan).length
  if key then (encs.flatMap rec', xh, 0, nans)
  else
    let live := encs.filter (fun e => !isZero e)
    let map := (indexed encs).foldl (fun a ie => if isZero ie.2 then a else a + 2 ^ ie.1) 0
    ([BitVec.ofNat 8 (ofSigned 8 tau), 0#8, 0#8, 0#8] ++ leBytes 4 live.length ++
      leBytes (ceilDiv encs.length 64 * 8) map ++ live.flatMap rec', xh, encs.length - live.length, nans)

/-- Pad a record to 64 bytes and write its length (R224). -/
def groupRecord (p : Profile) (first : Nat) (frames : List (List Byte)) : List Byte :=
  let body := frames.flatten
  let len := alignUp (16 + body.length) 64
  let code := if frames.length = 1 then 0 else if p.kind = 3 then 9 else 11
  leBytes 4 first ++ leBytes 2 frames.length ++ [BitVec.ofNat 8 code, 0#8] ++ leBytes 4 len ++ leBytes 4 0 ++ body ++
    List.replicate (len - 16 - body.length) 0#8

/-- The frames of a grain coded in order. `group` holds the frames of the record being built, newest first. -/
def codeFrames (p : Profile) : Nat → List (List Fp) → List Fp → Nat → List (List Byte) → EncOut → EncOut
  | _, [], _, first, group, out =>
    { out with form := out.form ++ (if group.isEmpty then [] else groupRecord p first group.reverse) }
  | k, fr :: rest, prev, first, group, out =>
    let key := p.key k
    let ref := if key then fr.map (fun _ => Fp.zero) else prev
    let (bytes, xh, z, nn) := codeFrame p key fr ref
    let keep := !rest.isEmpty && !p.key (k + 1)
    let raw := encodePlains p.src false (fun _ => .rne) (if keep then xh else fr)
    let out := { out with zeros := out.zeros + z, nans := out.nans + nn, raw := out.raw ++ raw }
    if key ∧ !group.isEmpty then
      codeFrames p (k + 1) rest xh k [bytes] { out with form := out.form ++ groupRecord p first group.reverse }
    else codeFrames p (k + 1) rest xh (if key then k else first) (bytes :: group) out

/-- The grain header (R222). -/
def codecHeader (p : Profile) (raw stored records grain : Nat) (body : List Byte) : List Byte :=
  let h := leBytes 4 0x47434E48 ++ [1#8, 0#8, 0#8, 0#8] ++ p.bytes ++ leBytes 4 raw ++ leBytes 4 stored ++
    leBytes 4 records ++ leBytes 4 grain ++ leBytes 4 (crc32c body)
  h ++ leBytes 4 (crc32c h) ++ List.replicate 16 0#8

/-- Encode raw bytes (R218 to R226): the whole stored form, its header first in the list. Elements that are not coded
again keep their source bytes. -/
def codecEncode (p : Profile) (grain : Nat) (raw : List Byte) : EncOut :=
  if p.kind = 1 then
    let cs := chunksOf 4096 (raw.length + 1) raw
    let body := cs.flatMap loChunk
    { form := codecHeader p raw.length (64 + body.length) cs.length grain body ++ body, raw := raw }
  else
    let n := raw.length / p.elemBytes
    let f := p.frame n
    let frames := chunksOf f (n + 1) (decodePlains p.src n raw)
    let out := codeFrames p 0 frames [] 0 [] {}
    let records := ((List.range frames.length).filter p.key).length
    -- a frame that is not rewritten keeps its source encodings, NaN payloads included
    let kept := (List.range frames.length).flatMap (fun k =>
      let w := f * p.elemBytes
      if k + 1 < frames.length ∧ !p.key (k + 1) then (out.raw.drop (w * k)).take w else (raw.drop (w * k)).take w)
    { out with form := codecHeader p raw.length (64 + out.form.length) records grain out.form ++ out.form, raw := kept }

/-- Decode one frame of `m` elements against its reference; the fill of its last block is dropped (R218, R220). -/
def decodeFrame (p : Profile) (key : Bool) (m : Nat) (ref : List Fp) (bs : List Byte) :
    Option (List Fp × List Byte) :=
  let f : Fmt := if key then .mxE4m3 else if p.kind = 3 then .mxfp4 else .hb4
  let nb := ceilDiv m f.block
  let recLen := 1 + f.elemBytes f.block
  let finish := fun (tau : Int) (blocks : List (Option (List Byte))) (rest : List Byte) =>
    let deq := blocks.flatMap (fun b => match b with
      | none => List.replicate f.block Fp.zero
      | some r => (unpackElems f.elemBits f.block (r.drop 1)).map (decodeScaled f tau .first (leNat (r.take 1))))
    some (((ref.take m).zip deq).map (fun rd =>
      decodePlain p.src (convPlain p.src false .rne (fp32Of (Fp.add (fp32Of rd.1) (fp32Of rd.2))))), rest)
  if key then
    if bs.length < nb * recLen then none
    else finish 0 ((List.range nb).map (fun i => some ((bs.drop (i * recLen)).take recLen))) (bs.drop (nb * recLen))
  else
    let mapLen := ceilDiv nb 64 * 8
    let tau := signedOf 8 (leNat (bs.take 1))
    let cnt := leNat ((bs.drop 4).take 4)
    let map := leNat ((bs.drop 8).take mapLen)
    let set := ((List.range (8 * mapLen)).filter (fun i => bitOf map i)).length
    let live := ((List.range nb).filter (fun i => bitOf map i)).length
    if bs.length < 8 + mapLen || leNat ((bs.drop 1).take 3) != 0 || !tauOk (p.kind != 3) (leNat (bs.take 1)) || set != live ||
        live != cnt || decide (bs.length < 8 + mapLen + cnt * recLen) then none
    else
      let recs := bs.drop (8 + mapLen)
      let blocks := (List.range nb).map (fun i =>
        if bitOf map i then
          let before := ((List.range i).filter (fun j => bitOf map j)).length
          some ((recs.drop (before * recLen)).take recLen)
        else none)
      finish tau blocks (recs.drop (cnt * recLen))

/-- Decode the frames of one group. -/
def decodeGroup (p : Profile) : List Nat → Bool → List Fp → List Byte → Option (List (List Fp) × List Byte)
  | [], _, _, bs => some ([], bs)
  | m :: ms, key, prev, bs =>
    let ref := if key then List.replicate m Fp.zero else prev
    match decodeFrame p key m ref bs with
    | some (xs, rest) => (decodeGroup p ms false xs rest).map (fun r => (xs :: r.1, r.2))
    | none => none

/-- Decode the frame-group records from frame `k` on; `sizes` are the element counts of the frames that remain. -/
def decodeGroups (p : Profile) : Nat → Nat → List Nat → List Byte → Option (List Fp)
  | 0, _, _, _ => none
  | fuel + 1, k, sizes, bs =>
    match sizes with
    | [] => if bs.isEmpty then some [] else none
    | _ =>
      let later := ((List.range sizes.length).drop 1).find? (fun i => p.key (k + i))
      let cnt := later.getD sizes.length
      let code := if cnt = 1 then 0 else if p.kind = 3 then 9 else 11
      let len := leNat ((bs.drop 8).take 4)
      if bs.length < 16 || leNat (bs.take 4) != k || leNat ((bs.drop 4).take 2) != cnt ||
          leNat ((bs.drop 6).take 1) != code || leNat ((bs.drop 7).take 1) != 0 || leNat ((bs.drop 12).take 4) != 0 ||
          decide (bs.length < len) || decide (len < 16) then none
      else match decodeGroup p (sizes.take cnt) true [] ((bs.take len).drop 16) with
        | some (frames, rest) =>
          if alignUp (len - rest.length) 64 = len then
            (decodeGroups p fuel (k + cnt) (sizes.drop cnt) (bs.drop len)).map (fun r => frames.flatten ++ r)
          else none
        | none => none

/-- Decode a stored form (R227). `expect` holds a grain's fill_bytes, stored_bytes and index; a codec job skips that
check. -/
def codecDecode (expect : Option (Nat × Nat × Nat)) (form : List Byte) : Option (List Byte) :=
  let raw := leNat ((form.drop 0x18).take 4)
  let stored := leNat ((form.drop 0x1C).take 4)
  let records := leNat ((form.drop 0x20).take 4)
  let grain := leNat ((form.drop 0x24).take 4)
  let body := (form.take stored).drop 64
  let headOk := decide (64 ≤ form.length) && leNat (form.take 4) == 0x47434E48 && leNat ((form.drop 4).take 1) == 1 &&
    leNat ((form.drop 5).take 3) == 0 && leNat ((form.drop 0x30).take 16) == 0 && decide (64 ≤ stored) &&
    decide (stored ≤ form.length) && leNat ((form.drop 0x2C).take 4) == crc32c (form.take 0x2C) &&
    leNat ((form.drop 0x28).take 4) == crc32c body && decide (grain < 2 ^ 20)
  let match' := match expect with
    | some (r, st, g) => raw == r && stored == st && grain == g
    | none => true
  match profileOf ((form.drop 8).take 16) with
  | none => none
  | some p =>
    if !headOk || !match' || raw % p.elemBytes != 0 || raw == 0 then none
    else
      let n := raw / p.elemBytes
      if p.kind = 1 then
        if records = ceilDiv n 2048 then loChunksDecode (n + 1) n body else none
      else
        let f := p.frame n
        let cnt := ceilDiv n f
        let sizes := (List.range cnt).map (fun k => capAt f (n - k * f))
        if records = ((List.range cnt).filter p.key).length then
          (decodeGroups p (cnt + 1) 0 sizes body).map (encodePlains p.src false (fun _ => .rne))
        else none

/-- Whether any block of a stored form decodes as NaN is counted by the encoder; `R225`'s bound is never exceeded. -/
def codecBound (p : Profile) (n : Nat) : Nat :=
  if p.kind = 1 then 64 + ceilDiv n 2048 * 18 + 2 * n
  else 64 + 130 * ceilDiv n (p.frame n) + 33 * ceilDiv n 32 + ceilDiv n 128

end Sys2Proof.Machine
end

