-- ==== Sys2Proof/Machine/Flags.lean ====
section
/-!
DEFINITION. Machine/Flags.lean: what the module reports without being asked (spec/24): records, their shedding by
level, and the alarm latches. Every fault, alarm, log and trace of the other files is raised through here.
-/

namespace Sys2Proof.Machine

/-- A hub source of R417. -/
def hubSrc (cls inst : Nat) : Nat := engineId cls 0xFF inst
def srcTick : Nat := hubSrc 0x10 0
def srcClk : Nat := hubSrc 0x11 0
def srcPwr : Nat := hubSrc 0x12 0
def srcSec : Nat := hubSrc 0x13 0
def srcCmd (r : Nat) : Nat := hubSrc 0x14 r
def srcFab (p : Nat) : Nat := hubSrc 0x15 p
def srcRau (st : Nat) : Nat := hubSrc 0x17 st
def srcSnap : Nat := hubSrc 0x18 0
def srcTel : Nat := hubSrc 0x19 0
def srcHub : Nat := hubSrc 0x1A 0

/-- Whether an identifier names a source (R417). -/
def isSource (x : Nat) : Bool :=
  isEngine x ||
    (engDie x == 0xFF && decide (x < 2 ^ 32) && (match engClass x with
      | 0x10 | 0x11 | 0x12 | 0x13 | 0x16 | 0x18 | 0x19 | 0x1A => engInst x == 0
      | 0x14 | 0x15 => decide (engInst x < 4)
      | 0x17 => decide (engInst x < 12)
      | _ => false))

def State.src (s : State) (x : Nat) : TelSrc := Tbl.get (fun _ => {}) s.tel.srcs x
def State.modSrc (s : State) (x : Nat) (f : TelSrc → TelSrc) : State :=
  { s with tel := { s.tel with srcs := Tbl.set (fun _ => {}) s.tel.srcs x (f (s.src x)) } }

/-- C, the records the ring holds (R418). -/
def State.ringCap (s : State) : Nat := s.reg rTelRingBytes / 64
/-- F, the free records of the ring (R418). -/
def State.ringFree (s : State) : Nat := s.ringCap - (s.reg rTelWriteIndex - s.reg rTelReadIndex)

/-- The level that free space and queue occupancy give (R424). -/
def State.levelNow (s : State) : Nat :=
  let c := s.ringCap
  let f := s.ringFree
  let byF := if c / 2 ≤ f then 0 else if c / 4 ≤ f then 1 else if c / 16 ≤ f then 2 else 3
  let q := s.tel.queue.length
  let byQ := if q < 1024 then 0 else if q < 2048 then 1 else if q < 3072 then 2 else 3
  if byF ≤ byQ then byQ else byF

/-- The 64 bytes of a record (R419). -/
def TelRec.bytes (r : TelRec) : List Byte :=
  leBytes 8 r.seq ++ leBytes 8 r.tick ++ leBytes 4 r.source ++
    [BitVec.ofNat 8 r.cls, BitVec.ofNat 8 r.kind, BitVec.ofNat 8 r.code, 0#8] ++
    (r.body ++ List.replicate 40 0#8).take 40

/-- Write a record at WRITE_INDEX and advance it (R418); the caller has seen that F is above 0. -/
def State.writeRec (s : State) (r : TelRec) : State :=
  let n := s.reg rTelWriteIndex
  let c := s.ringCap
  let s := s.store none (s.reg rTelRingBase + (if c = 0 then 0 else n % c) * 64) r.bytes
  s.setReg rTelWriteIndex (n + 1)

/-- A record of the TEL source written at once, outside the queue (R425): SHED_BEGIN, SHED_END and SUMMARY. -/
def State.writeNow (s : State) (source cls kind code : Nat) (body : List Byte) : State :=
  let r : TelRec := { seq := s.tel.seq, tick := s.tick.now.toNat, source := source, cls := cls, kind := kind,
                      code := code, body := body }
  let s := { s with tel := { s.tel with seq := s.tel.seq + 1 } }
  if s.ringFree = 0 then s else s.writeRec r

/-- The level rises in the cycle in which its condition is met; from 0 that begins a shedding episode (R424, R425). -/
def State.raiseLevel (s : State) : State :=
  let l := s.levelNow
  if l ≤ s.tel.level then s
  else
    let was := s.tel.level
    let s := { s with tel := { s.tel with level := l, high := if s.tel.high < l then l else s.tel.high } }
    if was = 0 then
      let s := { s with tel := { s.tel with high := l, epTr := 0, epSum := 0, epLo := 0, epAl := 0 } }
      (((s.writeNow srcTel 4 1 0 (leBytes 1 l)).setFlag rTelStatus 2 true).count rTelCtrEPISODES 1)
    else s

/-- A shed record is counted where its class is counted (R423, R425, R426). -/
def State.shed (s : State) (r : TelRec) : State :=
  match r.cls with
  | 1 =>
    let t := s.modSrc r.source (fun x => { x with recDropped := capAt (2 ^ 32 - 1) (x.recDropped + 1) })
    { t with tel := { t.tel with epAl := t.tel.epAl + 1 } }
  | 2 =>
    let t := s.modSrc r.source (fun x => { x with loD := x.loD + 1 })
    { t with tel := { t.tel with epLo := t.tel.epLo + 1 } }
  | 3 =>
    let t := s.modSrc r.source (fun x => { x with trD := x.trD + 1 })
    { t with tel := { t.tel with epTr := t.tel.epTr + 1 } }
  | _ => s

/-- Whether TEL_SELECT lets a record be emitted (R422). -/
def State.selected (s : State) (source cls kind : Nat) : Bool :=
  match cls with
  | 2 => bitOf s.tel.logSel (kind - 1)
  | 3 => bitOf s.tel.traceSel (engClass source)
  | _ => true

/-- An emitted log or trace is counted for its source (R426): as the collector takes it from its queue, or as the full queue sheds
it, so that the identities of R426 hold at every copy (log 30). -/
def State.countEmitted (s : State) (source cls : Nat) : State :=
  match cls with
  | 2 => s.modSrc source (fun x => { x with loE := x.loE + 1 })
  | 3 => s.modSrc source (fun x => { x with trE := x.trE + 1 })
  | _ => s

/-- Emit a record (R419, R422, R424): it takes its sequence number and joins the queue; a full queue sheds it (log 30). -/
def State.emit (s : State) (source cls kind code : Nat) (body : List Byte) : State :=
  if !s.selected source cls kind then s
  else
    let r : TelRec := { seq := s.tel.seq, tick := s.tick.now.toNat, source := source, cls := cls, kind := kind,
                        code := code, body := body }
    let s := { s with tel := { s.tel with seq := s.tel.seq + 1 } }
    if 4096 ≤ s.tel.queue.length then (s.countEmitted source cls).shed r
    else State.raiseLevel { s with tel := { s.tel with queue := s.tel.queue ++ [r] } }

/-- The body of an alarm record (R421). -/
def alarmBody (x : TelSrc) (codes : BitVec 64) : List Byte :=
  leBytes 8 codes.toNat ++ leBytes 8 x.count ++ leBytes 8 x.first ++ leBytes 8 x.last

/-- Raise an alarm code on a source (R423). The first raising tick is the first since the module reset (log 31). -/
def State.alarm (s : State) (source code : Nat) : State :=
  let x := s.src source
  let now := s.tick.now.toNat
  let codes := x.codes ||| BitVec.ofNat 64 (2 ^ code)
  let y := { x with codes := codes, count := x.count + 1, first := if x.count = 0 then now else x.first, last := now }
  let s' := s.modSrc source (fun _ => y)
  if codes = x.codes then s' else s'.emit source 1 1 code (alarmBody y codes)

/-- An uncorrectable memory error is counted (R429). -/
def State.memBad (s : State) : State := s.count rTelCtrMEMUNCORRECTABLE 1

/-- The grain trace (R421). -/
def State.grainTrace (s : State) (die g old new : Nat) : State :=
  s.emit (engineId 8 die 0) 3 3 0 (leBytes 4 g ++ leBytes 1 old ++ leBytes 1 new)

/-! ## The rows of the collector -/

/-- A written log or trace is counted for its source (R426). -/
def State.countWritten (s : State) (source cls : Nat) : State :=
  match cls with
  | 2 => s.modSrc source (fun x => { x with loW := x.loW + 1 })
  | 3 => s.modSrc source (fun x => { x with trW := x.trW + 1 })
  | _ => s

/-- A record leaves the queue for the ring; a full ring sheds it (R424). -/
def State.putRec (s : State) (r : TelRec) : State :=
  if s.ringFree = 0 then s.shed r else ((s.writeRec r).countWritten r.source r.cls).raiseLevel

/-- A log held back at level 2, for the SUMMARY of its source (R425). -/
def State.holdLog (s : State) (r : TelRec) : State :=
  s.modSrc r.source (fun x =>
    { x with sumCount := x.sumCount + 1, sumFirst := if x.sumCount = 0 then r.tick else x.sumFirst,
             sumLast := r.tick, sumCode := r.code,
             sumAt := if x.sumCount = 0 then s.tick.now.toNat else x.sumAt })

/-- A record taken from the queue: by the level in force written, held for a summary, or shed (R424). -/
def State.placeRec (s : State) (r : TelRec) : State :=
  let s := s.countEmitted r.source r.cls
  match r.cls with
  | 3 => if s.tel.level = 0 then s.putRec r else s.shed r
  | 2 => if s.tel.level ≤ 1 then s.putRec r else if s.tel.level = 2 then s.holdLog r else s.shed r
  | _ => s.putRec r

/-- TELEMETRY_RECORD (R424, R425): the oldest queued record is written, summarised or dropped by level. -/
def execTelemetryRecord (s : State) : Answer :=
  answer s (match s.tel.queue with
    | [] => s
    | r :: rest => State.placeRec { s with tel := { s.tel with queue := rest } } r)

/-- SHED_LEVEL_FALL (R424, R425): the lower level's condition has held for 100 µs; the level falls by one, and a return
to 0 ends the episode. -/
def execShedLevelFall (s : State) : Answer :=
  answer s (
    if s.levelNow < s.tel.level then
      let t := { s with tel := { s.tel with level := s.tel.level - 1 } }
      if t.tel.level = 0 then
        t.writeNow srcTel 4 2 0 (leBytes 8 t.tel.high ++ leBytes 8 t.tel.epTr ++ leBytes 8 t.tel.epSum ++
          leBytes 8 t.tel.epLo ++ leBytes 8 t.tel.epAl)
      else t
    else s)

/-- SUMMARY (R425): at the first tick edge after the suppression a source's waiting logs are covered by one SUMMARY
record; where it cannot be written, at level 3 or with its kind not selected (log 72), the logs count as dropped. -/
def execSummary (source : Nat) (s : State) : Answer :=
  answer s (
    let x := s.src source
    if x.sumCount = 0 ∨ s.tick.now.toNat ≤ x.sumAt then s
    else if decide (s.tel.level < 3) && s.selected source 2 2 then
      let t := s.modSrc source (fun x => { x with loS := x.loS + x.sumCount, sumCount := 0 })
      let t := { t with tel := { t.tel with epSum := t.tel.epSum + x.sumCount } }
      (t.writeNow source 2 2 0 (leBytes 8 x.sumCount ++ leBytes 8 x.sumFirst ++ leBytes 8 x.sumLast ++
        leBytes 1 x.sumCode)).raiseLevel
    else
      let t := s.modSrc source (fun x => { x with loD := x.loD + x.sumCount, sumCount := 0 })
      { t with tel := { t.tel with epLo := t.tel.epLo + x.sumCount } })

end Sys2Proof.Machine
end

