-- ==== Sys2Proof/Machine/Audit.lean ====
section
/-!
DEFINITION. Machine/Audit.lean: the audit log (R413, R414): entries, the hash chain, checkpoints and truncation.
-/

namespace Sys2Proof.Machine

/-- Entries the 64 units of 1 MiB hold (R413). -/
def auditCap : Nat := 64 * 8192

/-- The first 64 bytes and the chain field of the next entry (R413). -/
def State.auditHead (s : State) (kind status role word : Nat) : List Byte :=
  leBytes 8 (s.reg rSecAuditNext) ++ leBytes 8 s.tick.now.toNat ++ leBytes 8 (s.reg rClkRtc) ++ leBytes 2 kind ++
    leBytes 1 status ++ leBytes 1 role ++ leBytes 4 word

/-- SHA-256 of the whole previous entry, or 32 zero bytes before the first (log 35). -/
def State.auditPrev (s : State) : List Byte :=
  match s.sec.entries.getLast? with
  | some e => sha256 e
  | none => List.replicate 32 0#8

def State.auditPush (s : State) (entry : List Byte) : State :=
  { s.setReg rSecAuditNext (s.reg rSecAuditNext + 1) with
    sec := { s.sec with entries := s.sec.entries ++ [entry], sinceCkpt := s.sec.sinceCkpt + 1 } }

/-- An entry of any kind but a checkpoint. -/
def State.auditRaw (s : State) (kind status role word : Nat) (detail : List Byte) : State :=
  s.auditPush (s.auditHead kind status role word ++ (detail ++ List.replicate 32 0#8).take 32 ++ s.auditPrev ++
    List.replicate 32 0#8)

/-- A checkpoint (R413): signed over bytes 0x00 to 0x1F and 0x40 to 0x5F with the identity key. -/
def State.auditCheckpoint (s : State) : State :=
  let head := s.auditHead 8 0 0 0
  let prev := s.auditPrev
  let (s, k) := s.draw 1
  let sig := ecdsaSign s.nvm.idKey k (sha256 (head ++ prev))
  let s := s.auditPush (head ++ sig.take 32 ++ prev ++ sig.drop 32)
  { s with sec := { s.sec with sinceCkpt := 0 } }

/-- When the log is full, a truncation entry and a checkpoint go in and the oldest unit is erased (R414). -/
def State.auditRoom (s : State) : State :=
  if s.reg rSecAuditNext + 3 ≤ s.reg rSecAuditOldest + auditCap then s
  else
    let last := s.reg rSecAuditOldest + 8191
    let s := (s.auditRaw 9 0 0 (last % 2 ^ 32) (leBytes 8 last)).auditCheckpoint
    let s := (s.setReg rSecAuditOldest (last + 1)).setFlag rSecStatus 7 true
    { s with sec := { s.sec with entries := s.sec.entries.drop 8192 } }

/-- Append an entry, and a checkpoint once the interval is full (R414). -/
def State.audit (s : State) (kind status role word : Nat) (detail : List Byte) : State :=
  let s := (s.auditRoom).auditRaw kind status role word detail
  if s.inst.interval ≤ s.sec.sinceCkpt then s.auditCheckpoint else s

end Sys2Proof.Machine
end

