-- ==== Sys2Proof/Machine/RegWrite.lean ====
section
/-!
DEFINITION. Machine/RegWrite.lean: what a register write does (R11 to R13, R328, R338, R355, R404, R418, R426), by
whichever path it arrives, and writes by engines to any part of the address map.
-/

namespace Sys2Proof.Machine

/-- Whether a set's shadow is frozen: armed and not yet swapped (R355). -/
def State.setArmed (s : State) (i : Nat) : Bool := bitOf (s.reg rHubCfgStatus) i

/-- A ring's configuration is fixed from its enabling until the poll that stops it (R328). -/
def State.ringFixed (s : State) (r : Nat) : Bool := bitOf (s.reg (rCmdCFG r)) 0 || (s.ring r).stopping

/-- A write that sets ENABLE (R328): refused with CFG_ERR, or the ring starts afresh. -/
def State.ringEnable (s : State) (r v : Nat) : State :=
  let size := bitsOf v 6 2
  let host := !bitOf v 1
  let bad := (host && (decide (size < 4) || decide (16 < size))) || s.reg (rCmdSTATUSBASE r) % 64 != 0 ||
    (host && (s.reg (rCmdBASE r) % 4096 != 0 || s.reg (rCmdHEADADDR r) % 8 != 0))
  if bad then (s.setReg (rCmdCFG r) (v / 2 * 2 % 128)).setFlag (rCmdSTATUS r) 4 true
  else
    let s := ((s.setReg (rCmdCFG r) (v % 128)).setReg (rCmdSTATUS r) 0).setReg (rCmdHEAD r) 0
    let s := s.setReg (rCmdTAIL r) 0
    let s := { s with host := { s.host with reads := s.host.reads.filter (fun x => x != HostRead.slots r) } }
    s.setRing r { s.ring r with stopping := false, fetchFail := 0, slotRetry := false }

/-- A write that clears ENABLE (R328): the ring stops at its next poll. -/
def State.ringDisable (s : State) (r : Nat) : State :=
  (s.setFlag (rCmdCFG r) 0 false).setRing r { s.ring r with stopping := true }

/-- A write of CMD.CFG[r] (R328). -/
def State.writeRingCfg (s : State) (r v : Nat) : State :=
  if s.ringFixed r then
    if bitOf v 0 then
      (if (s.ring r).stopping then s.ringEnable r (s.reg (rCmdCFG r) / 2 * 2 + 1) else s)
    else (if bitOf (s.reg (rCmdCFG r)) 0 then s.ringDisable r else s)
  else if bitOf v 0 then s.ringEnable r v
  else s.setReg (rCmdCFG r) (v % 128)

/-- A write of CMD.CTRL (R338): a field written with an illegal value keeps what it held. -/
def State.writeCmdCtrl (s : State) (v : Nat) : State :=
  let p := bitsOf v 7 0
  let w := bitsOf v 15 8
  let s := if 1 ≤ p ∧ p ≤ 200 then s.setField rCmdCtrl 7 0 p else s
  if w = 0 then s else s.setField rCmdCtrl 15 8 w

/-- A write of TEL.READ_INDEX (R418). -/
def State.writeReadIndex (s : State) (v : Nat) : State :=
  if s.reg rTelWriteIndex < v ∨ v < s.reg rTelReadIndex then s.setFlag rTelStatus 3 true
  else s.setReg rTelReadIndex v

/-- A write of TEL.SRC_SEL (R426): every counter and the latch of that source, in one cycle. -/
def State.writeSrcSel (s : State) (v : Nat) : State :=
  let s := s.setReg rTelSrcSel (v % 2 ^ 32)
  let x := s.src (v % 2 ^ 32)
  let vals := [(rTelWinTRACEEMITTED, x.trE), (rTelWinTRACEWRITTEN, x.trW), (rTelWinTRACEDROPPED, x.trD),
    (rTelWinLOGEMITTED, x.loE), (rTelWinLOGWRITTEN, x.loW), (rTelWinLOGSUMMARISED, x.loS),
    (rTelWinLOGDROPPED, x.loD), (rTelWinALARMCODES, x.codes.toNat), (rTelWinALARMCOUNT, x.count),
    (rTelWinALARMFIRST, x.first), (rTelWinALARMLAST, x.last), (rTelWinALARMRECORDSDROPPED, x.recDropped)]
  vals.foldl (fun t p => t.setReg p.1 (capAt (regTop p.1) p.2)) s

/-- A write of YOYO[Dd].CTRL.SNAP (R211): every counter into its snapshot copy in one cycle. -/
def State.yoyoSnapCopy (s : State) (d : Nat) : State :=
  forN 27 s (fun k t => t.setReg (rYoyoSnap d k) (s.reg (rYoyoCtrTAPRECEIVED d + 8 * k)))

/-- The ring and the register of an offset in the CMD block, if it is a ring's. -/
def ringReg (off : Nat) : Option (Nat × Nat) :=
  if 0x50100 ≤ off ∧ off < 0x50500 then some ((off - 0x50100) / 0x100, (off - 0x50100) % 0x100) else none

/-- The effect of a write on a register whose bits it may change (R11): by access type, and by the rules of the
registers that do more than hold a value. -/
def State.applyWrite (s : State) (r : RegRow) (off v : Nat) : State :=
  if off = rCmdCtrl then s.writeCmdCtrl v
  else if off = rTelReadIndex then s.writeReadIndex v
  else if off = rTelSrcSel then s.writeSrcSel v
  else if off = rHubReset then
    (if s.halt.stage = 0 then { s with resetReq := v % 16 } else s)
  else if off = rYoyoCtrl 0 then (if bitOf v 0 then s.yoyoSnapCopy 0 else s)
  else if off = rYoyoCtrl 1 then (if bitOf v 0 then s.yoyoSnapCopy 1 else s)
  else match ringReg off with
    | some (q, 0x00) => s.writeRingCfg q v
    | some (q, 0x20) => if bitOf (s.reg (rCmdCFG q)) 1 then s.setReg off (v % 2 ^ 32) else s
    | some (q, _) => if s.ringFixed q || r.rw == 0 then s else s.setReg off (v % 2 ^ 64)
    | none =>
      let old := s.reg off
      let m := r.rw ||| r.sh
      let kept := old - (old &&& m) + (v &&& m)
      s.setReg off (kept - (kept &&& (v &&& r.w1c)))

/-- A write of a whole register at its slot offset. -/
def State.writeSlot (s : State) (off v : Nat) : State :=
  match findReg off with
  | none => s
  | some r =>
    if !s.served off then s
    else if r.inst && !s.presence then
      (s.count rSecCtrREGWRITESIGNORED 1).setFlag rSecStatus 5 true
    else if (match r.cset with | some i => s.setArmed i | none => false) then s.count rTelCtrSHWRITESIGNORED 1
    else (if r.inst then s.audit 6 0 0 off (leBytes (if r.wide then 8 else 4) v) else s).applyWrite r off v

/-- Whether a wide register takes halves through its staging latch (R13): RW, SH and WO registers. -/
def stagedAt (off : Nat) : Bool :=
  match findReg off with
  | some r => r.wide && (r.rw != 0 || r.sh != 0 || r.wo != 0)
  | none => false

/-- A 32-bit write at a BAR0 offset (R13, R440). -/
def State.write32 (s : State) (off v : Nat) : State :=
  let slot := off / 8 * 8
  if !wideAt slot then (if off % 8 = 0 then s.writeSlot slot v else s)
  else if !stagedAt slot || !s.served slot then s
  else if off % 8 = 0 then
    { s.dropStaged slot with staging := (slot, BitVec.ofNat 32 v) :: (s.dropStaged slot).staging }
  else
    let low := match s.staging.find? (fun l => l.1 == slot) with
      | some l => l.2.toNat
      | none => s.reg slot % 2 ^ 32
    (s.dropStaged slot).writeSlot slot (low + v % 2 ^ 32 * 2 ^ 32)

/-- A 64-bit write at a slot offset (R13). -/
def State.write64 (s : State) (off v : Nat) : State :=
  ((s.dropLatch off).dropStaged off).writeSlot off (if wideAt off then v % 2 ^ 64 else v % 2 ^ 32)

/-- An engine's write to the control space: 64-bit or 32-bit register writes in address order; bytes that make up
neither are ignored, as through BAR0 (R325, log 36). -/
def State.ctlStore (s : State) (a : Nat) (bs : List Byte) : State :=
  let o := a - ctlBase
  if o % 8 = 0 ∧ bs.length % 8 = 0 then
    (indexed (chunksOf 8 (bs.length + 1) bs)).foldl (fun t ic => t.write64 (o + 8 * ic.1) (leNat ic.2)) s
  else if o % 4 = 0 ∧ bs.length % 4 = 0 then
    (indexed (chunksOf 4 (bs.length + 1) bs)).foldl (fun t ic => t.write32 (o + 4 * ic.1) (leNat ic.2)) s
  else s

/-- A plain write by an engine (R9, R17, R20): the state and a fault code, 0 for none. -/
def State.put (s : State) (eng : Option Nat) (a : Nat) (bs : List Byte) : State × Nat :=
  let n := bs.length
  if n = 0 then (s, 0)
  else if inMem a n then
    if decide (a < stackEnd) && s.stackDead (stackOf a).1 then (s.memBad, 6)
    else if s.partialBad a n ≠ [] then ((s.store eng a bs).memBad, 6)
    else (s.store eng a bs, 0)
  else if inSpace .ctl a n then (s.ctlStore a bs, 0)
  else if s.poolOk a n then ((s.poolPoke a bs).count rPcieCtrTXBYTES n, 0)
  else (s, 1)

/-- Writes in order; the first fault is kept. -/
def State.putAll (s : State) (eng : Nat) (l : List (Nat × List Byte)) : State × Nat :=
  l.foldl (fun (t : State × Nat) p => match t.1.put (some eng) p.1 p.2 with
    | (u, code) => (u, if t.2 = 0 then code else t.2)) (s, 0)

/-- Canonical NaNs, eight of FP32 or sixteen of BF16: what an accumulate-write makes of an uncorrectable word (R55, R429). -/
def nanWord (bf : Bool) : List Byte :=
  (if bf then List.replicate 16 [0xC0#8, 0x7F#8] else List.replicate 8 [0#8, 0#8, 0xC0#8, 0x7F#8]).flatten

/-- One accumulate-write in stack or shared memory (R20, R22, R120, R429): the element, FP32 or with `bf` BF16, is
read, the contribution is added in FP32, and the sum is stored. The alarm of a bad word is raised on the RAU of its stack;
for shared memory, which has no RAU, on TEL (DESIGN CHOICE, log 72). -/
def State.accumulate1 (s : State) (bf : Bool) (a : Nat) (x : W32) : State :=
  let w := a / 32 * 32
  let s := if s.badWords.contains w then
      ((s.storeEcc w (nanWord bf)).memBad).alarm (if a < stackEnd then srcRau (stackOf a).1 else srcTel) 0x2C
    else s
  if bf then
    let old := toF32 (decodePlain .bf16 (leNat (s.peek a 2)))
    s.storeEcc a (leBytes 2 (convPlain .bf16 false .rne (ofF32 (f32Add old x))))
  else s.storeEcc a (leBytes 4 (f32Add (BitVec.ofNat 32 (leNat (s.peek a 4))) x).toNat)

/-- Accumulate contributions at consecutive elements. -/
def State.accumulateAll (s : State) (bf : Bool) (a : Nat) (xs : List W32) : State :=
  (indexed xs).foldl (fun t ix => t.accumulate1 bf (a + (if bf then 2 else 4) * ix.1) ix.2) s

/-- Accumulate contributions at consecutive elements; a region being staged holds them (R294). -/
def State.accumulate (s : State) (eng : Option Nat) (bf : Bool) (a : Nat) (xs : List W32) : State × Nat :=
  let n := (if bf then 2 else 4) * xs.length
  if n = 0 then (s, 0)
  else if !inMem a n then (s, 1)
  else if decide (a < stackEnd) && s.stackDead (stackOf a).1 then (s.memBad, 6)
  else if s.heldAt a n then
    ({ s with snap := { s.snap with held := s.snap.held ++
        [{ addr := a, bytes := xs.flatMap (fun x => leBytes 4 x.toNat), engine := eng,
           accumulate := if bf then 2 else 1 }] } }, 0)
  else (s.accumulateAll bf a xs, 0)

/-! ## The rows of the register bus -/

/-- Payload bytes received and sent by the endpoint (R340). -/
def State.rx (s : State) (n : Nat) : State := s.count rPcieCtrRXBYTES n
def State.tx (s : State) (n : Nat) : State := s.count rPcieCtrTXBYTES n

/-- An access through BAR0 (`bar`) is a memory request of the link and counts there; one from an engine through the
control space is not. -/
def State.barRx (s : State) (bar : Bool) (n : Nat) : State := if bar then s.rx n else s
def State.barTx (s : State) (bar : Bool) (n : Nat) : State := if bar then s.tx n else s

/-- RING_ENABLE (R328): a write of CMD.CFG[r] that sets ENABLE. -/
def execRingEnable (r v : Nat) (bar : Bool) (s : State) : Answer :=
  answerNoMem s (if r < 4 then (s.barRx bar 4).write32 (rCmdCFG r) (v / 2 * 2 + 1) else s)

/-- RING_DISABLE (R328): a write of CMD.CFG[r] that clears ENABLE. -/
def execRingDisable (r v : Nat) (bar : Bool) (s : State) : Answer :=
  answerNoMem s (if r < 4 then (s.barRx bar 4).write32 (rCmdCFG r) (v / 2 * 2) else s)

/-- READ_INDEX_WRITE (R418): a 64-bit write of TEL.READ_INDEX. -/
def execReadIndexWrite (v : Nat) (bar : Bool) (s : State) : Answer :=
  answerNoMem s ((s.barRx bar 8).write64 rTelReadIndex v)

/-- SRC_SEL_WRITE (R426): a write of TEL.SRC_SEL. -/
def execSrcSelWrite (v : Nat) (bar : Bool) (s : State) : Answer :=
  answerNoMem s ((s.barRx bar 4).write32 rTelSrcSel v)

/-- YOYO_CTRL_SNAP (R211): a write of 1 to YOYO[Dd].CTRL.SNAP. -/
def execYoyoCtrlSnap (die : Nat) (bar : Bool) (s : State) : Answer :=
  answerNoMem s (if die < 2 then (s.barRx bar 4).write32 (rYoyoCtrl die) 1 else s)

/-- REGISTER_WRITE (R11 to R13, R355, R404): a single write of a whole register: 64 bits, or with `full` false 32 bits of a
32-bit one (log 1). -/
def execRegisterWrite (off v : Nat) (how : Access) (s : State) : Answer :=
  answerNoMem s (if off % 8 = 0 then (s.barRx how.bar (if how.full || wideAt off then 8 else 4)).write64 off v else s)

/-- LOW_HALF_READ (R13): a 32-bit read at the slot's offset, or, with `full`, a single 64-bit read (log 1). -/
def execLowHalfRead (off : Nat) (full bar : Bool) (s : State) : Answer :=
  let slot := off / 8 * 8
  let (t, v) := if full then s.read64 slot else s.read32 slot
  answerNoMem s { t.barTx bar (if full then 8 else 4) with readData := BitVec.ofNat 64 v }

/-- HIGH_HALF_READ (R13): a 32-bit read of the high half. -/
def execHighHalfRead (off : Nat) (bar : Bool) (s : State) : Answer :=
  let (t, v) := s.read32 (off / 8 * 8 + 4)
  answerNoMem s { t.barTx bar 4 with readData := BitVec.ofNat 64 v }

/-- LOW_HALF_WRITE (R13): a 32-bit write of the low half, held in the staging latch. -/
def execLowHalfWrite (off v : Nat) (bar : Bool) (s : State) : Answer :=
  answerNoMem s ((s.barRx bar 4).write32 (off / 8 * 8) v)

/-- HIGH_HALF_WRITE (R13): a 32-bit write of the high half takes effect with the held or current low half. -/
def execHighHalfWrite (off v : Nat) (bar : Bool) (s : State) : Answer :=
  answerNoMem s ((s.barRx bar 4).write32 (off / 8 * 8 + 4) v)

/-- BAR0_BAD_ACCESS (R325): a read of `bytes` bytes returns 0, a write is ignored, and BAD_ACCESS is set; or, with `bar4`, a
read of BAR4, which returns 0 (log 1). -/
def execBar0BadAccess (how : BadAccess) (bytes : Nat) (s : State) : Answer :=
  let t := if how.bar4 then s else s.setFlag rPcieStatus 10 true
  answerNoMem s (if how.write && !how.bar4 then t.rx bytes
    else { t.tx bytes with readData := 0#64, readBytes := List.replicate bytes 0#8 })

end Sys2Proof.Machine
end

