-- ==== Sys2Proof/Machine/Tick.lean ====
section
/-!
DEFINITION. Machine/Tick.lean: the tick generator (R27 to R33, R315, R460, R461). Commands carry the TCLK cycle of an
arrival where a rule compares arrivals. One edge is observed by every domain at once (log 10).
-/

namespace Sys2Proof.Machine

def State.now (s : State) : Nat := s.tick.now.toNat

def State.modTickPort (s : State) (p : Nat) (f : TickPort → TickPort) : State :=
  { s with tick := { s.tick with ports := listPut {} 4 s.tick.ports p (f (listGet {} s.tick.ports p)) } }

/-- The number the next edge follows: a cause on its way counts as its edge. -/
def State.tickAhead (s : State) : Nat := s.tick.cause.getD s.now

/-- The generator takes its tick from the earliest good port that remains, else from holdover once a tick has been taken
since the mode was set, else from nothing (R29, R30, R461). An edge that port already delivered is not missed. -/
def State.refollow (s : State) : State :=
  match s.firstGood with
  | some q =>
    if s.tick.held.isSome then { s with tick := { s.tick with held := some q } }
    else
      let s := { s with tick := { s.tick with source := 2, port := q } }
      if (s.tickPort q).lastNum = s.tickAhead + 1 then
        { s with tick := { s.tick with cause := some (s.tickAhead + 1), edgeAt := (s.tickPort q).lastAt } }
      else s
  | none => { s with tick := { s.tick with source := if s.tick.taken then 3 else 0, port := 0, held := none } }

/-- Whether the generator takes its edges from a port, or waits for its number to be reached (R31). -/
def State.follows (s : State) (p : Nat) : Bool :=
  (s.tick.source == 2 && s.tick.port == p) || s.tick.held == some p

/-- A port stops being good for ticks. -/
def State.tickLose (s : State) (p run : Nat) : State :=
  let was := s.follows p
  let s := s.modTickPort p (fun q => { q with good := false, rejoin := false, runLen := run })
  if was then s.refollow else s

/-- A port is dropped on a failed cross-check or a wrong number (R30). -/
def State.tickDisagree (s : State) (p : Nat) : State :=
  ((s.setFlag rTickStatus 8 true).alarm srcTick 0x20).tickLose p 1

/-- Whether an ordered-set is discarded (R315): bad CRC or magic, or a period other than the one in force. -/
def State.tickOsBad (s : State) (b : List Byte) : Bool :=
  b.length != 64 || leNat (b.take 4) != 0x4B544E48 || leNat ((b.drop 0x10).take 4) != s.tick.period ||
    leNat ((b.drop 0x3C).take 4) != crc32c (b.take 0x3C)

/-- The distance of two TCLK counts. -/
def apart (a b : Nat) : Nat := (a - b) + (b - a)

/-- A port that became good during holdover, or after ticks were taken in mode LOCAL, is compared with the local number
at its next ordered-set (R31). -/
def State.tickRejoin (s : State) (p f at' : Nat) : State :=
  let h := s.tickAhead
  let follow := fun (t : State) =>
    { t with tick := { t.tick with ports := t.tick.ports.map (fun q => { q with rejoin := false }),
                                   source := 2, port := p, held := none, taken := true, edgeAt := at' } }
  if f = h then
    if s.tick.held = some p then s else follow s
  else if h < f then
    let t := follow s
    let t := { t with tick := { t.tick with cause := some f } }
    if s.tick.held = some p ∧ f = h + 1 then t
    else (t.count rTickSkipped (f - h - 1)).setFlag rTickStatus 9 true
  else
    { s.setFlag rTickStatus 10 true with tick := { (s.setFlag rTickStatus 10 true).tick with held := some p } }

/-- An accepted ordered-set for tick `n` on port `p` (R30). -/
def State.tickArrive (s : State) (p n at' : Nat) : State :=
  let q := s.tickPort p
  let period := 50 * s.tick.period
  let note := fun (t : State) => t.modTickPort p (fun q => { q with lastNum := n, lastAt := at' })
  if !q.good then
    let fits := decide (0 < q.runLen) && n == q.lastNum + 1 && decide (100 * apart at' (q.lastAt + period) ≤ period)
    let run := if fits then q.runLen + 1 else 1
    let s := (note s).modTickPort p (fun q => { q with runLen := run })
    if run < 4 then s
    else
      let s := s.modTickPort p (fun q => { q with good := true, rank := at' })
      if s.tick.mode = .fabric ∧ s.tick.source ≠ 2 ∧ s.tick.held.isNone then
        s.modTickPort p (fun q => { q with rejoin := true })
      else s
  else if s.tick.mode ≠ .fabric then note s
  else if (q.rejoin && s.firstGood == some p) || s.tick.held == some p then
    (note s).tickRejoin p n at'
  else if s.tick.source = 2 ∧ s.tick.port = p then
    if n = s.tickAhead + 1 then
      let s := note s
      let s := { s with tick := { s.tick with cause := some n, edgeAt := at' } }
      (List.range 4).foldl (fun t o =>
        let r := t.tickPort o
        if o ≠ p ∧ r.good ∧ r.lastNum = n ∧ 50 < apart at' r.lastAt then t.tickDisagree o else t) s
    else (note s).tickDisagree p
  else if s.tick.source = 2 then
    if n = s.tickAhead + 1 then note s
    else if n = s.tickAhead ∧ apart at' s.tick.edgeAt ≤ 50 then note s
    else (note s).tickDisagree p
  else note s

/-- TICK_ORDERED_SET (R315, R30, R31): one that comes 1.5 periods after the last counts as not having arrived in time,
and in that very cycle as not having arrived. -/
def execTickOrderedSet (port : Nat) (block : List Byte) (at' : Nat) (s : State) : Answer :=
  answerTick s (
    if 4 ≤ port then s
    else if s.tickOsBad block then s.count (rFabCtrTICKOSBAD port) 1
    else
      let q := s.tickPort port
      let s := s.count (rFabCtrTICKOS port) 1
      let n := leNat ((block.drop 8).take 8)
      let limit := q.lastAt + 75 * s.tick.period
      if q.good && decide (limit ≤ at') then
        let s := s.tickLose port 0
        if at' = limit then s else s.tickArrive port n at'
      else s.tickArrive port n at')

/-- TICK_PORT_TIMEOUT (R30, R461): no ordered-set within 1.5 periods of the port's last. -/
def execTickPortTimeout (port at' : Nat) (s : State) : Answer :=
  let q := s.tickPort port
  answerTick s (if decide (port < 4) && q.good && decide (q.lastAt + 75 * s.tick.period ≤ at') then s.tickLose port 0 else s)

/-- The number the next edge carries, if its cause is there (R29, R460, R461): the first edge after READY, a passed-on
cause, or the local timer in LOCAL mode and in holdover. The number never wraps (R28). -/
def State.nextEdge (s : State) : Option Nat :=
  if s.tick.first then some 0
  else match s.tick.cause with
    | some n => some n
    | none =>
      if s.tick.held.isSome then none
      else if (s.tick.source = 1 ∨ s.tick.source = 3) ∧ s.now + 1 < 2 ^ 64 then some (s.now + 1)
      else none

/-- An edge with number `n`, observed by every domain. -/
def State.edge (s : State) (n : Nat) : State :=
  { s with tick := { s.tick with now := BitVec.ofNat 64 n, taken := true, first := false, cause := none } }

/-- TICK_EDGE (R460). -/
def execTickEdge (s : State) : Answer :=
  answerTick s (match s.nextEdge with
    | some n => s.edge n
    | none => s)

/-- The tick configuration swaps in (R29, R31, R356): the mode and period change, and the source is chosen afresh. -/
def State.tickSwap (s : State) : State :=
  let m := s.tick.shMode
  let entered := decide (m ≠ s.tick.mode)
  let s := { s with tick := { s.tick with mode := m, period := s.tick.shPeriod } }
  if !entered then s
  else match m with
    | .local => { s with tick := { s.tick with source := 1, port := 0, taken := false, cause := none, held := none } }
    | .fabric =>
      { s with tick := { s.tick with source := 0, port := 0, taken := false, cause := none, held := none,
                                     ports := s.tick.ports.map (fun q => { q with rejoin := q.good }) } }

end Sys2Proof.Machine
end

