-- ==== Sys2Proof/Machine/Yoyo.lean ====
section
/-!
DEFINITION. Machine/Yoyo.lean: grains, their states and transitions, taps, stores, restores and the uses that hold
packets (R191 to R201, R206, R207, R211). Replays stand in Machine/Replay.lean, directives in Machine/Directive.lean.
-/

namespace Sys2Proof.Machine

/-- The home die of a grain index (R191). -/
def grainDie (g : Nat) : Nat := bitsOf g 19 19

def State.grain (s : State) (g : Nat) : Grain := Tbl.get (fun _ => {}) (s.yoyo (grainDie g)).grains g

def Grain.complete (x : Grain) : Bool := x.state == 1 && x.filled == x.fillBytes
/-- States whose raw region is occupied (R193). -/
def Grain.occupied (x : Grain) : Bool := x.state == 1 || x.state == 6 || x.state == 7
def Grain.outbound (x : Grain) : Bool := x.state == 7 && x.dest != 1
def Grain.stored' (x : Grain) : Bool := x.state == 2 || x.state == 3 || x.state == 4 || x.state == 5

/-- The 32 bytes of a descriptor (R192). -/
def Grain.descriptor (x : Grain) : List Byte :=
  leBytes 6 x.rawBase ++ leBytes 1 x.size ++ leBytes 1 (x.state + 16 * x.policy) ++ leBytes 6 x.storeAddr ++
    leBytes 2 x.replay ++ leBytes 4 x.fillBytes ++ leBytes 4 x.filled ++ leBytes 4 x.stored ++ leBytes 2 x.usesLeft ++
    leBytes 2 ((if x.state = 7 then x.dest else 0) + 8 * b2n x.unavailable + 16 * b2n x.lateFill +
      32 * b2n x.pending + 64 * b2n x.hold + 128 * b2n x.adoptFill + 256 * (if x.state = 6 then x.depth else 0))

/-- Write a grain: its descriptor in memory, the byte sums per state, and the trace of a transition (R194, R211). -/
def State.setGrain (s : State) (g : Nat) (x : Grain) : State :=
  let d := grainDie g
  let old := s.grain g
  let s := s.modYoyo d (fun y => { y with grains := Tbl.set (fun _ => {}) y.grains g x })
  let s := match (s.yoyo d).table with
    | some t => s.poke (t + 32 * (g % 2 ^ 19)) x.descriptor
    | none => s
  if old.state = x.state then s
  else
    let s := if x.bound then
        (s.setReg (rYoyoCtrSTATEBYTES0 d + 8 * old.state) (s.reg (rYoyoCtrSTATEBYTES0 d + 8 * old.state) - x.fillBytes)).count
          (rYoyoCtrSTATEBYTES0 d + 8 * x.state) x.fillBytes
      else s
    s.grainTrace d g old.state x.state

def State.modGrain (s : State) (g : Nat) (f : Grain → Grain) : State := s.setGrain g (f (s.grain g))

/-- Whether two raw regions share a byte. -/
def Grain.overlaps (x y : Grain) : Bool :=
  decide (x.rawBase < y.rawBase + 2 ^ y.size) && decide (y.rawBase < x.rawBase + 2 ^ x.size)

/-- Whether a region occupied by another grain overlaps this grain's. -/
def State.rawConflict (s : State) (g : Nat) : Bool :=
  let x := s.grain g
  (s.yoyo (grainDie g)).grains.any (fun e => e.1 != g && e.2.bound && e.2.occupied && e.2.overlaps x)

/-- The step in force under the active binding. -/
def State.stepNow (s : State) : Nat :=
  match s.binding.active with
  | some b => if s.now < b.first ∨ b.period = 0 then 0 else (s.now - b.first) / b.period
  | none => 0

/-- The due tick of a grain in a step (R201). -/
def State.dueTick (s : State) (x : Grain) (step : Nat) : Nat :=
  match s.binding.active with
  | some b => b.first + step * b.period + x.dueOffset
  | none => 0

/-- The lead: the entry's, or the die's default when that is 0 (R201). -/
def State.leadOf (s : State) (g : Nat) (x : Grain) : Nat := if x.lead = 0 then s.act (rYoyoLead (grainDie g)) else x.lead

/-- The step whose due tick is the first at or after the tick in force (R201). -/
def State.dueStepNow (s : State) (x : Grain) : Nat :=
  match s.binding.active with
  | some b => if s.now ≤ b.first + x.dueOffset ∨ b.period = 0 then 0 else ceilDiv (s.now - b.first - x.dueOffset) b.period
  | none => 0

/-- Whether the restore tick of the fill in hand has come (R194, R201). It is that of the first due tick at or after the tick
in force when the fill began (DEDUCED, log 72: R201 gives a grain a restore tick in every step). -/
def State.restoreDue (s : State) (g : Nat) (x : Grain) : Bool :=
  s.binding.active.isSome && decide (s.dueTick x x.dueStep ≤ s.now + s.leadOf g x)

/-! ## Transitions -/

def State.dropXfer (s : State) (g : Nat) : State :=
  let d := grainDie g
  let gone := (s.yoyo d).xfers.filter (fun x => x.grain == g)
  let s := s.modYoyo d (fun y =>
    { y with xfers := y.xfers.filter (fun x => x.grain != g),
             codecBusy := gone.foldl (fun b x => match x.engine with | some i => listPut false 4 b i false | none => b) y.codecBusy })
  { s with host := { s.host with reads := s.host.reads.filter (fun r => match r with
      | .pool g' _ _ => g' != g
      | _ => true) } }

def State.xferOf (s : State) (g : Nat) : Option Xfer := (s.yoyo (grainDie g)).xfers.find? (fun x => x.grain == g)
def State.modXfer (s : State) (g : Nat) (f : Xfer → Xfer) : State :=
  s.modYoyo (grainDie g) (fun y => { y with xfers := y.xfers.map (fun x => if x.grain == g then f x else x) })

/-- A grain that a running replay holds LIVE as an input (R204). -/
def State.replayHolds (s : State) (g : Nat) : Bool :=
  (s.yoyo 0).replays.any (fun r => r.held.contains g) || (s.yoyo 1).replays.any (fun r => r.held.contains g)

/-- A grain's release: by its last use, by RELEASE, or at its due tick (R194, R197). -/
def State.releaseGrain (s : State) (g : Nat) : State :=
  let x := s.grain g
  let d := grainDie g
  if x.complete && s.replayHolds g then s.setGrain g { x with releaseDue := true }
  else if x.complete then
    let s := s.modYoyo d (fun y => { y with storeQ := y.storeQ.filter (fun q => q != g) })
    s.setGrain g { x with state := 0, dest := 0, filled := 0 }
  else if x.stored' then
    let s := s.modYoyo d (fun y =>
      { y with restoreQ := y.restoreQ.filter (fun q => q != g), demandQ := y.demandQ.filter (fun q => q != g) })
    (s.count (rYoyoCtrDISCARDEDBYTES d) x.stored).setGrain g { x with state := 0, stored := 0, filled := 0, pending := false }
  else if x.state = 6 ∨ (x.state = 7 ∧ x.dest = 1) then s.setGrain g { x with releaseDue := true }
  else s

/-- One use is subtracted (R197). -/
def State.dropUse (s : State) (g : Nat) : State :=
  let x := s.grain g
  if x.usesLeft = 0 then s
  else
    let s := s.setGrain g { x with usesLeft := x.usesLeft - 1 }
    if x.usesLeft = 1 ∧ !x.hold then s.releaseGrain g else s

/-- The policy of a complete grain applied (R194, R199): stores queue in order of completion. -/
def State.applyPolicy (s : State) (g code : Nat) : State :=
  let x := s.grain g
  let d := grainDie g
  match code with
  | 1 | 2 | 3 =>
    (s.setGrain g { x with dest := code + 1 }).modYoyo d (fun y => { y with storeQ := y.storeQ ++ [g] })
  | 4 => (s.count (rYoyoCtrDROPPEDBYTES d) x.fillBytes).setGrain g { x with state := 5, stored := 0, dest := 0 }
  | _ => s

/-- A grain has become complete (R194): late fills stay LIVE. -/
def State.grainComplete (s : State) (g : Nat) : State :=
  let x := s.grain g
  if s.restoreDue g x then
    (s.setGrain g { x with lateFill := true }).count (rYoyoCtrLATEFILLS (grainDie g)) 1
  else s.applyPolicy g x.policy

/-- A grain enters LIVE from EMPTY (R194, R197). -/
def State.enterLive (s : State) (g filled : Nat) : State :=
  let x := s.grain g
  s.setGrain g { x with state := 1, filled := filled, usesLeft := x.uses, unavailable := false, lateFill := false,
                        stored := 0, dest := 0, releaseDue := false, dueStep := s.dueStepNow x, releasedFor := 0 }

/-- Bytes of a stored form that an outbound store has written. -/
def State.sentOf (s : State) (g : Nat) : Nat :=
  match s.xferOf g with
  | some f => if f.host then f.asked else f.data.length
  | none => 0

/-- An outbound store is abandoned and the grain returns to LIVE (R194, R226). -/
def State.abandonStore (s : State) (g : Nat) : State :=
  let x := s.grain g
  let d := grainDie g
  if !x.outbound then s
  else
    let gone := s.sentOf g
    let s := match s.xferOf g with
      | some f => match f.engine with
        | some i => s.count (rCodecCtrABANDONED d i) 1
        | none => s
      | none => s
    let s := ((s.dropXfer g).count (rYoyoCtrCANCELLEDSTORES d) 1).count (rYoyoCtrDISCARDEDBYTES d) gone
    s.setGrain g { x with state := 1, dest := 0 }

/-- The grain is needed now (R205, R207): an outbound store is abandoned; a stored grain's restore begins ahead of the
due list. -/
def State.demand (s : State) (g : Nat) : State :=
  let x := s.grain g
  if x.outbound then s.abandonStore g
  else if x.stored' then
    s.modYoyo (grainDie g) (fun y => if y.demandQ.contains g then y
      else { y with demandQ := y.demandQ ++ [g], restoreQ := y.restoreQ.filter (fun q => q != g) })
  else s

/-- A restore returned the last raw byte (R194, R211). -/
def State.restored (s : State) (g : Nat) : State :=
  let x := s.grain g
  let s := (s.dropXfer g).count (rYoyoCtrRAWRESTORED (grainDie g)) x.fillBytes
  let due := x.releaseDue
  let s := s.setGrain g { x with state := 1, filled := x.fillBytes, stored := 0, dest := 0, releaseDue := false, depth := 0 }
  if due then s.releaseGrain g else s

/-- A restore failed (R206). -/
def State.restoreFailed (s : State) (g : Nat) : State :=
  let x := s.grain g
  let d := grainDie g
  let s := ((s.dropXfer g).count (rYoyoCtrUNAVAILABLEBYTES d) x.fillBytes).setFlag (rYoyoStatus d) 16 true
  s.setGrain g { x with state := 0, filled := 0, stored := 0, dest := 0, unavailable := true, releaseDue := false, depth := 0 }

/-! ## Taps (R198) -/

/-- What the Yo-yo does with `n` tap bytes for a grain: how many it accepts. -/
def State.tapRoom (s : State) (t : Tap) : Nat :=
  let x := s.grain t.grain
  let n := t.bytes.length
  let room := x.fillBytes - x.filled
  if !x.bound then 0
  else if x.state = 0 then (if x.adoptFill || s.rawConflict t.grain then 0 else capAt room n)
  else if x.state = 1 then (if x.adoptFill || x.complete then 0 else capAt room n)
  else if x.state = 6 then (if t.replayOf = some t.grain then capAt room n else 0)
  else 0

/-- Write accepted tap bytes at raw_base plus the offset; a mask's bits merge into their bytes (R121, R198). -/
def State.tapWrite (s : State) (x : Grain) (t : Tap) (n : Nat) : State :=
  if t.mask then
    t.bits.foldl (fun u b =>
      let a := x.rawBase + b.1 / 8
      let old := leNat (u.peek a 1)
      if b.1 / 8 < t.offset + n then u.store none a [BitVec.ofNat 8 (putBits old (b.1 % 8) (b.1 % 8) (b2n b.2))] else u) s
  else s.store none (x.rawBase + t.offset) (t.bytes.take n)

/-- The run of an engine marked with a condition its completion status carries. -/
def State.modRun (s : State) (e : Nat) (f : Run → Run) : State :=
  s.modEngine e (fun g => { g with run := g.run.map f })

/-- GRAIN_TAP (R198): the oldest tap at a die's Yo-yo is accepted or rejected, and a grain that becomes complete has its
policy applied. -/
def State.grainTap (s : State) (die : Nat) : State :=
  match (s.yoyo die).taps with
  | [] => s
  | t :: rest =>
    let s := s.modYoyo die (fun y => { y with taps := rest })
    let n := t.bytes.length
    let s := s.count (rYoyoCtrTAPRECEIVED die) n
    match t.replayOf with
    | some g =>
      if g ≠ t.grain then s.count (rYoyoCtrREPLAYTAPDISCARDED die) n
      else
        let k := s.tapRoom t
        let x := s.grain g
        let s := (s.tapWrite x t k).count (rYoyoCtrTAPACCEPTED die) k
        (s.count (rYoyoCtrTAPREJECTED die) (n - k)).setGrain g { x with filled := x.filled + k }
    | none =>
      let k := s.tapRoom t
      let x := s.grain t.grain
      let conflict := x.bound && x.state == 0 && !x.adoptFill && s.rawConflict t.grain
      let s := if k < n then
          let s := ((s.count (rYoyoCtrTAPREJECTED die) (n - k)).setFlag (rYoyoStatus die) 18 true).modRun t.engine
            (fun r => if r.pid = t.pid then { r with tapRejected := true, status := if r.status = 0 then 2 else r.status } else r)
          if conflict then s.setFlag (rYoyoStatus die) 17 true else s
        else s
      if k = 0 then s
      else
        let s := (s.tapWrite x t k).count (rYoyoCtrTAPACCEPTED die) k
        let s := if x.state = 0 then s.enterLive t.grain k else s.setGrain t.grain { x with filled := x.filled + k }
        if (s.grain t.grain).complete then s.grainComplete t.grain else s

/-- Consumers that waited for a grain go on or give up, after `waited` ECLK cycles together (R214). -/
def State.countWaited (s : State) (g waited : Nat) : State := s.count (rYoyoCtrCONSUMERWAITCYCLES (grainDie g)) waited

/-- GRAIN_TAP: `waited` is that of the consumers whose wait the tap ends by making its grain complete. -/
def execGrainTap (die : Timed) (s : State) : Answer :=
  answer s (
    let waited := die.cycles
    let die := die.unit
    if 2 ≤ die then s
    else
      let u := s.grainTap die
      match (s.yoyo die).taps with
      | [] => s
      | t :: _ => if (u.grain t.grain).complete && !(s.grain t.grain).complete then u.countWaited t.grain waited else u)

/-! ## Stores (R199, R200, R215, R226) -/

/-- STORE_BEGIN (R199): the oldest completed grain that waits to be stored takes one of the 32 transfer places. -/
def execStoreBegin (die : Nat) (s : State) : Answer :=
  answer s (
    if 2 ≤ die then s
    else match (s.yoyo die).storeQ.find? (fun g => !s.replayHolds g) with
      | none => s
      | some g =>
        let rest := (s.yoyo die).storeQ.erase g
        let x := s.grain g
        if !x.complete then s.modYoyo die (fun y => { y with storeQ := rest })
        else if x.dest = 5 then (s.modYoyo die (fun y => { y with storeQ := rest })).applyPolicy g 4
        else if 32 ≤ (s.yoyo die).xfers.length then s
        else
          let raw := s.peek x.rawBase x.fillBytes
          let f : Xfer := { grain := g, outbound := true, codec := x.dest != 3, host := x.dest != 2,
                            data := if x.dest = 3 then raw else [], total := if x.dest = 3 then x.fillBytes else 0 }
          let s := s.modYoyo die (fun y => { y with storeQ := rest, xfers := y.xfers ++ [f] })
          s.setGrain g { x with state := 7 })

/-- The profile descriptor that a die's active PROFILE register `p` holds (R216, R230). -/
def State.profileBytes (s : State) (d p : Nat) : List Byte :=
  leBytes 4 (s.act (rYoyoProfileW0 d p)) ++ leBytes 4 (s.act (rYoyoProfileW1 d p)) ++
    leBytes 4 (s.act (rYoyoProfileW2 d p)) ++ leBytes 4 (s.reg (rYoyoProfileW3 d p))

/-- The lowest idle codec engine of the mask (R215). -/
def State.idleCodec (s : State) (d : Nat) : Option Nat :=
  findN 4 (fun i => bitOf (s.act (rYoyoCodecMask d)) i && !listGet false (s.yoyo d).codecBusy i)

/-- Cycles of a decode (R228). -/
def decodeCycles (stored raw : Nat) : Nat :=
  if ceilDiv stored 512 ≤ ceilDiv raw 2048 then ceilDiv raw 2048 else ceilDiv stored 512

/-- An encode handed to engine `i`: the stored form is made from the raw region, written at store_addr for PACK, and
the reference frames are written back (R220, R226). -/
def State.encodeXfer (s : State) (d i g : Nat) : State :=
  let x := s.grain g
  match profileOf (s.profileBytes d (x.profile % 16)) with
  | none => s
  | some p =>
    let out := codecEncode p g (s.peek x.rawBase x.fillBytes)
    let s := s.store none x.rawBase out.raw
    let s := if x.dest = 2 then s.store none x.storeAddr out.form else s
    let s := ((s.count (rCodecCtrENCRAWBYTES d i) x.fillBytes).count (rCodecCtrENCSTOREDBYTES d i) out.form.length).count
      (rCodecCtrZEROBLOCKS d i) out.zeros
    let s := s.count (rCodecCtrBUSYCYCLES d i) (ceilDiv x.fillBytes 512)
    (s.count (rCodecCtrNANBLOCKS d i) out.nans).modXfer g (fun f =>
      { f with codec := false, data := out.form, total := out.form.length, ready := x.dest == 2 })

/-- A decode handed to engine `i` (R227): the raw bytes it rebuilds are written; a rejected form fails the restore. -/
def State.decodeXfer (s : State) (d i g : Nat) : State :=
  let x := s.grain g
  match s.xferOf g with
  | none => s
  | some f =>
    let bad := !f.host && s.badRange x.storeAddr x.stored
    let form := if f.host then f.data else s.peek x.storeAddr x.stored
    let s := if bad then s.memBad else s
    let s := (s.count (rCodecCtrDECSTOREDBYTES d i) x.stored).count (rCodecCtrBUSYCYCLES d i)
      (decodeCycles x.stored x.fillBytes)
    match (if bad then none else codecDecode (some (x.fillBytes, x.stored, g)) form) with
    | some raw =>
      (((s.store none x.rawBase raw).count (rCodecCtrDECRAWBYTES d i) raw.length).modXfer g
        (fun f => { f with codec := false, ready := true }))
    | none =>
      (if bad then s else s.count (rCodecCtrREJECTED d i) 1).modXfer g (fun f => { f with codec := false, failed := true })

/-- Whether every byte of a form that a decode reads has arrived. -/
def Xfer.arrived (f : Xfer) : Bool := !f.host || f.got == f.total

/-- CODEC_DISPATCH (R215): the first waiting decode, else the first waiting encode, goes to the lowest idle engine of
the mask. A decode whose form is still being fetched is carried out with the last byte that arrives (R226). -/
def execCodecDispatch (die : Nat) (s : State) : Answer :=
  answer s (
    if 2 ≤ die then s
    else
      let waits := (s.yoyo die).xfers.filter (fun f => f.codec && f.engine.isNone && !f.failed)
      let decodes := waits.filter (fun f => !f.outbound)
      let encodes := waits.filter (fun f => f.outbound)
      match s.idleCodec die, decodes ++ encodes with
      | some i, f :: _ =>
        let s := s.modYoyo die (fun y => { y with codecBusy := listPut false 4 y.codecBusy i true })
        let s := s.modXfer f.grain (fun f => { f with engine := some i })
        if f.outbound then s.encodeXfer die i f.grain else if f.arrived then s.decodeXfer die i f.grain else s
      | _, _ => s)

/-- The usable bytes of one lane and direction in 10 µs, by generation (R322). -/
def laneBytes (gen : Nat) : Nat :=
  match gen with
  | 7 => 151250 | 6 => 75625 | 5 => 36000 | 4 => 18000 | 3 => 9000 | 2 => 4000 | 1 => 2000
  | _ => 0

/-- The share limit in bytes per 10 µs and direction (R200). -/
def State.poolLimit (s : State) : Nat :=
  laneBytes (s.field rPcieStatus 2 0) * s.field rPcieStatus 7 3 * s.act rPciePoolShare / 64

/-- The bytes of a form that go last to the host pool: the grain header of an encoded form (R226). -/
def Xfer.lastBytes (f : Xfer) (dest : Nat) : Nat := if f.outbound && dest == 4 then 64 else 0

/-- The next host-pool request of a die: the transfer, where in its form the request begins, and its bytes. -/
def State.poolNext (s : State) (d : Nat) : Option (Xfer × Nat × Nat) :=
  match (s.yoyo d).xfers.find? (fun f => f.host && !f.failed && decide (f.asked < f.total)) with
  | some f =>
    let h := f.lastBytes (s.grain f.grain).dest
    some (if f.asked + h < f.total then (f, h + f.asked, capAt 4096 (f.total - h - f.asked))
      else (f, f.asked + h - f.total, capAt 4096 (f.total - f.asked)))
  | none => none

/-- POOL_REQUEST (R200): one host-pool request of up to 4 KiB at time `at'` in ns, if the share limit and the alternation
of the two Yo-yos allow it; none in D3hot or while the link is down (R321, R397). -/
def execPoolRequest (die at' : Nat) (s : State) : Answer :=
  answerNoMem s (
    if 2 ≤ die then s
    else match s.poolNext die with
      | none => s
      | some (f, place, n) =>
        let recent := s.host.poolLog.filter (fun l => decide (at' < l.1 + 10000))
        let used := (recent.filter (fun l => l.2.1 == f.outbound)).foldl (fun a l => a + l.2.2) 0
        let turn := s.host.poolLast != die || (s.poolNext (1 - die)).isNone
        if s.field rPcieStatus 2 0 = 0 ∨ bitOf (s.reg rPcieStatus) 9 ∨ s.poolLimit < used + n ∨ !turn then s
        else
          let s := { s with host := { s.host with poolLog := recent ++ [(at', f.outbound, n)], poolLast := die } }
          let a := (s.grain f.grain).storeAddr + place
          if f.outbound then
            let s := (s.poolPoke a ((f.data.drop place).take n)).count rPcieCtrTXBYTES n
            s.modXfer f.grain (fun f => { f with asked := f.asked + n, got := f.got + n })
          else
            let s := { s with host := { s.host with reads := s.host.reads ++ [HostRead.pool f.grain a n] } }
            s.modXfer f.grain (fun f => { f with asked := f.asked + n }))

/-- The data of a host-pool read has returned: raw bytes go to the raw region, a packed form to its decoder. -/
def State.poolData (s : State) (g a n : Nat) : State :=
  let x := s.grain g
  let off := a - x.storeAddr
  let bs := s.poolPeek a n
  let s := s.count rPcieCtrRXBYTES n
  match s.xferOf g with
  | none => s
  | some f =>
    let s := if x.state = 7 ∧ !f.codec then s.store none (x.rawBase + off) bs else s
    let s := s.modXfer g (fun f =>
      { f with got := f.got + n,
               data := if f.codec then f.data.take off ++ bs ++ f.data.drop (off + n) else f.data,
               ready := !f.codec && f.got + n == f.total })
    match f.codec && f.got + n == f.total, f.engine with
    | true, some i => s.decodeXfer (grainDie g) i g
    | _, _ => s

/-- STORE_COMPLETE (R194): the last byte of a stored form has been accepted. -/
def execStoreComplete (g : Nat) (s : State) : Answer :=
  answer s (
    let x := s.grain g
    let d := grainDie g
    match s.xferOf g with
    | some f =>
      if x.outbound && f.outbound && !f.codec && (f.ready || (f.host && f.got == f.total)) then
        let s := ((s.dropXfer g).count (rYoyoCtrRAWSTORED d) x.fillBytes).count (rYoyoCtrSTOREDFORMBYTES d) f.total
        s.setGrain g { x with state := x.dest, stored := f.total, dest := 0 }
      else s
    | none => s)

/-! ## Restores (R201, R205, R206) -/

/-- Whether a grain goes before another: by due tick, then by index (R201). -/
def dueBefore (a b : Nat × Nat) : Bool := decide (a.1 < b.1) || (a.1 == b.1 && decide (a.2 ≤ b.2))

/-- The grains a tick edge acts on (R201): bound, stored or still outbound, with their restore tick come. -/
def State.dueList (s : State) (d : Nat) : List (Nat × Nat) :=
  (s.yoyo d).grains.filterMap (fun e =>
    if e.2.bound && (e.2.stored' || e.2.outbound) && s.restoreDue e.1 e.2 then some (s.dueTick e.2 e.2.dueStep, e.1) else none)

/-- A grain joins the restore queue, in the order of R201. -/
def State.queueRestore (s : State) (d : Nat) (e : Nat × Nat) : State :=
  if (s.yoyo d).demandQ.contains e.2 || (s.yoyo d).restoreQ.contains e.2 then s
  else
    let before := fun g => dueBefore ((s.grain g).queuedDue, g) e
    let q := (s.yoyo d).restoreQ
    let s := s.modYoyo d (fun y => { y with restoreQ := q.takeWhile before ++ e.2 :: q.dropWhile before })
    s.modGrain e.2 (fun x => { x with queuedDue := e.1 })

/-- RESTORE_TICK (R201): at a tick edge the stored grains of the due list join the restore queue, and grains still
outbound return to LIVE. -/
def execRestoreTick (die : Nat) (s : State) : Answer :=
  answer s (
    if 2 ≤ die ∨ s.binding.active.isNone then s
    else (s.dueList die).foldl (fun (t : State) e =>
      if (t.grain e.2).outbound then t.abandonStore e.2 else t.queueRestore die e) s)

/-- Where a replay joins its die's queue (R201, R204, R205): one that an enclosing replay needs first of all; then, behind
those that a core has taken, those on demand, and the rest by due tick and index. -/
def Replay.before (a b : Replay) : Bool :=
  if b.parent.isSome then false
  else a.core.isSome || a.parent.isSome || a.demanded || (!b.demanded && dueBefore (a.due, a.grain) (b.due, b.grain))
def joinReplay (r : Replay) (l : List Replay) : List Replay := l.takeWhile (fun q => q.before r) ++ r :: l.dropWhile (fun q => q.before r)

/-- A restore begins (R194, R201, R203). `depth` is the replay depth a DROPPED grain would run at. -/
def State.beginRestore (s : State) (g depth : Nat) (parent : Option Nat) : State :=
  let x := s.grain g
  let d := grainDie g
  let demanded := (s.yoyo d).demandQ.contains g
  let s := s.modYoyo d (fun y =>
    { y with restoreQ := y.restoreQ.filter (fun q => q != g), demandQ := y.demandQ.filter (fun q => q != g) })
  if x.state = 5 then
    let r : Replay := { grain := g, depth := depth, parent := parent, demanded := demanded, due := s.dueTick x x.dueStep }
    (s.setGrain g { x with state := 6, pending := false, filled := 0, depth := depth }).modYoyo d (fun y =>
      { y with replays := joinReplay r y.replays })
  else
    let host := x.state == 3 || x.state == 4
    let total := if x.state = 3 then x.fillBytes else if x.state = 4 then x.stored else 0
    let f : Xfer := { grain := g, outbound := false, codec := x.state != 3, host := host, total := total,
                      data := if x.state = 4 then List.replicate x.stored 0#8 else [] }
    (s.setGrain g { x with state := 7, dest := 1, pending := false }).modYoyo d (fun y => { y with xfers := y.xfers ++ [f] })

/-- RESTORE_BEGIN (R194, R199, R201): the first queued restore whose raw region is vacated begins, demand restores
first; one that meets an occupied region has RESTORE_PENDING set. -/
def execRestoreBegin (die : Nat) (s : State) : Answer :=
  answer s (
    if 2 ≤ die then s
    else
      let y := s.yoyo die
      let q := (y.demandQ ++ y.restoreQ).filter (fun g => (s.grain g).stored')
      let room := fun g => (s.grain g).state == 5 || decide (y.xfers.length < 32)
      let s := q.foldl (fun t g => if t.rawConflict g ∧ !(t.grain g).pending then
          t.modGrain g (fun x => { x with pending := true }) else t) s
      match q.find? (fun g => !s.rawConflict g && room g) with
      | none => s
      | some g =>
        let s := if y.demandQ.contains g then s.count (rYoyoCtrDEMANDRESTORES die) 1 else s
        s.beginRestore g 1 none)

/-- RESTORE_COMPLETE (R194): the last raw byte is back; `waited`: ECLK cycles summed over the consumers that waited for it
(R214). A replay ends by REPLAY_END. -/
def execRestoreComplete (g waited : Nat) (s : State) : Answer :=
  answer s (
    match s.xferOf g with
    | some f =>
      if (s.grain g).state = 7 ∧ !f.outbound ∧ f.ready ∧ !f.failed then
        (s.restored g).countWaited g waited
      else s
    | none => s)

/-- DUE_TICK_RELEASE (R197): at its due tick, a grain whose use count is 0 and whose HOLD is clear is released. -/
def execDueTickRelease (g : Nat) (s : State) : Answer :=
  answer s (
    let x := s.grain g
    if x.bound ∧ x.uses = 0 ∧ !x.hold ∧ s.binding.active.isSome ∧ s.dueTick x x.dueStep ≤ s.now ∧
        x.releasedFor ≤ x.dueStep then
      (s.releaseGrain g).modGrain g (fun y => { y with releasedFor := x.dueStep + 1 })
    else s)

/-! ## Uses by packets (R197, R207) -/

/-- Every bound grain of the module that names a packet as a consumer. -/
def State.grainsOf (s : State) (pid : Nat) : List Nat :=
  ((s.yoyo 0).grains ++ (s.yoyo 1).grains).filterMap (fun e => if e.2.bound && e.2.consumers.contains pid then some e.1 else none)

def State.drainGrainsOf (s : State) (pid : Nat) : List Nat :=
  ((s.yoyo 0).grains ++ (s.yoyo 1).grains).filterMap (fun e => if e.2.bound && e.2.drainers.contains pid then some e.1 else none)

/-- A packet with start uses needs its grains (R207): the state after the demand, and whether all are LIVE and
complete. -/
def State.needGrains (s : State) (pid : Nat) : State × Bool :=
  let gs := s.grainsOf pid
  let s := gs.foldl (fun t g => t.demand g) s
  (s, gs.all (fun g => (s.grain g).complete))

/-- A packet has completed, faulted or was abandoned: each of its uses is subtracted (R197). -/
def State.dropUses (s : State) (pid : Nat) : State :=
  (s.drainGrainsOf pid).foldl (fun t g => t.dropUse g) ((s.grainsOf pid).foldl (fun t g => t.dropUse g) s)

end Sys2Proof.Machine
end

