-- ==== Sys2Proof/Machine/Packet.lean ====
section
/-!
DEFINITION. Machine/Packet.lean: taking a work packet in hand, judging it against its window, stopping it on a fault,
and completing it (R34 to R40, R49, R197, R207, R420).
-/

namespace Sys2Proof.Machine

def State.run (s : State) (e : Nat) : Option Run := (s.engine e).run
def State.setRun (s : State) (e : Nat) (r : Run) : State := s.modEngine e (fun g => { g with run := some r })

/-- The PLL of the domain an engine runs in (R372). -/
def enginePll (e : Nat) : Nat :=
  match engClass e with
  | 1 | 2 => engDie e
  | 9 => 5
  | _ => 2

/-- The re-locks that run now (R369, R378): those of commands, and of a swap's, which go in ascending PLL number, the
first. -/
def Clk.running (k : Clk) : List Relock :=
  k.relocks.filter (fun r => r.ring.isSome) ++ (k.relocks.filter (fun r => r.ring.isNone)).take 1

/-- Whether a PLL is stopped for a re-lock. -/
def State.relocking (s : State) (pll : Nat) : Bool := s.clk.running.any (fun r => r.pll == pll)

/-- Whether a PLL coasts (R375). -/
def State.coasting (s : State) (pll : Nat) : Bool := bitOf (s.reg rClkStatus) pll

/-- Whether a domain an engine uses coasts (R376): its own, and for every engine NCLK and MCLK. -/
def State.engineCoasts (s : State) (e : Nat) : Bool := s.coasting (enginePll e) || s.coasting 3 || s.coasting 4

/-- An engine issues nothing: in hold-up from its 10 µs step, while its die is in reset or without its rail, while its
domain is re-locked, and while a write of its packet is held by staging (R294, R299, R369, R390, R399). -/
def State.engineBlocked (s : State) (e : Nat) : Bool :=
  decide (2 ≤ s.halt.stage) || listGet false s.dieReset (engDie e) ||
    (decide (engDie e < 2) && engClass e != 1 && engClass e != 2 && bitOf (s.reg rPwrRailOff) (engDie e)) || s.relocking (enginePll e) ||
    s.snap.held.any (fun h => h.engine == some e)

/-- The tick a set swaps at: for set 0 the armed binding's. -/
def State.swapTick (s : State) (i : Nat) : Nat := if i = 0 then s.binding.armedTick else s.reg (rHubCfgTick i)

/-- Whether a set has a swap armed; set 0 counts here for a binding only. -/
def State.swapArmed (s : State) (i : Nat) : Bool := if i = 0 then s.binding.armed.isSome else s.setArmed i

/-- Whether an armed swap's time has come (R40, R356, R364): its tick has been observed and, with a plan active or a
binding armed, a step boundary at or after it. -/
def State.swapReady (s : State) (i : Nat) : Bool :=
  s.swapArmed i && decide (s.swapTick i ≤ s.now) &&
    (i == 0 || (match s.binding.active with
      | some b => decide (b.first ≤ s.now) && decide (s.swapTick i ≤ b.first + s.stepNow * b.period)
      | none => s.binding.armed.isNone || decide (s.binding.armedTick ≤ s.now)))

/-- Whether an armed unbinding's boundary has come. -/
def State.unbindReady (s : State) : Bool :=
  match s.binding.unbindAt with
  | some t => decide (t ≤ s.now)
  | none => false

/-- A swap or an unbinding is due and has not been carried out: no packet of the new step starts before it (R40,
R362). -/
def State.swapDue (s : State) : Bool := s.unbindReady || (List.range 7).any s.swapReady

/-- The tick generator has no source (R29): mode FABRIC, no good port, and no tick taken since the mode was set. -/
def State.tickless (s : State) : Bool := s.tick.mode == .fabric && s.firstGood.isNone && !s.tick.taken

/-- The record of a packet (R420). -/
def Run.record (r : Run) : List Byte :=
  leBytes 4 r.pid ++ leBytes 4 r.budget ++ leBytes 8 r.bind.planId ++ leBytes 1 r.status ++ leBytes 1 r.second ++
    leBytes 2 (b2n r.late + 2 * b2n r.superseded + 4 * b2n r.mismatch + 8 * b2n r.tapRejected +
      16 * b2n r.replayOf.isSome + 32 * b2n r.widened) ++
    leBytes 4 r.recItem ++ leBytes 2 r.recInstr ++ leBytes 1 r.recGi ++ leBytes 1 r.recGj ++ leBytes 4 r.recChunk ++
    leBytes 4 r.neverBegun ++ leBytes 4 (capAt (2 ^ 32 - 1) r.nonfinite)

/-- Report a packet: the COMPLETION log when its status is not OK or it is LATE, or for every packet with COMPLETION_ALL;
and the end trace. -/
def State.report (s : State) (e : Nat) (r : Run) : State :=
  let s := if r.status ≠ 0 ∨ r.late ∨ bitOf s.tel.logSel 31 then s.emit e 2 1 r.fault r.record else s
  if s.selected e 3 2 then
    let (s, c) := s.draw 2
    s.emit e 3 2 0 (leBytes 4 r.pid ++ leBytes 4 0 ++ leBytes 8 c)
  else s

/-- A fault stops a packet (R427): its status, its code, and the alarm of the same code on its engine. -/
def State.faultRun (s : State) (e code : Nat) : State :=
  (s.modRun e (fun r => { r with status := 0x50, fault := code, stopped := true })).alarm e code

/-- Shape words from the k-th on that are not 0, where the kind leaves them unused (R105, R147, R176). -/
def Run.spareWords (r : Run) (k : Nat) : Bool := (r.shapes.drop k).any (fun w => w != 0)

/-- A memory fault is also counted (R429). -/
def State.memFaultRun (s : State) (e code : Nat) : State :=
  if code = 6 then (s.memBad).faultRun e 6 else s.faultRun e code

/-- The same, at a place that the record names (R109). -/
def State.faultIn (s : State) (e code : Nat) (p : Place) : State :=
  (s.modRun e (fun r => { r with
    recItem := p.item, recInstr := p.instr, recGi := p.gi, recGj := p.gj, recChunk := p.chunk })).memFaultRun e code

/-- How a grain stands for a packet held at its end-tick edge (R207): whether it can still come back by itself. -/
def Grain.coming (x : Grain) : Bool :=
  x.complete || x.state == 7 || x.state == 6 || (x.stored' && !x.pending)

/-- The grains that the drain of an engine's packet waits for and that cannot come back by themselves (R207). -/
def State.drainLost (s : State) (e : Nat) : Option Place :=
  if engClass e = 1 ∨ engClass e = 2 then
    let c := s.core (coreKey (engDie e) (engInst e))
    match c.drainQ with
    | t :: _ =>
      if c.stalled && t.ctx.engine == e && t.ctx.replayOf.isNone && c.stallFor.any (fun g => !(s.grain g).coming) then some t.ctx.place
      else none
    | [] => none
  else none

/-- The end-tick edge of the packet in hand (R37, R38): CONTINUE is marked LATE with an alarm, ABORT is stopped; the record
names the instruction last executed. A packet whose drain waits for a grain that cannot come back stops with
GRAIN_UNAVAILABLE under either policy (R207). -/
def State.judge (s : State) (e : Nat) : State :=
  match s.run e with
  | none => s
  | some r =>
    if r.judged ∨ r.stopped ∨ r.replayOf.isSome ∨ s.now < r.stop then s
    else
      let second := if s.engineCoasts e then 0x0C else 0
      match s.drainLost e with
      | some p => (s.setRun e { r with judged := true }).faultIn e 7 p
      | none =>
        if r.abort then
          (s.setRun e { r with judged := true, stopped := true, status := 0x50, fault := 5, second := second,
                               recItem := r.executed }).alarm e 5
        else (s.setRun e { r with judged := true, late := true, second := second }).alarm e 5

/-- A run for the next packet of an engine. -/
def NextPacket.toRun (p : NextPacket) : Run :=
  { pid := p.packet.pid, kind := p.packet.kind, bind := p.bind, step := p.step, start := p.start, stop := p.stop,
    budget := p.budget, abort := p.packet.abort, body := p.packet.body, bodyLen := p.packet.bodyLen,
    rngStream := p.packet.rngStream, genBase := rngBaseOf p.packet.rngOffset p.bind.rngBase p.step }

/-- The engine moves past its next packet. -/
def State.advance (s : State) (e : Nat) (binds : List BindUse) (step idx : Nat) : State :=
  s.modEngine e (fun g => { g with binds := binds, step := step, idx := idx + 1 })

/-- The next packet never starts: it is reported with a fault and its uses are dropped (R38, R207). -/
def State.skipPacket (s : State) (e code : Nat) : State :=
  match s.nextPacket e with
  | none => s
  | some (p, binds, step, idx) =>
    let r := { p.toRun with status := 0x50, fault := code,
                            second := if code = 5 ∧ s.engineCoasts e then 0x0C else 0 }
    (((s.advance e binds step idx).alarm e code).report e r).dropUses r.pid

/-- The fault of a packet that has not started at its end-tick edge: GRAIN_UNAVAILABLE when it is held for a grain that cannot
come back by itself, else OVERRUN (R38, R207). -/
def State.missedCode (s : State) (pid : Nat) : Nat :=
  if (s.grainsOf pid).all (fun g => (s.grain g).coming) then 5 else 7

/-! ## Replays that go before list packets (R203, R204) -/

/-- A replay string (R203). -/
structure RString where
  segs : List (Nat × Nat × Nat) := []   -- packet, first item, items
  inputs : List Nat := []
  budget : Nat := 0
  deriving DecidableEq, Repr

/-- Replay string `i` of the active plan. -/
def State.stringAt (s : State) (i : Nat) : RString :=
  match s.binding.active with
  | none => {}
  | some b => match s.tableOf b.addr 5 with
    | none => {}
    | some t =>
      let a := t.base + 128 * i
      { segs := (List.range (s.ld 1 (a + 0x70))).map (fun k => (s.ld 4 (a + 16 * k), s.ld 4 (a + 16 * k + 4), s.ld 4 (a + 16 * k + 8))),
        inputs := (List.range (s.ld 1 (a + 0x71))).map (fun k => s.ld 4 (a + 0x40 + 4 * k)), budget := s.ld 4 (a + 0x74) }

/-- The engine whose list holds a packet, and the packet. -/
def State.findPacket (s : State) (img pid : Nat) : Option (Nat × Packet) :=
  ((s.sections img).filter (fun x => x.type == 2)).findSome? (fun l =>
    (findN l.count (fun i => s.ld 4 (s.packetAddr l.base i) == pid)).map (fun i => (l.target, s.packetAt (s.packetAddr l.base i))))

/-- Whether a replay goes ahead of an engine's next list packet: a replay core with a replay queued or in hand, or a
vector engine whose segment is next (R204). -/
def State.replayAhead (s : State) (e : Nat) : Bool :=
  let y := s.yoyo (engDie e)
  match engClass e with
  | 2 => y.replays.any (fun r => r.core == some (engInst e)) ||
      (bitOf (s.act (rYoyoReplayCores (engDie e))) (engInst e) && y.replays.any (fun r => r.core.isNone))
  | 3 => ((s.yoyo 0).replays ++ (s.yoyo 1).replays).any (fun r => r.core.isSome && r.begun && !r.failed &&
      match s.binding.active, ((s.stringAt (s.grain r.grain).replay).segs)[r.seg]? with
      | some b, some sg => match s.findPacket b.addr sg.1 with
        | some (e', _) => e' == e
        | none => false
      | _, _ => false)
  | _ => false

/-- A packet of a kind starts (R35, R36, R49, R207): it is the engine's next, its start tick has been observed, no swap
is due, nothing is in hand and its grains are LIVE. A body that reads with an uncorrectable error faults it (R108, R429). Answers the state, with the run in hand when it started; a run that
faults at once is in hand and stopped. -/
def State.startPacket (s : State) (e kind : Nat) : State :=
  if !isEngine e || (s.run e).isSome || s.engineBlocked e || s.swapDue || s.tickless || s.replayAhead e then s
  else match s.nextPacket e with
    | none => s
    | some (p, binds, step, idx) =>
      if p.packet.kind ≠ kind ∨ s.now < p.start then s
      else if p.packet.abort ∧ p.stop ≤ s.now then s.skipPacket e (s.missedCode p.packet.pid)
      else
        let (s, ready) := s.needGrains p.packet.pid
        if !ready then s
        else
          let r := { p.toRun with began := s.now, rampCfg := bitsOf (s.act rPwrRampCfg) 1 0 }
          let (bounds, used) := s.boundsOf p
          let r := match s.shapeWords p with
            | some ws => { r with shapes := ws, dimsUsed := used }
            | none => r
          let s := (s.advance e binds step idx).setRun e r
          let s := if s.selected e 3 1 then
              let (s, c) := s.draw 2
              s.emit e 3 1 0 (leBytes 4 r.pid ++ leBytes 4 0 ++ leBytes 8 c)
            else s
          let s := s.judge e
          if s.badRange (p.packet.body - 64) (64 + p.packet.bodyLen) then (s.memBad).faultRun e 6
          else match s.shapeWords p with
          | some ws =>
            if s.badRange p.packet.shapes 24 then (s.memBad).faultRun e 6
            else match shapeCheck ws bounds used with
              | 0 => s
              | c => s.faultRun e c
          | none => s

/-- Whether the packet an engine takes next is of a kind, with a body that satisfies `p`. -/
def State.nextIs (s : State) (e kind : Nat) (p : Nat → Bool) : Bool :=
  match s.nextPacket e with
  | some (n, _, _, _) => n.packet.kind == kind && p n.packet.body
  | none => false

/-- Whether the packet in hand of an engine is of a kind and goes on. -/
def State.goes (s : State) (e kind : Nat) : Bool :=
  match s.run e with
  | some r => r.kind == kind && !r.stopped && !r.retired && !s.engineBlocked e
  | none => false

/-- The packet in hand has retired its last instruction. -/
def State.retire (s : State) (e : Nat) : State := s.modRun e (fun r => { r with retired := true })

/-- A completion status that a packet still OK takes (R334). -/
def Run.withStatus (r : Run) (st : Nat) : Run := if r.status = 0 then { r with status := st } else r

/-- What still holds a packet back from completing (R37, R109): open or draining tiles of its stream, taps not yet
judged, and packets of a send that wait to be sent or acknowledged (R311). -/
def State.runBusy (s : State) (e : Nat) (r : Run) : Bool :=
  let taps := (s.yoyo 0).taps.any (fun t => t.engine == e && t.pid == r.pid) ||
    (s.yoyo 1).taps.any (fun t => t.engine == e && t.pid == r.pid)
  match engClass e with
  | 1 | 2 =>
    let c := s.core (coreKey (engDie e) (engInst e))
    let st := engClass e - 1
    taps || (!r.stopped && c.tiles.any (fun t => t.stream == st)) || c.drainQ.any (fun t => t.stream == st)
  | 9 => s.ports.any (fun q => q.queues.any (fun l => l.any (fun t => t.pid == r.pid)) || q.retry.any (fun t => t.2.1.pid == r.pid)) ||
      s.localQ.any (fun t => t.pid == r.pid)
  | _ => taps

/-- What an engine's packet holds of KV regions is given up: its lock, its place among the waiters, its readings (R164). -/
def State.dropKv (s : State) (e : Nat) : State :=
  let mine := s.kv.filter (fun x => x.2.lock == some e || x.2.waiters.contains e || x.2.readers.contains e)
  mine.foldl (fun t x =>
    let u := { x.2 with
      lock := if x.2.lock = some e then none else x.2.lock, waiters := x.2.waiters.filter (fun w => w != e),
      readers := x.2.readers.filter (fun w => w != e), evicting := x.2.evicting && x.2.lock != some e }
    { t with kv := Tbl.set (fun _ => {}) t.kv x.1 u }) s

/-- What a packet of a core's stream still holds in the core is dropped (R109). -/
def State.clearStream (s : State) (e : Nat) : State :=
  s.modCore (coreKey (engDie e) (engInst e)) (fun c =>
    let st := engClass e - 1
    { c with tiles := c.tiles.filter (fun t => t.stream != st), chosen := if c.chosen = some st then none else c.chosen,
             loads := c.loads.filter (fun l => l.stream != st), tbuf := c.tbuf.filter (fun l => l.stream != st),
             rowAcc := c.rowAcc.filter (fun a => a.stream != st) })

/-- PACKET_COMPLETE (R37): the last instruction has retired, or the packet has stopped, and every write is accepted; the
packet is reported and its grain uses and holdings are released. `cycles`: the ECLK cycles it was in hand (R245, R231). -/
def execPacketComplete (e cycles : Nat) (s : State) : Answer :=
  answer s (
    match s.run e with
    | none => s
    | some r =>
      if !(r.retired || r.stopped) || r.replayOf.isSome || s.runBusy e r || s.snap.held.any (fun h => h.engine == some e) then s
      else
        let s := s.judge e
        let r := (s.run e).getD r
        let r := match r.stopped, r.cur.claimed with
          | true, some i => { r with neverBegun := i }
          | _, _ => r
        let s := match engClass e with
          | 3 => s.count (rVecCtrBUSYCYCLES (engDie e) (engInst e)) cycles
          | 6 => s.count (rCodecCtrBUSYCYCLES (engDie e) (engInst e)) cycles
          | 1 | 2 => s.clearStream e
          | _ => s
        (((s.modEngine e (fun g => { g with run := none })).dropKv e).report e r).dropUses r.pid)

/-- The grains that the drain of an engine's packet waits for. -/
def State.drainWaits (s : State) (e : Nat) : List Nat :=
  if engClass e = 1 ∨ engClass e = 2 then
    let c := s.core (coreKey (engDie e) (engInst e))
    match c.stalled, c.drainQ with
    | true, t :: _ => if t.ctx.engine = e then c.stallFor else []
    | _, _ => []
  else []

/-- Of the first of some grains, the consumers' wait is counted (R214). -/
def State.countFirst (s : State) (gs : List Nat) (waited : Nat) : State :=
  match gs with
  | g :: _ => s.countWaited g waited
  | [] => s

/-- WINDOW_END (R38, R207): the engine's domain observes an end-tick edge: of the packet in hand, else of the next one,
which has not started. `waited`: the ECLK cycles for which the packet waited for grains, when its wait ends here (R214). -/
def execWindowEnd (e : Timed) (s : State) : Answer :=
  answer s (
    let waited := e.cycles
    let e := e.unit
    let lost := s.drainLost e
    let u := s.judge e
    let u := match s.run e with
      | some r => if lost.isSome && !r.judged && decide (r.stop ≤ s.now) then u.countFirst (s.drainWaits e) waited else u
      | none => u
    match u.nextPacket e with
    | none => u
    | some (p, _, _, _) =>
      let held := (u.grainsOf p.packet.pid).filter (fun g => !(u.grain g).complete)
      if u.now < p.stop then u
      else if (u.run e).isNone ∧ u.missedCode p.packet.pid = 7 then (u.skipPacket e 7).countFirst held waited
      else if p.packet.abort then (u.skipPacket e 5).countFirst held waited
      else u)

/-- Engines whose next packet is held for a grain: eligible, nothing in hand, and a consumer of it. -/
def State.heldFor (s : State) (g : Nat) : List Nat :=
  s.engines.filterMap (fun ee =>
    if ee.2.run.isSome then none
    else match s.nextPacket ee.1 with
      | some (p, _, _, _) =>
        if p.start ≤ s.now ∧ (s.grain g).consumers.contains p.packet.pid then some ee.1 else none
      | none => none)

/-- A restore fails (R206): the grain becomes EMPTY and unavailable, the packets held for it fault, and the drains that wait
for it take NaN (R207). -/
def State.failGrain (s : State) (g : Nat) : State :=
  let es := s.heldFor g
  let s := es.foldl (fun t e => t.skipPacket e 7) (s.restoreFailed g)
  { s with cores := s.cores.map (fun c =>
      (c.1, if c.2.stalled && c.2.stallFor.contains g then { c.2 with lost := c.2.lost ++ [g] } else c.2)) }

end Sys2Proof.Machine
end

