-- ==== Sys2Proof/Machine/Drain.lean ====
section
/-!
DEFINITION. Machine/Drain.lean: the drain unit and its fused chains (R110 to R125): a tile's values pass the entry stage
and the steps of its packet's chain; what the steps write, tap and keep is collected, and takes effect in step order.
-/

namespace Sys2Proof.Machine

/-! ## Step fields (R111) -/

def stepOp (w : W64) : Nat := bitsOf w.toNat 7 0
def stepCtl (w : W64) : Nat := bitsOf w.toNat 15 8
def stepAddr (w : W64) : Nat := bitsOf w.toNat 63 16
def stepOff (w : W64) : Int := signedOf 48 (bitsOf w.toNat 63 16)
def stepWriteOff (w : W64) : Int := 64 * signedOf 40 (bitsOf w.toNat 63 24)
def stepCvt (w : W64) : Nat := bitsOf w.toNat 23 16
def stepGrain (w : W64) : Nat := bitsOf w.toNat 43 24
/-- Grain index of ACT_DERIV, in bytes 2 to 4. -/
def stepSrcGrain (w : W64) : Nat := bitsOf w.toNat 35 16

/-- Whether a step runs at half rate (R111, R113). -/
def stepHalf (w : W64) : Bool :=
  match stepOp w with
  | 0x05 | 0x06 => actHalf (bitsOf (stepCtl w) 3 0)
  | 0x08 => true
  | 0x0B => match Cvt.ofByte (stepCvt w) with
    | some c => c.sr || c.fmt.scaled
    | none => false
  | _ => false

/-- Q, the drain's occupancy of a tile without stalls (R123). -/
def chainQ (chain : List W64) : Nat := if chain.any stepHalf then 256 else 128

/-- Grains whose data a chain's ACT_DERIV steps read (R114). -/
def chainGrains (chain : List W64) : List Nat :=
  chain.filterMap (fun w => if stepOp w == 0x06 && bitOf (stepCtl w) 4 then some (stepSrcGrain w) else none)

/-- The element format of ACT_DERIV's source (R114); none is MASK1. -/
def derivFmt (w : W64) : Option Fmt :=
  match bitsOf (stepCtl w) 7 5 with
  | 0 => some .fp32
  | 1 => some .bf16
  | 2 => some .fp16
  | _ => none

/-! ## Addresses -/

/-- An address with a signed offset. -/
def addOff (a : Nat) (o : Int) : Nat := ((a : Int) + o).toNat
def offBad (a : Nat) (o : Int) : Bool := decide ((a : Int) + o < 0)

/-- Element number of (row i, column j) of a tile in its C (R112, R120). -/
def DrainCtx.elem (c : DrainCtx) (i j : Nat) : Nat := (c.row0 + i) * c.ldc + c.col0 + j
/-- Its number in taps and in the generator's counters: (b × M + r) × ldc + c (R116, R121). -/
def DrainCtx.flat (c : DrainCtx) (i j : Nat) : Nat := (c.stat0 + i) * c.ldc + c.col0 + j

/-- First byte of the row's elements at a base, for elements of `bits` bits. -/
def DrainCtx.rowAt (c : DrainCtx) (base bits i : Nat) : Nat := base + c.elem i 0 * bits / 8

/-- Scale plane of a block-scaled C at an element base (R95). -/
def DrainCtx.scaleBase (c : DrainCtx) (f : Fmt) (base : Nat) : Nat := alignUp (base + f.elemBytes (c.planeRows * c.ldc)) 256

/-- Address of row i's ROWSTAT record (R117). -/
def DrainCtx.statAt (c : DrainCtx) (w : W64) (i : Nat) : Nat :=
  if bitOf (stepCtl w) 3 then stepAddr w + (c.stat0 + i) * 16
  else stepAddr w + ((c.stat0 + i) * c.nTiles + c.nt) * 16

/-- The memory ranges a step of a tile's chain touches, for the check of R108: (address, bytes, whether they must be
stack or shared memory, as accumulate-writes must). -/
def stepRanges (c : DrainCtx) (w : W64) : List (Nat × Nat × Bool) :=
  let rows := List.range c.rows
  match stepOp w with
  | 0x02 | 0x03 =>
    match Fmt.ofCode (bitsOf (stepCtl w) 7 4) with
    | some f =>
      let b := f.elemBits / 8
      if bitOf (stepCtl w) 0 then [(stepAddr w + c.col0 * b, c.cols * b, false)]
      else [(stepAddr w + c.row0 * b, c.rows * b, false)]
    | none => []
  | 0x04 =>
    match Fmt.ofCode (bitsOf (stepCtl w) 3 0) with
    | some f => rows.map (fun i => (c.rowAt (addOff c.cBase (stepOff w)) f.elemBits i, f.elemBytes c.cols, false))
    | none => []
  | 0x06 =>
    if bitOf (stepCtl w) 4 then []
    else
      let base := addOff c.cBase (stepOff w)
      match derivFmt w with
      | some f => rows.map (fun i => (c.rowAt base f.elemBits i, f.elemBytes c.cols, false))
      | none => rows.map (fun i => (base + c.elem i 0 / 8, (c.elem i (c.cols - 1)) / 8 - c.elem i 0 / 8 + 1, false))
  | 0x09 => rows.map (fun i => (c.statAt w i, 12, bitOf (stepCtl w) 4))
  | 0x0A => rows.map (fun i => (stepAddr w + (c.stat0 + i) * 8, 8, false))
  | 0x0C =>
    if bitOf (stepCtl w) 0 then []
    else match Cvt.ofByte (stepCvt w) with
      | some k =>
        let base := addOff c.cBase (stepWriteOff w)
        let es := rows.map (fun i => (c.rowAt base k.fmt.elemBits i, k.fmt.elemBytes c.cols, bitOf (stepCtl w) 1))
        if k.fmt.scaled then
          es ++ rows.map (fun i => (c.scaleBase k.fmt base + c.elem i 0 / k.fmt.block * k.fmt.scaleBytes,
            ceilDiv c.cols k.fmt.block * k.fmt.scaleBytes, false))
        else es
      | none => []
  | _ => []

/-- A step whose signed offset leads below address 0. -/
def stepBelow (c : DrainCtx) (w : W64) : Bool :=
  match stepOp w with
  | 0x04 => offBad c.cBase (stepOff w)
  | 0x06 => !bitOf (stepCtl w) 4 && offBad c.cBase (stepOff w)
  | 0x0C => !bitOf (stepCtl w) 0 && offBad c.cBase (stepWriteOff w)
  | _ => false

/-- Whether the address range may be accessed (R9). -/
def State.mayTouch (s : State) (a n : Nat) (memOnly : Bool) : Bool :=
  n == 0 || inMem a n || (!memOnly && (inSpace .ctl a n || s.poolOk a n))

/-- The grain a step taps, or reads by ACT_DERIV, and the bits of each element there: 1 for MASK1. -/
def stepGrainUse (w : W64) : Option (Nat × Nat) :=
  if stepOp w = 0x0D then
    some (stepGrain w, if bitOf (stepCtl w) 0 then 1 else match Cvt.ofByte (stepCvt w) with
      | some k => k.fmt.elemBits
      | none => 0)
  else if stepOp w = 0x06 ∧ bitOf (stepCtl w) 4 then some (stepSrcGrain w, ((derivFmt w).map (fun f => f.elemBits)).getD 1)
  else none

/-- A grain tapped, or read by ACT_DERIV (R138), is large enough for a tile (R121): its size is 2^z (R191). -/
def State.grainFits (s : State) (c : DrainCtx) (w : W64) : Bool :=
  match stepGrainUse w with
  | some u => c.rows == 0 || c.cols == 0 ||
      decide (ceilDiv ((c.flat (c.rows - 1) (c.cols - 1) + 1) * u.2) 8 ≤ 2 ^ (s.grain u.1).size)
  | none => true

/-- The check of R108 and R121 over a tile's chain: every address may be accessed, and every grain is large enough. -/
def State.chainOk (s : State) (c : DrainCtx) : Bool :=
  c.chain.all (fun w =>
    !stepBelow c w && (stepRanges c w).all (fun r => s.mayTouch r.1 r.2.1 r.2.2) && s.grainFits c w)

/-! ## The chain -/

/-- What a step hands on: to memory, to memory by accumulate-write (with `bf`, of BF16 elements), to the operand buffer,
or to a Yo-yo. -/
inductive DrainOut where
  | store (a : Nat) (bs : List Byte)
  | accum (bf : Bool) (a : Nat) (xs : List W32)
  | ob (off : Nat) (bs : List Byte)
  | tap (t : Tap)
  deriving DecidableEq, Repr

/-- A tile on its way through the chain. -/
structure DrainAcc where
  vals : List (List W32)
  quant : Option (Cvt × List (List Nat × List Nat)) := none
  outs : List DrainOut := []
  fault : Nat := 0
  accs : List RowAcc := []
  deriving DecidableEq, Repr

def DrainAcc.note (d : DrainAcc) (f : Nat) : DrainAcc := if d.fault = 0 then { d with fault := f } else d

/-- Elements a chain reads from memory: exact values, and a fault code. What an uncorrectable word gives is left open. -/
def State.srcElems (s : State) (f : Fmt) (a n : Nat) : List W32 × Nat :=
  match s.load a (f.elemBytes n) with
  | .ok bs => ((decodePlains f n bs).map toF32, 0)
  | .fault c => ((List.range n).map (fun i => (Config.freeValue 3 (s.free * 2 ^ 64 + a + i)).truncate 32), c)

/-- The bits of MASK1 from a bit position (R114, R121). -/
def State.srcBits (s : State) (base pos n : Nat) : List Bool × Nat :=
  let first := pos / 8
  match s.load (base + first) ((pos + n - 1) / 8 - first + 1) with
  | .ok bs => ((List.range n).map (fun i => bitOf (leNat bs) (pos % 8 + i)), 0)
  | .fault c => ((List.range n).map (fun i => bitOf (Config.freeValue 3 (s.free * 2 ^ 64 + base + pos + i)).toNat 0), c)

/-- The drain's random word of an element (R116). -/
def DrainCtx.drainWord (c : DrainCtx) (i j slot : Nat) : Nat :=
  philoxWord c.seed c.rngStream (c.genBase + 4 * c.flat i j + slot)

/-- A fixed pairwise tree: neighbours are added at each level (R117; log 12). -/
def treeSum : Nat → List W32 → W32
  | 0, xs => xs.headD 0#32
  | n + 1, xs => treeSum n ((chunksOf 2 (xs.length + 1) xs).map (fun p => match p with
    | [a, b] => f32Add a b
    | _ => p.headD 0#32))

/-- A row filled with +0 to 128 columns. -/
def padRow (r : List W32) : List W32 := (r ++ List.replicate 128 0#32).take 128

/-- Change each value with its row and column. -/
def mapTile (v : List (List W32)) (f : Nat → Nat → W32 → W32) : List (List W32) :=
  (indexed v).map (fun ir => (indexed ir.2).map (fun jx => f ir.1 jx.1 jx.2))

/-- Combine each row with a row of source values. -/
def zipTile (v src : List (List W32)) (f : W32 → W32 → W32) : List (List W32) :=
  (v.zip src).map (fun p => (p.1.zip p.2).map (fun q => f q.1 q.2))

/-- First fault of a list of reads. -/
def firstFault (l : List Nat) : Nat := (l.find? (fun c => c != 0)).getD 0

/-- SCALE_V and BIAS (R112): the vector's elements laid over the tile. -/
def State.vectorOf (s : State) (c : DrainCtx) (w : W64) (v : List (List W32)) : List (List W32) × Nat :=
  match Fmt.ofCode (bitsOf (stepCtl w) 7 4) with
  | none => (v, 0)
  | some f =>
    let b := f.elemBits / 8
    if bitOf (stepCtl w) 0 then
      let r := s.srcElems f (stepAddr w + c.col0 * b) c.cols
      (v.map (fun _ => r.1), r.2)
    else
      let r := s.srcElems f (stepAddr w + c.row0 * b) c.rows
      ((r.1.zip v).map (fun xr => xr.2.map (fun _ => xr.1)), r.2)

/-- RESIDUAL's and ACT_DERIV's rows in a plain format at an element base. -/
def State.tensorOf (s : State) (c : DrainCtx) (f : Fmt) (base : Nat) (num : Nat → Nat) : List (List W32) × Nat :=
  let rs := (List.range c.rows).map (fun i => s.srcElems f (base + num i * f.elemBits / 8) c.cols)
  (rs.map (fun r => r.1), firstFault (rs.map (fun r => r.2)))

/-- The pre-activations of ACT_DERIV as multipliers (R113, R114): f′(x), or the mask's 1 and 0. `nan`: the grain cannot
be read (R207). -/
def State.derivOf (s : State) (c : DrainCtx) (w : W64) (nan : Bool) : List (List (Option W32)) × Nat :=
  let grain := bitOf (stepCtl w) 4
  let base := if grain then (s.grain (stepSrcGrain w)).rawBase else addOff c.cBase (stepOff w)
  let num := fun i => if grain then c.flat i 0 else c.elem i 0
  let fn := bitsOf (stepCtl w) 3 0
  if nan then ((List.range c.rows).map (fun _ => (List.range c.cols).map (fun _ => some f32NaN)), 0)
  else match derivFmt w with
    | some f =>
      let r := s.tensorOf c f base num
      (r.1.map (fun row => row.map (fun x => some (actD fn x))), r.2)
    | none =>
      let rs := (List.range c.rows).map (fun i => s.srcBits base (num i) c.cols)
      (rs.map (fun r => r.1.map (fun b => if b then some f32One else none)), firstFault (rs.map (fun r => r.2)))

/-- QUANT (R119): each row's blocks, a partly valid one filled with +0. -/
def quantise (c : DrainCtx) (w : W64) (k : Cvt) (v : List (List W32)) : List (List Nat × List Nat) :=
  let slot := bitsOf (stepCtl w) 1 0
  let tau := signedOf 8 (bitsOf w.toNat 39 32)
  (indexed v).map (fun ir =>
    let rnd := fun j => k.rnd (bitsOf (c.drainWord ir.1 j slot) 31 16)
    if k.fmt.scaled then
      let n := alignUp ir.2.length k.fmt.block
      let xs := ((padRow ir.2).take n).map ofF32
      let bs := (indexed (chunksOf k.fmt.block (n + 1) xs)).map (fun ib =>
        encodeBlock k.fmt k.ovfNan tau .first (fun e => rnd (ib.1 * k.fmt.block + e)) ib.2)
      (bs.flatMap (fun b => b.2), bs.map (fun b => b.1))
    else ((indexed ir.2).map (fun jx => convPlain k.fmt k.ovfNan (rnd jx.1) (ofF32 jx.2)), []))

/-- The elements of each row in the format of a WRITE or TAP: QUANT's, or converted under the step's own control byte
(R119, R120). -/
def narrowed (c : DrainCtx) (k : Cvt) (slot : Nat) (d : DrainAcc) : List (List Nat × List Nat) :=
  match d.quant with
  | some q => q.2
  | none => (indexed d.vals).map (fun ir =>
      ((indexed ir.2).map (fun jx =>
        convPlain k.fmt k.ovfNan (k.rnd (bitsOf (c.drainWord ir.1 jx.1 slot) 31 16)) (ofF32 jx.2)), []))

/-- WRITE (R120). -/
def chainWrite (c : DrainCtx) (w : W64) (d : DrainAcc) : DrainAcc :=
  match Cvt.ofByte (stepCvt w) with
  | none => d
  | some k =>
    let rows := (indexed (narrowed c k (bitsOf (stepCtl w) 3 2) d)).reverse
    let f := k.fmt
    let outs : List DrainOut :=
      if bitOf (stepCtl w) 0 then
        let o := 256 * bitsOf w.toNat 39 24
        rows.flatMap (fun ir =>
          DrainOut.ob (o + ir.1 * 128 * f.elemBits / 8) (packElems f.elemBits (ir.2.1.take c.cols)) ::
            (if f.scaled then [DrainOut.ob (o + 128 * 128 * f.elemBits / 8 + ir.1 * (128 / f.block) * f.scaleBytes)
              (ir.2.2.flatMap (leBytes f.scaleBytes))] else []))
      else
        let base := addOff c.cBase (stepWriteOff w)
        if bitOf (stepCtl w) 1 then
          if c.replayOf.isSome then []
          else
            let xs := match d.quant with
              | some q => q.2.map (fun r => r.1.map (fun e => toF32 (decodePlain f e)))
              | none => d.vals
            (indexed xs).reverse.map (fun ir => DrainOut.accum (f == .bf16) (c.rowAt base f.elemBits ir.1) ir.2)
        else
          rows.flatMap (fun ir =>
            DrainOut.store (c.rowAt base f.elemBits ir.1) (packElems f.elemBits (ir.2.1.take c.cols)) ::
              (if f.scaled then [DrainOut.store (c.scaleBase f base + c.elem ir.1 0 / f.block * f.scaleBytes)
                (ir.2.2.flatMap (leBytes f.scaleBytes))] else []))
    { d with outs := d.outs ++ outs }

/-- TAP (R121). -/
def chainTap (c : DrainCtx) (w : W64) (d : DrainAcc) : DrainAcc :=
  let base : Tap := { grain := stepGrain w, offset := 0, bytes := [], engine := c.engine, pid := c.pid, replayOf := c.replayOf }
  let outs : List DrainOut :=
    if bitOf (stepCtl w) 0 then
      (indexed d.vals).reverse.map (fun ir =>
        let bits := (indexed ir.2).map (fun jx => (c.flat ir.1 jx.1, Fp.lt Fp.zero (ofF32 jx.2)))
        let first := c.flat ir.1 0 / 8
        let n := c.flat ir.1 (c.cols - 1) / 8 - first + 1
        DrainOut.tap { base with offset := first, bytes := List.replicate n 0#8, mask := true, bits := bits })
    else match Cvt.ofByte (stepCvt w) with
      | none => []
      | some k =>
        (indexed (narrowed c k 0 d)).reverse.map (fun ir =>
          DrainOut.tap { base with offset := c.flat ir.1 0 * k.fmt.elemBits / 8,
                                   bytes := packElems k.fmt.elemBits ir.2.1 })
  { d with outs := d.outs ++ outs }

/-- The statistics of a row (R117). -/
def rowStats (r : List W32) : W32 × W32 × W32 :=
  (treeSum 7 (padRow r), treeSum 7 (padRow (r.map (fun x => f32Mul x x))),
    match r with
    | [] => f32NegInf
    | x :: xs => xs.foldl f32Max (if f32IsNaN x then f32NaN else x))

/-- The running maximum of R118 over a row from column `col`. -/
def argmaxRow (col : Nat) : List W32 → Option (W32 × Nat) → Option (W32 × Nat)
  | [], best => best
  | x :: xs, best =>
    let next := match best with
      | none => some (if f32IsNaN x then f32NaN else x, col)
      | some (b, i) =>
        if f32IsNaN b then some (b, i)
        else if f32IsNaN x then some (f32NaN, col)
        else if f32Lt b x then some (x, col)
        else some (b, i)
    argmaxRow (col + 1) xs next

/-- The record fields of ROWSTAT, written or accumulated (R117). -/
def statOuts (c : DrainCtx) (w : W64) (i : Nat) (sum sumsq max : W32) : List DrainOut :=
  let a := c.statAt w i
  let sel := [(0, 0, sum), (1, 4, sumsq), (2, 8, max)].filter (fun p => bitOf (stepCtl w) p.1)
  if bitOf (stepCtl w) 4 then
    (if c.replayOf.isSome then [] else sel.map (fun p => DrainOut.accum false (a + p.2.1) [p.2.2]))
  else sel.map (fun p => DrainOut.store (a + p.2.1) (leBytes 4 p.2.2.toNat))

/-- A row's results over the item's N tiles are complete: they leave in ascending nt. -/
def takeRow (accs : List RowAcc) (stream slot row count : Nat) : List RowAcc × Option (List RowAcc) :=
  let mine := accs.filter (fun a => a.stream == stream && a.slot == slot && a.row == row)
  if mine.length < count then (accs, none)
  else (accs.filter (fun a => !(a.stream == stream && a.slot == slot && a.row == row)),
    some (mine.mergeSort (fun a b => decide (a.nt ≤ b.nt))))

/-- ROWSTAT (R117). -/
def chainStat (c : DrainCtx) (stream slot : Nat) (w : W64) (d : DrainAcc) : DrainAcc :=
  (indexed d.vals).reverse.foldl (fun d ir =>
    let st := rowStats ir.2
    if !bitOf (stepCtl w) 3 then { d with outs := d.outs ++ statOuts c w ir.1 st.1 st.2.1 st.2.2 }
    else
      let acc : RowAcc := { stream := stream, slot := slot, row := c.stat0 + ir.1, nt := c.nt, sum := st.1, sumsq := st.2.1, max := st.2.2, arg := 0 }
      let r := takeRow (d.accs ++ [acc]) stream slot acc.row c.nCount
      match r.2 with
      | none => { d with accs := r.1 }
      | some [] => { d with accs := r.1 }
      | some (a :: l) =>
        let sum := l.foldl (fun x b => f32Add x b.sum) a.sum
        let sq := l.foldl (fun x b => f32Add x b.sumsq) a.sumsq
        let mx := l.foldl (fun x b => f32Max x b.max) a.max
        { d with accs := r.1, outs := d.outs ++ statOuts c w ir.1 sum sq mx }) d

/-- ARGMAX (R118). -/
def chainArgmax (c : DrainCtx) (stream slot : Nat) (w : W64) (d : DrainAcc) : DrainAcc :=
  (indexed d.vals).reverse.foldl (fun d ir =>
    match argmaxRow c.col0 ir.2 none with
    | none => d
    | some (m, i) =>
      let acc : RowAcc := { stream := stream, slot := slot, row := c.stat0 + ir.1, nt := c.nt, sum := 0#32, sumsq := 0#32, max := m, arg := i }
      let r := takeRow (d.accs ++ [acc]) stream slot acc.row c.nCount
      match r.2 with
      | none => { d with accs := r.1 }
      | some [] => { d with accs := r.1 }
      | some (a :: l) =>
        let best := l.foldl (fun (b : W32 × Nat) x =>
          if f32IsNaN b.1 then b else if f32IsNaN x.max then (f32NaN, x.arg) else if f32Lt b.1 x.max then (x.max, x.arg) else b)
          (a.max, a.arg)
        { d with accs := r.1, outs := d.outs ++ [DrainOut.store (stepAddr w + acc.row * 8) (leBytes 4 best.2 ++ leBytes 4 best.1.toNat)] }) d

/-- One step of the chain, in slot `slot` of the chain area. `nans` names grains that cannot be read (R207). -/
def State.chainStep (s : State) (c : DrainCtx) (stream : Nat) (nans : List Nat) (slot : Nat) (w : W64) (d : DrainAcc) :
    DrainAcc :=
  match stepOp w with
  | 0x01 =>
    let x := BitVec.ofNat 32 (bitsOf w.toNat 63 32)
    { d with vals := mapTile d.vals (fun _ _ v => f32Mul v x) }
  | 0x02 =>
    let r := s.vectorOf c w d.vals
    { d.note r.2 with vals := zipTile d.vals r.1 f32Mul }
  | 0x03 =>
    let r := s.vectorOf c w d.vals
    { d.note r.2 with vals := zipTile d.vals r.1 f32Add }
  | 0x04 =>
    match Fmt.ofCode (bitsOf (stepCtl w) 3 0) with
    | some f =>
      let r := s.tensorOf c f (addOff c.cBase (stepOff w)) (fun i => c.elem i 0)
      { d.note r.2 with vals := zipTile d.vals r.1 f32Add }
    | none => d
  | 0x05 => { d with vals := mapTile d.vals (fun _ _ v => actF (bitsOf (stepCtl w) 3 0) v) }
  | 0x06 =>
    let r := s.derivOf c w (bitOf (stepCtl w) 4 && nans.contains (stepSrcGrain w))
    { d.note r.2 with vals := (d.vals.zip r.1).map (fun p => (p.1.zip p.2).map (fun q => match q.2 with
        | some x => f32Mul q.1 x
        | none => 0#32)) }
  | 0x07 =>
    let lo := decodePlain .bf16 (bitsOf w.toNat 47 32)
    let hi := decodePlain .bf16 (bitsOf w.toNat 63 48)
    { d with vals := mapTile d.vals (fun _ _ v =>
        if bitOf (stepCtl w) 0 && Fp.lt (ofF32 v) lo then toF32 lo
        else if bitOf (stepCtl w) 1 && Fp.lt hi (ofF32 v) then toF32 hi
        else v) }
  | 0x08 =>
    let th := bitsOf w.toNat 63 32
    let k := toF32 (Fp.div (.fin false 1 32) (Fp.ofNat th))
    { d with vals := mapTile d.vals (fun i j v =>
        if c.drainWord i j (bitsOf (stepCtl w) 1 0) < th then (if bitOf (stepCtl w) 2 then f32Mul v k else v) else 0#32) }
  | 0x09 => chainStat c stream slot w d
  | 0x0A => chainArgmax c stream slot w d
  | 0x0B =>
    match Cvt.ofByte (stepCvt w) with
    | some k => { d with quant := some (k, quantise c w k d.vals) }
    | none => d
  | 0x0C => chainWrite c w d
  | 0x0D => chainTap c w d
  | _ => d

/-- The entry stage (R110): A16 to FP32, and the tensor exponents. -/
def entryValue (c : DrainCtx) (x : W32) : W32 :=
  let v := accValue c.a16 x
  if c.hb4 then toF32 ((ofF32 v).scale2 c.tau) else v

/-- What a chain makes of a tile's FP32 rows, with its reads taken in state `s`. -/
def State.runChain (s : State) (c : DrainCtx) (stream : Nat) (nans : List Nat) (accs : List RowAcc)
    (vals : List (List W32)) : DrainAcc :=
  (indexed c.chain).foldl (fun d iw => s.chainStep c stream nans iw.1 iw.2 d) { vals := vals, accs := accs }

/-- Carry out one output of a chain; a fault code, 0 for none. -/
def State.drainOut (s : State) (c : DrainCtx) (o : DrainOut) : State × Nat :=
  let k := coreKey (engDie c.engine) (engInst c.engine)
  match o with
  | .store a bs => s.put (some c.engine) a bs
  | .accum bf a xs => s.accumulate (some c.engine) bf a xs
  | .ob off bs => (s.modCore k (fun q => { q with ob := Tbl.setMany (fun _ => 0#8) q.ob off bs }), 0)
  | .tap t =>
    ((s.modYoyo (grainDie t.grain) (fun y => { y with taps := y.taps ++ [t] })).count
      (rCoreCtrTAPBYTES (engDie c.engine) (engInst c.engine)) t.bytes.length, 0)

/-- Carry out the outputs in order; the first fault is kept. -/
def State.drainOuts (s : State) (c : DrainCtx) : List DrainOut → Nat → State × Nat
  | [], f => (s, f)
  | o :: os, f =>
    let r := s.drainOut c o
    State.drainOuts r.1 c os (if f = 0 then r.2 else f)

/-- The ranges a chain reads. -/
def chainReads (c : DrainCtx) : List (Nat × Nat) :=
  (c.chain.filter (fun w => [2, 3, 4, 6].contains (stepOp w))).flatMap (fun w =>
    (stepRanges c w).map (fun r => (r.1, r.2.1)))

/-- A tile passes through the drain: counts, chain, outputs, and the fault of an unreadable operand. -/
def State.drainTile (s : State) (t : Tile) (nans : List Nat) : State :=
  let c := t.ctx
  let e := c.engine
  let k := coreKey (engDie e) (engInst e)
  let raw := t.vals.map (fun r => r.map (accValue c.a16))
  let bad := ((raw.flatten).filter (fun x => !f32IsFinite x)).length
  let vals := t.vals.map (fun r => r.map (entryValue c))
  let d := s.runChain c t.stream nans (s.core k).rowAcc vals
  let s := (s.noteReads (chainReads c)).modCore k (fun q => { q with rowAcc := d.accs })
  let r := s.drainOuts c d.outs d.fault
  let s := if d.fault = 0 then r.1 else { r.1 with free := r.1.free + 1 }
  let s := (s.count (rCoreCtrDRAINROWS (engDie e) (engInst e)) 128).count (rCoreCtrNONFINITE (engDie e) (engInst e)) bad
  let s := s.modRun e (fun q => if q.pid = c.pid then { q with nonfinite := q.nonfinite + bad } else q)
  let live := match s.run e with | some q => q.pid == c.pid && !q.stopped | none => false
  if !live then s
  else if r.2 ≠ 0 then s.faultIn e r.2 c.place
  else if nans ≠ [] then s.faultIn e 7 c.place
  else s

/-- How the drain of core `k` finds a grain its ACT_DERIV needs (R207): 0 it waits, 1 it can read it, 2 it takes NaN, since
the grain's restore failed while it waited, or its packet's end tick found the grain unable to come back by itself. -/
def State.drainGrain (s : State) (k e : Nat) (replay : Bool) (g : Nat) : Nat :=
  let x := s.grain g
  let ended := match s.run e with
    | some r => !replay && decide (r.stop ≤ s.now)
    | none => false
  if x.complete then 1
  else if (s.core k).lost.contains g || (ended && !x.coming) then 2
  else 0

/-- The drain of the head stalls, for these grains. It has begun, so its column path empties into the row buffer and its register set is free
(R75, R110, R124). -/
def State.stallHead (s : State) (k : Nat) (gs : List Nat) : State :=
  s.modCore k (fun q => { q with stalled := true, stallFor := gs, drainQ := match q.drainQ with
    | t :: ts => { t with set := none } :: ts
    | [] => [] })

/-- The head of the drain queue drains, or the drain stalls for a grain (R124, R207). -/
def State.drainHead (s : State) (k : Nat) : State :=
  match (s.core k).drainQ with
  | [] => s
  | t :: rest =>
    let gs := chainGrains t.ctx.chain
    let s := gs.foldl (fun u g => u.demand g) s
    let how := fun g => s.drainGrain k t.ctx.engine t.ctx.replayOf.isSome g
    if gs.any (fun g => how g == 0) then s.stallHead k (gs.filter (fun g => how g == 0))
    else (s.drainTile t (gs.filter (fun g => how g == 2))).modCore k (fun q => { q with drainQ := rest, stalled := false, stallFor := [], lost := [] })

/-- TILE_DRAIN (R110 to R123): the oldest fed tile enters the drain unit. `late`: a row's operand data has not arrived or
the write queue is full, and the drain stalls (R124; log 1). -/
def execTileDrain (die c : Nat) (late : Bool) (s : State) : Answer :=
  answer s (
    let k := coreKey die c
    if 2 ≤ die ∨ 64 ≤ c ∨ (s.core k).stalled then s
    else match (s.core k).drainQ with
      | [] => s
      | t :: _ =>
        if s.engineBlocked t.ctx.engine then s
        else if late then s.stallHead k []
        else s.drainHead k)

/-- DRAIN_STALL_RESUME (R124): the data has arrived or the queue has drained, `cycles` ACLK cycles after the stall began;
the drain goes on. A grain that is still missing keeps the stall. -/
def execDrainStallResume (die c cycles : Nat) (s : State) : Answer :=
  answer s (
    let k := coreKey die c
    if 2 ≤ die ∨ 64 ≤ c ∨ !(s.core k).stalled then s
    else match (s.core k).drainQ with
      | [] => s.modCore k (fun q => { q with stalled := false, stallFor := [], lost := [] })
      | t :: _ =>
        if s.engineBlocked t.ctx.engine then s
        else
          let u := s.drainHead k
          if (u.core k).stalled then u else u.count (rCoreCtrDRAINWAITCYCLES die c) cycles)

end Sys2Proof.Machine
end

