-- ==== Sys2Proof/Machine/Matrix.lean ====
section
/-!
DEFINITION. Machine/Matrix.lean: matrix sequences (R89 to R109): their items, claims, chunks and instructions, the
register sets and open tiles of a core (R101, R102, R139), and the feed of a tile.
-/

namespace Sys2Proof.Machine

/-! ## The sequence (R89, R90, R105) -/

/-- A matrix sequence's header, with the dimensions in force. -/
structure Seq where
  fmtA : Nat
  fmtB : Nat
  a16 : Bool
  load : Bool
  claim : Bool
  mFast : Bool
  cFmt : Nat
  steps : Nat
  gm : Nat
  gn : Nat
  share : Nat
  units : Nat
  instrs : Nat
  kChunk : Nat
  ping : Nat
  m : Nat
  n : Nat
  k : Nat
  batch : Nat
  ptr : Nat
  lda : Nat
  ldb : Nat
  ldc : Nat
  first : Nat
  step : Nat
  obBase : Nat
  obSize : Nat
  deriving DecidableEq, Repr

/-- The sequence of a packet. A replayed one (R204) takes the items of its segment one after another, without claims. -/
def State.seqOf (s : State) (r : Run) : Seq :=
  let b := r.body
  let mode := s.ld 1 (b + 1)
  { fmtA := s.ld 1 b % 16, fmtB := s.ld 1 b / 16, a16 := bitOf mode 0, load := bitsOf mode 2 1 == 1,
    claim := bitOf mode 3 && r.replayOf.isNone, mFast := bitOf mode 4, cFmt := s.ld 1 (b + 2) % 16, steps := s.ld 1 (b + 3),
    gm := s.ld 1 (b + 4), gn := s.ld 1 (b + 5), share := s.ld 1 (b + 6), units := s.ld 1 (b + 8),
    instrs := s.ld 1 (b + 9), kChunk := s.ld 2 (b + 0x0C), ping := s.ld 2 (b + 0x0E),
    m := r.dim 0 (s.ld 4 (b + 0x10)), n := r.dim 1 (s.ld 4 (b + 0x14)), k := r.dim 2 (s.ld 4 (b + 0x18)),
    batch := r.dim 3 (s.ld 4 (b + 0x1C)), ptr := s.ld 8 (b + 0x20), lda := s.ld 4 (b + 0x28), ldb := s.ld 4 (b + 0x2C),
    ldc := s.ld 4 (b + 0x30), first := if r.replayOf.isSome then 0 else s.ld 4 (b + 0x34),
    step := if r.replayOf.isSome then 1 else s.ld 4 (b + 0x38), obBase := s.ld 2 (b + 0x3C),
    obSize := s.ld 2 (b + 0x3E) }

/-- The steps of a chain area (R89). -/
def State.chainAt (s : State) (a n : Nat) : List W64 := (List.range n).map (fun i => BitVec.ofNat 64 (s.ld 8 (a + 8 * i)))

/-- The numbering of items (R91). -/
def Seq.mGroups (q : Seq) : Nat := ceilDiv (ceilDiv q.m 128) q.gm
def Seq.nGroups (q : Seq) : Nat := if q.gn = 0 then 1 else ceilDiv (ceilDiv q.n 128) q.gn
def Seq.items (q : Seq) : Nat := q.batch * q.mGroups * q.nGroups
/-- Entry, M group and N group of an item. -/
def Seq.itemAt (q : Seq) (i : Nat) : Nat × Nat × Nat :=
  let g := q.mGroups * q.nGroups
  let r := i % g
  (i / g, if q.mFast then r % q.mGroups else r / q.nGroups, if q.mFast then r / q.mGroups else r % q.nGroups)
/-- Chunks of an item, and a chunk's length (R93). -/
def Seq.chunks (q : Seq) : Nat := if q.k = 0 then 1 else ceilDiv q.k q.kChunk
def Seq.chunkLen (q : Seq) (j : Nat) : Nat := if q.k - j * q.kChunk < q.kChunk then q.k - j * q.kChunk else q.kChunk
/-- Open tiles a packet may have (R101). -/
def Seq.capacity (q : Seq) : Nat := q.share + (if q.a16 then q.units else q.units / 2)

/-- A pointer-list entry with its effective values (R94). -/
structure Entry where
  aBase : Nat
  bBase : Nat
  cBase : Nat
  mEff : Nat
  nEff : Nat
  fmtA : Nat
  fmtB : Nat
  tau : Int
  hb4 : Bool
  reserved : Bool     -- a reserved field is not zero (R7)
  deriving DecidableEq, Repr

def Seq.entryOf (q : Seq) (bs : List Byte) : Entry :=
  let f := fun o n => leNat ((bs.drop o).take n)
  let ovr := bitOf (f 0x17 1) 0
  let fa := if ovr then f 0x16 1 % 16 else q.fmtA
  let fb := if ovr then f 0x16 1 / 16 else q.fmtB
  let ta := if fa = 11 then signedOf 8 (f 0x18 1) else 0
  let tb := if fb = 11 then signedOf 8 (f 0x1C 1) else 0
  { aBase := f 0 6, bBase := f 6 6, cBase := f 0x0C 6, mEff := if f 0x12 2 = 0 then q.m else f 0x12 2,
    nEff := if f 0x14 2 = 0 then q.n else f 0x14 2, fmtA := fa, fmtB := fb, tau := ta + tb, hb4 := fa == 11 || fb == 11,
    reserved := f 0x17 1 / 2 != 0 || (fa == 11 && !(tauOk true (f 0x18 1) && f 0x19 3 == 0)) ||
      (fb == 11 && !(tauOk true (f 0x1C 1) && f 0x1D 3 == 0)) }

/-- Valid rows or columns of tile number `t` in an extent (R92). -/
def validIn (ext t : Nat) : Nat := if ext ≤ 128 * t then 0 else if ext - 128 * t < 128 then ext - 128 * t else 128

/-- What an item works on. -/
structure Item where
  q : Seq
  ent : Entry
  b : Nat
  mg : Nat
  ng : Nat
  deriving DecidableEq, Repr

def Item.mt (it : Item) (gi : Nat) : Nat := it.mg * it.q.gm + gi
def Item.nt (it : Item) (gj : Nat) : Nat := if it.q.gn = 0 then gj else it.ng * it.q.gn + gj
def Item.rows (it : Item) (gi : Nat) : Nat := validIn it.ent.mEff (it.mt gi)
def Item.cols (it : Item) (gj : Nat) : Nat := validIn it.ent.nEff (it.nt gj)
/-- gn_eff of R97. -/
def Item.gnEff (it : Item) : Nat := if it.q.gn = 0 then ceilDiv it.ent.nEff 128 else it.q.gn
/-- N tiles of the item that are valid. -/
def Item.nCount (it : Item) : Nat := ((List.range it.gnEff).filter (fun gj => it.cols gj != 0)).length
def Item.hasTile (it : Item) : Bool := it.rows 0 != 0 && it.cols 0 != 0
def Item.fa (it : Item) : Fmt := (Fmt.ofCode it.ent.fmtA).getD .bf16
def Item.fb (it : Item) : Fmt := (Fmt.ofCode it.ent.fmtB).getD .bf16
def Item.width (it : Item) : Nat := (pairWidth it.fa it.fb it.q.a16).getD 1

def Run.itemOf (r : Run) (q : Seq) : Item :=
  let i := r.cur.item.getD 0
  let c := q.itemAt i
  { q := q, ent := q.entryOf r.cur.entry, b := c.1, mg := c.2.1, ng := c.2.2 }

/-! ## Instructions (R96, R97) -/

/-- An instruction as it is executed: repeat iterations have their own gj and offsets. -/
structure Ins where
  idx : Nat
  op : Nat
  flags : Nat
  gi : Nat
  gj : Nat
  obA : Nat
  obB : Nat
  stride : Nat
  len : Nat
  deriving DecidableEq, Repr

def State.insAt (s : State) (body i : Nat) : Ins :=
  let a := body + 192 + 32 * i
  { idx := i, op := s.ld 1 a, flags := s.ld 1 (a + 1), gi := s.ld 1 (a + 2), gj := s.ld 1 (a + 3), obA := s.ld 4 (a + 4),
    obB := s.ld 4 (a + 8), stride := s.ld 4 (a + 0x0C), len := s.ld 1 (a + 0x10) }

/-- An instruction in iteration `gj` of a repeat: LOADs step their destination, MMAs their B operand (R97). -/
def Ins.inRepeat (x rep : Ins) (gj : Nat) : Ins :=
  let d := gj * rep.stride
  { x with gj := if bitOf x.flags 2 then gj else x.gj,
           obA := if x.op = 3 then x.obA else x.obA + d,
           obB := if x.op = 3 then x.obB + d else x.obB }

/-- The instructions in the order of execution within a chunk, by fuel. -/
def expandIns (gn : Nat) : Nat → List Ins → List Ins
  | 0, _ => []
  | _, [] => []
  | fuel + 1, x :: xs =>
    if x.op = 4 then
      x :: (List.range gn).flatMap (fun gj => (xs.take x.len).map (fun y => y.inRepeat x gj)) ++
        expandIns gn fuel (xs.drop x.len)
    else x :: expandIns gn fuel xs

def State.insList (s : State) (body : Nat) (it : Item) : List Ins :=
  let l := (List.range it.q.instrs).map (s.insAt body)
  expandIns it.gnEff (l.length + 1) l

/-- PING (R96): the offset added in an odd chunk. -/
def Item.shift (it : Item) (x : Ins) (j : Nat) : Nat := if bitOf x.flags 0 ∧ j % 2 = 1 then it.q.ping * 256 else 0

/-- Whether an instruction names a valid tile (R92): a LOAD's rows, an MMA's tile. -/
def Item.names (it : Item) (x : Ins) : Bool :=
  match x.op with
  | 1 => it.rows x.gi != 0
  | 2 => it.cols x.gj != 0
  | 3 => it.rows x.gi != 0 && it.cols x.gj != 0
  | _ => true

/-- Bytes of a LOAD's region (R99). -/
def Item.footprint (it : Item) (f : Fmt) : Nat := footprint128 f it.q.kChunk

/-- Regions an instruction touches, without PING: (offset, bytes). -/
def Item.regions (it : Item) (x : Ins) : List (Nat × Nat) :=
  match x.op with
  | 1 => [(x.obA, it.footprint it.fa)]
  | 2 => [(x.obA, it.footprint it.fb)]
  | 3 => [(x.obA, it.footprint it.fa), (x.obB, it.footprint it.fb)]
  | _ => []

/-- The check of R99 over an item. -/
def Item.regionsOk (it : Item) (l : List Ins) : Bool :=
  let lo := it.q.obBase * 256
  let hi := (it.q.obBase + it.q.obSize) * 256
  l.all (fun x => !it.names x || (it.regions x).all (fun r =>
    let p := if bitOf x.flags 0 then it.q.ping * 256 else 0
    decide (lo ≤ r.1) && decide (r.1 + r.2 ≤ hi) && decide (lo ≤ r.1 + p) && decide (r.1 + p + r.2 ≤ hi)))

/-- Whether the list loads an operand through the transposing buffer (R129). -/
def transposes (l : List Ins) (op : Nat) : Bool := l.any (fun x => x.op == op && bitOf x.flags 1)

/-! ## Operand addresses (R95, R129) -/

/-- An operand as it lies in memory: base, elements per stored row, stored rows of its element plane, format. -/
structure OperandAt where
  base : Nat
  ld : Nat
  ext : Nat
  fmt : Fmt
  transposed : Bool
  deriving DecidableEq, Repr

def Item.operand (it : Item) (isB tr : Bool) : OperandAt :=
  if isB then { base := it.ent.bBase, ld := it.q.ldb, ext := it.ent.nEff, fmt := it.fb, transposed := tr }
  else { base := it.ent.aBase, ld := it.q.lda, ext := it.ent.mEff, fmt := it.fa, transposed := tr }

/-- The scale plane of an operand; `k` is the reduction length, which a transposed operand stores as rows. -/
def OperandAt.scales (o : OperandAt) (k : Nat) : Nat :=
  alignUp (o.base + o.fmt.elemBytes ((if o.transposed then k else o.ext) * o.ld)) 256

/-- Runs of elements and of scales that rows `r0` to `r0 + rows − 1` over `kj` elements from `k0` are read in. -/
def OperandAt.runs (o : OperandAt) (k r0 rows k0 kj : Nat) : List (Nat × Nat) :=
  let f := o.fmt
  if kj = 0 then []
  else if o.transposed then
    (List.range kj).flatMap (fun i =>
      let e := (k0 + i) * o.ld + r0
      (o.base + e * f.elemBits / 8, f.elemBytes rows) ::
        (if f.scaled then [(o.scales k + e / f.block * f.scaleBytes, ceilDiv rows f.block * f.scaleBytes)] else []))
  else
    (List.range rows).flatMap (fun i =>
      let e := (r0 + i) * o.ld + k0
      (o.base + e * f.elemBits / 8, f.elemBytes kj) ::
        (if f.scaled then [(o.scales k + e / f.block * f.scaleBytes, kj / f.block * f.scaleBytes)] else []))

/-- A place in the item in hand, in the chunk of the compute order. -/
def Run.placeOf (r : Run) (gi gj instr : Nat) : Place :=
  { item := r.cur.item.getD r.cur.next, instr := instr, gi := gi, gj := gj, chunk := r.cur.chunk }

/-- The context in which a tile drains (R110 to R121). -/
def State.ctxOf (s : State) (e : Nat) (r : Run) (it : Item) (gi gj : Nat) : DrainCtx :=
  { engine := e, pid := r.pid, chain := s.chainAt (r.body + 64) it.q.steps, a16 := it.q.a16, hb4 := it.ent.hb4,
    tau := it.ent.tau, cBase := it.ent.cBase, ldc := it.q.ldc, planeRows := it.ent.mEff, row0 := 128 * it.mt gi,
    col0 := 128 * it.nt gj, stat0 := it.b * it.q.m + 128 * it.mt gi, nTiles := ceilDiv it.q.n 128, nt := it.nt gj,
    nCount := it.nCount, rows := it.rows gi, cols := it.cols gj, obBase := it.q.obBase * 256, rngStream := r.rngStream,
    genBase := r.genBase, seed := r.bind.job.field 0x10 8, place := r.placeOf gi gj 0, replayOf := r.replayOf }

/-- Rows of C₀ that a tile loads (R101). -/
def Item.initRuns (it : Item) (gi gj : Nat) : List (Nat × Nat) :=
  match it.q.load, Fmt.ofCode it.q.cFmt with
  | true, some f => (List.range (it.rows gi)).map (fun i =>
      (it.ent.cBase + ((128 * it.mt gi + i) * it.q.ldc + 128 * it.nt gj) * f.elemBits / 8, f.elemBytes (it.cols gj)))
  | _, _ => []

/-- Every address the item will touch may be accessed (R108). -/
def State.itemOk (s : State) (e : Nat) (r : Run) (it : Item) (l : List Ins) : Bool :=
  let q := it.q
  let ops := l.all (fun x => match x.op with
    | 1 => ((it.operand false (bitOf x.flags 1)).runs q.k (128 * it.mt x.gi) (it.rows x.gi) 0 q.k).all
        (fun p => s.mayTouch p.1 p.2 false)
    | 2 => ((it.operand true (bitOf x.flags 1)).runs q.k (128 * it.nt x.gj) (it.cols x.gj) 0 q.k).all
        (fun p => s.mayTouch p.1 p.2 false)
    | _ => true)
  let tiles := (List.range q.gm).all (fun gi => (List.range it.gnEff).all (fun gj =>
    it.rows gi == 0 || it.cols gj == 0 ||
      (s.chainOk (s.ctxOf e r it gi gj) && (it.initRuns gi gj).all (fun p => s.mayTouch p.1 p.2 false))))
  ops && tiles

/-! ## Holdings (R102) -/

/-- What a packet of kinds 1 to 3 holds of its core. -/
structure Hold where
  share : Nat
  acc : Nat
  units : Nat
  ob : Nat
  size : Nat
  deriving DecidableEq, Repr

def State.holdAt (s : State) (kind b : Nat) : Option Hold :=
  match kind with
  | 1 => some ⟨s.ld 1 (b + 6), s.ld 1 (b + 7), s.ld 1 (b + 8), s.ld 2 (b + 0x3C), s.ld 2 (b + 0x3E)⟩
  | 2 => some ⟨s.ld 1 (b + 0x32), s.ld 1 (b + 0x30), s.ld 1 (b + 0x31), s.ld 2 (b + 0x2C), s.ld 2 (b + 0x2E)⟩
  | 3 => some ⟨s.ld 1 (b + 6), s.ld 1 (b + 7), s.ld 1 (b + 8), s.ld 2 (b + 0x18), s.ld 2 (b + 0x1A)⟩
  | _ => none

/-- REG_SHARE of a core packet. -/
def State.shareOf (s : State) (r : Run) : Nat := ((s.holdAt r.kind r.body).map (fun h => h.share)).getD 4

def Hold.clash (a b : Hold) : Bool :=
  a.share == 4 || b.share == 4 ||
    (a.units != 0 && b.units != 0 && decide (a.acc < b.acc + b.units) && decide (b.acc < a.acc + a.units)) ||
    (decide (a.ob < b.ob + b.size) && decide (b.ob < a.ob + a.size))

/-- The engine of a core's stream: F is 0, B is 1 (R44). -/
def streamEngine (die c st : Nat) : Nat := engineId (1 + st) die c

/-- Whether holdings of a kind and body must wait for the packet that runs on the other stream. -/
def State.heldOff (s : State) (die c st kind body : Nat) : Bool :=
  match s.run (streamEngine die c (1 - st)) with
  | none => false
  | some r => match s.holdAt kind body, s.holdAt r.kind r.body with
    | some a, some b => a.clash b
    | _, _ => false

/-- A core packet may take its holdings: the other stream leaves them free, and no replay runs ahead on stream B
(R102, R204). -/
def State.holdFree (s : State) (die c st kind : Nat) : Bool :=
  (match s.nextPacket (streamEngine die c st) with
    | some (p, _, _, _) => p.packet.kind != kind || !s.heldOff die c st kind p.packet.body
    | none => true) &&
    !(st == 1 && (s.yoyo die).replays.any (fun r => r.core == some c))

/-! ## Packet start (R106) and claims (R103, R104) -/

/-- Items are static or claimed (R91, R104): where the first comes from. -/
def Run.beginItems (r : Run) (items first : Nat) (claim : Bool) : Run :=
  if claim then { r with cur := { items := items, needClaim := true, claimsEnded := false } }
  else if items ≤ first then { r with cur := { items := items, next := first, claimsEnded := true }, retired := true }
  else { r with cur := { items := items, next := first, claimsEnded := true } }

/-- A fenced core with no spare in its place (R106, R368), or one whose rail is off (R390). -/
def State.coreFenced (s : State) (die c : Nat) : Bool :=
  let q := s.core (coreKey die c)
  (q.fenced && !q.substituted) || bitOf (s.reg rPwrRailOff) die

/-- MATRIX_SEQUENCE (R36, R102, R106): stream `st` of a core takes its next packet in hand. -/
def execMatrixSequence (die c st : Nat) (s : State) : Answer :=
  answer s (
    let e := streamEngine die c st
    if 2 ≤ st ∨ (s.run e).isSome ∨ !s.holdFree die c st 1 then s
    else
      let s := s.startPacket e 1
      match s.run e with
      | none => s
      | some r =>
        if r.kind ≠ 1 ∨ r.stopped then s
        else if r.spareWords 4 then s.faultRun e 1
        else if s.coreFenced die c then s.faultRun e 0x0A
        else
          let q := s.seqOf r
          if q.k % 32 ≠ 0 ∨ 65536 < q.batch ∨ 2 ^ 32 ≤ q.items then s.faultRun e 1
          else if q.m = 0 ∨ q.n = 0 ∨ q.batch = 0 then s.setRun e { r with status := 1, retired := true }
          else s.setRun e (r.beginItems q.items q.first q.claim))

/-- Whether a packet claims its items, on which counter, and with which use (R90, R145, R169). -/
def State.claimOf (s : State) (r : Run) : Option (Nat × Nat) :=
  let b := r.body
  if r.replayOf.isSome then none
  else match r.kind with
  | 1 => if bitOf (s.ld 1 (b + 1)) 3 then some (s.ld 1 (b + 0x0A), s.ld 1 (b + 0x0B)) else none
  | 2 => if bitOf (s.ld 1 b) 3 then some (s.ld 1 (b + 0x0D), s.ld 1 (b + 0x0E)) else none
  | 3 => if bitOf (s.ld 1 (b + 1)) 3 then some (s.ld 1 (b + 9), s.ld 1 (b + 0x0A)) else none
  | _ => none

/-- What a claim returns (R103). -/
structure Claimed where
  index : Option Nat
  superseded : Bool
  mismatch : Bool
  deriving DecidableEq, Repr

/-- The order of epochs (R103). -/
def newerEpoch (x y : Nat) : Bool :=
  let d := (x + 2 ^ 32 - y) % 2 ^ 32
  decide (1 ≤ d) && decide (d < 2 ^ 31)

/-- The claim on a counter of a die (R103): one atomic operation on its 16 bytes. -/
def State.claim (s : State) (die tc epoch lim : Nat) : State × Claimed :=
  let a := claimBase die + 16 * tc
  let fresh := s.ld 4 a ≠ epoch ∧ newerEpoch epoch (s.ld 4 a) = true
  let next := if fresh then 0 else s.ld 4 (a + 4)
  let limit := if fresh then lim else s.ld 4 (a + 8)
  let miss := s.ld 4 (a + 12)
  if s.ld 4 a ≠ epoch ∧ ¬fresh then (s, ⟨none, true, false⟩)
  else
    let bad := decide (lim ≠ limit)
    let miss := if bad then (miss + 1) % 2 ^ 32 else miss
    let got := decide (next < limit)
    let next' := if got then next + 1 else next
    (s.poke a (leBytes 4 epoch ++ leBytes 4 next' ++ leBytes 4 limit ++ leBytes 4 miss),
      ⟨if got then some next else none, false, bad⟩)

/-- A fault at a place in the item in hand (R109, R420). One found when an item begins or at a claim names no instruction: its
instruction index, gi and gj are 0 (DESIGN CHOICE, log 72). -/
def State.faultAt (s : State) (e code instr gi gj : Nat) : State :=
  match s.run e with
  | some r => s.faultIn e code (r.placeOf gi gj instr)
  | none => s

/-- TILE_CLAIM (R103, R104, R434): the claim that is due is made on the core's own die. -/
def execTileClaim (die c st : Nat) (s : State) : Answer :=
  answer s (
    let e := streamEngine die c st
    match s.run e with
    | none => s
    | some r =>
      if 2 ≤ st ∨ !s.goes e r.kind ∨ !r.cur.needClaim ∨ r.cur.claimsEnded ∨ r.cur.claimed.isSome then s
      else match s.claimOf r with
        | none => s
        | some (tc, use) =>
          if s.badRange (claimBase die + 16 * tc) 16 then s.faultAt e 6 0 0 0
          else
            let (s, k) := s.claim die tc ((r.step % 2 ^ 24) * 256 + use) r.cur.items
            let r := if k.mismatch then { r.withStatus 2 with mismatch := true } else r
            let r := if k.superseded then { r with superseded := true } else r
            match k.index with
            | some i =>
              (s.setRun e { r with cur := { r.cur with claimed := some i, needClaim := false } }).count
                (rCoreCtrCLAIMSTAKEN die c) 1
            | none =>
              s.setRun e { r with cur := { r.cur with needClaim := false, claimsEnded := true },
                                  retired := r.retired || r.cur.item.isNone })

/-- The item in hand has ended: the next static item, or the end of the packet when no claim is left. -/
def Run.endItem (r : Run) (step : Nat) : Run :=
  let claim := step = 0
  let next := r.cur.next + step
  let cur := { r.cur with item := none, chunk := 0, pc := 0, lpos := 0, next := if claim then r.cur.next else next }
  { r with cur := cur,
           retired := if claim then r.cur.claimsEnded && r.cur.claimed.isNone && !r.cur.needClaim else decide (r.cur.items ≤ next) }

/-- The item a packet begins next, if it can begin one. -/
def Run.nextItem (r : Run) (claim : Bool) : Option Nat :=
  if r.cur.item.isSome then none
  else if claim then r.cur.claimed
  else if r.cur.next < r.cur.items then some r.cur.next else none

/-! ## Items (R92, R94, R108) -/

/-- What the checks at the beginning of an item answer: a fault code, or 0. -/
def State.itemCheck (s : State) (e : Nat) (r : Run) (it : Item) : Nat :=
  if it.q.m < it.ent.mEff ∨ it.q.n < it.ent.nEff then 1
  else if !it.hasTile then 0
  else if it.ent.reserved then 1
  else match Fmt.ofCode it.ent.fmtA, Fmt.ofCode it.ent.fmtB with
    | some fa, some fb =>
      let l := s.insList r.body it
      if !s.itemOk e r it l then 1
      else if (pairWidth fa fb it.q.a16).isNone then 9
      else if !it.regionsOk l then 4
      else 0
    | _, _ => 9

def Ins.isLoad (x : Ins) : Bool := x.op == 1 || x.op == 2

/-- The instruction at a place of an item's order, over its chunks one after another, and its chunk. -/
def insAtPos (l : List Ins) (p : Nat) : Option (Nat × Ins) := (l[p % l.length]?).map (fun x => (p / l.length, x))

/-- The first place from `p` on that holds an instruction of a sort, or the end of the item's chunks. -/
def nextPos (l : List Ins) (chunks p : Nat) (sort : Ins → Bool) : Nat :=
  let n := l.length
  let stop := chunks * n
  if stop ≤ p then stop
  else match (l.drop (p % n)).findIdx? sort with
    | some i => p + i
    | none =>
      if p / n + 1 < chunks then match l.findIdx? sort with
        | some i => (p / n + 1) * n + i
        | none => stop
      else stop

/-- The place of the next instruction that is no LOAD. -/
def Run.posIn (r : Run) (l : List Ins) : Nat := r.cur.chunk * l.length + r.cur.pc

/-- The packet goes on in its item (R93, R98): LOADs and the other instructions each move to the next of their sort; a claim
falls due when the last chunk begins (R104); the item ends when neither has one left. -/
def State.settle (s : State) (e : Nat) (r : Run) (it : Item) : State :=
  let q := it.q
  let l := s.insList r.body it
  let n := l.length
  let p := nextPos l q.chunks (r.posIn l) (fun x => !x.isLoad)
  let d := nextPos l q.chunks r.cur.lpos Ins.isLoad
  let stop := q.chunks * n
  if stop ≤ p ∧ stop ≤ d then s.setRun e (r.endItem (if q.claim then 0 else q.step))
  else
    let j := if stop ≤ p then q.chunks - 1 else p / n
    let due := r.cur.needClaim || (q.claim && decide (r.cur.chunk < j) && j + 1 == q.chunks && !r.cur.claimsEnded)
    s.setRun e { r with cur := { r.cur with chunk := j, pc := p - j * n, lpos := d, needClaim := due } }

/-- ITEM_BEGIN (R91 to R94, R104, R108): the packet's next item begins, is skipped, or faults. A fault here, or at a claim, names
no instruction or tile: its record gives 0 for both (DESIGN CHOICE, log 72: R109 does not say). -/
def execItemBegin (die c st : Nat) (s : State) : Answer :=
  answer s (
    let e := streamEngine die c st
    match s.run e with
    | none => s
    | some r =>
      let q := s.seqOf r
      if 2 ≤ st ∨ !s.goes e 1 then s
      else match r.nextItem q.claim with
        | none => s
        | some i =>
          let b := (q.itemAt i).1
          let r := { r with cur := { r.cur with item := some i, claimed := none, chunk := 0, pc := 0, lpos := 0 } }
          let got : Rd := if r.cur.entryOf = some b then .ok r.cur.entry else s.load (q.ptr + 32 * b) 32
          let s := if r.cur.entryOf = some b then s else s.noteRead (q.ptr + 32 * b) 32
          match got with
          | .fault code => (s.setRun e r).faultAt e code 0 0 0
          | .ok bs =>
            let r := { r with cur := { r.cur with entryOf := some b, entry := bs } }
            let it := r.itemOf q
            match s.itemCheck e r it with
            | 0 =>
              if !it.hasTile then
                s.setRun e (({ r with cur := { r.cur with needClaim := q.claim && !r.cur.claimsEnded } }).endItem
                  (if q.claim then 0 else q.step))
              else s.settle e { r with cur := { r.cur with
                needClaim := r.cur.needClaim || (q.claim && q.chunks == 1 && !r.cur.claimsEnded) } } it
            | code => (s.setRun e r).faultAt e code 0 0 0)

/-- An instruction a packet executes, with its item, its list and its chunk. -/
structure Due where
  it : Item
  l : List Ins
  chunk : Nat
  x : Ins

/-- The instruction at a place of the item in hand. -/
def State.dueAt (s : State) (r : Run) (p : Item → List Ins → Nat) : Option Due :=
  if r.cur.item.isNone then none
  else
    let it := r.itemOf (s.seqOf r)
    let l := s.insList r.body it
    match insAtPos l (p it l) with
    | some (j, x) => if j < it.q.chunks then some ⟨it, l, j, x⟩ else none
    | none => none

/-- The next instruction that is no LOAD, and the next LOAD (R98). -/
def State.nextIns (s : State) (r : Run) : Option Due := s.dueAt r (fun _ l => r.posIn l)
def State.nextLoad (s : State) (r : Run) : Option Due := s.dueAt r (fun _ _ => r.cur.lpos)

/-- The record names the instruction executed last. -/
def Run.did (r : Run) (x : Ins) (chunk : Nat) : Run :=
  { r with executed := r.executed + 1, recInstr := x.idx, recGi := x.gi, recGj := x.gj, recChunk := chunk }

/-- An instruction that is no LOAD has been executed, or a LOAD has. -/
def State.stepIns (s : State) (e : Nat) (r : Run) (d : Due) : State :=
  let r := r.did d.x d.chunk
  s.settle e { r with cur := { r.cur with pc := r.cur.pc + 1 } } d.it
def State.stepLoad (s : State) (e : Nat) (r : Run) (d : Due) : State :=
  let r := r.did d.x d.chunk
  s.settle e { r with cur := { r.cur with lpos := r.cur.lpos + 1 } } d.it

/-! ## Loads (R97 to R99, R129 to R134, R462) -/

/-- Row bytes of a region: where row `i`'s elements and scales lie (R99). -/
def rowOffset (f : Fmt) (kChunk i : Nat) : Nat := i * (kChunk * f.elemBits / 8)
def scaleOffset (f : Fmt) (kChunk i : Nat) : Nat := 128 * (kChunk * f.elemBits / 8) + i * (kChunk / f.block * f.scaleBytes)

/-- Read runs in order; the first fault ends the reading. -/
def State.readRuns (s : State) : List (Nat × Nat) → List (List Byte) → List (List Byte) × Nat
  | [], acc => (acc.reverse, 0)
  | p :: ps, acc => match s.load p.1 p.2 with
    | .ok bs => State.readRuns s ps (bs :: acc)
    | .fault c => (acc.reverse, c)

/-- The rows a direct LOAD writes: the valid rows, and zeros for the rest (R92). -/
def loadChunks (f : Fmt) (kChunk kj valid : Nat) (data : List (List Byte)) : List (Nat × List Byte) :=
  (List.range 128).flatMap (fun i =>
    let per := if f.scaled then 2 else 1
    let zeroE := List.replicate (f.elemBytes kj) 0#8
    let zeroS := List.replicate (kj / f.block * f.scaleBytes) 0#8
    (rowOffset f kChunk i, if i < valid then (data[per * i]?).getD zeroE else zeroE) ::
      (if f.scaled then [(scaleOffset f kChunk i, if i < valid then (data[per * i + 1]?).getD zeroS else zeroS)] else []))

/-- The rows a transposed LOAD writes, re-blocked when block-scaled, with its counts (R132, R133): for each k of the
chunk, a run of elements and, when scaled, of scales. -/
def tbufChunks (f : Fmt) (kChunk kj valid : Nat) (data : List (List Byte)) : List (Nat × List Byte) × Nat × Nat × Nat :=
  let per := if f.scaled then 2 else 1
  let elems := (List.range kj).map (fun k => unpackElems f.elemBits valid ((data[per * k]?).getD []))
  if !f.scaled then
    ((List.range 128).map (fun i =>
      (rowOffset f kChunk i, packElems f.elemBits (elems.map (fun r => listGet 0 r i)))), 0, 0, 0)
  else
    let scale := fun k i => leNat ((((data[2 * k + 1]?).getD []).drop (i / f.block * f.scaleBytes)).take f.scaleBytes)
    let rows := (List.range 128).map (fun i =>
      let xs := (indexed elems).map (fun ke =>
        if i < valid then dequant f (scale ke.1 i) (listGet 0 ke.2 i) else Fp.zero)
      reblockRow f xs)
    let range := (indexed elems).foldl (fun n ke => n +
      ((List.range valid).filter (fun i => dequantRange f (scale ke.1 i) (listGet 0 ke.2 i))).length) 0
    ((indexed rows).flatMap (fun ir =>
        [(rowOffset f kChunk ir.1, packElems f.elemBits ir.2.1),
          (scaleOffset f kChunk ir.1, ir.2.2.1.flatMap (leBytes f.scaleBytes))]),
      128 * (kj / f.block), rows.foldl (fun n r => n + r.2.2) 0, range)

/-- Whether two stretches of the operand buffer share a byte. -/
def obMeets (a n b m : Nat) : Bool := decide (a < b + m) && decide (b < a + n)

/-- The operand regions of an MMA in chunk `j`, and a LOAD's region. -/
def Item.mmaRegions (it : Item) (x : Ins) (j : Nat) : List (Nat × Nat) :=
  [(x.obA + it.shift x j, it.footprint it.fa), (x.obB + it.shift x j, it.footprint it.fb)]
def Item.loadRegion (it : Item) (x : Ins) (j : Nat) : Nat × Nat :=
  (x.obA + it.shift x j, it.footprint (if x.op = 2 then it.fb else it.fa))

/-- A place from `p` up to `q` of the item's order holds an instruction, with its chunk, that satisfies a test. -/
def anyBetween (l : List Ins) (p q : Nat) (f : Nat → Ins → Bool) : Bool :=
  (List.range (q - p)).any (fun i => match insAtPos l (p + i) with
    | some (j, x) => f j x
    | none => false)

/-- A LOAD's region overlaps the operands of an earlier MMA that has not presented its last slice (R98). -/
def Due.loadWaits (d : Due) (r : Run) : Bool :=
  let w := d.it.loadRegion d.x d.chunk
  anyBetween d.l (r.posIn d.l) r.cur.lpos (fun j y =>
    y.op == 3 && d.it.names y && (d.it.mmaRegions y j).any (fun m => obMeets w.1 w.2 m.1 m.2))

/-- The next LOAD of the stream's order (R97, R98, R462): LOAD_A has op 1, LOAD_B op 2. It waits for earlier MMAs that use
its region, and for the LOADs of its stream: a direct one for all of them, a transposed one for a direct one. -/
def State.startLoad (s : State) (die c st op : Nat) : State :=
  let e := streamEngine die c st
  match s.run e with
  | none => s
  | some r =>
    if 2 ≤ st ∨ !s.goes e 1 then s
    else match s.nextLoad r with
      | none => s
      | some d =>
        let x := d.x
        let it := d.it
        if x.op ≠ op then s
        else
          let q := it.q
          let kj := q.chunkLen d.chunk
          let isB := op == 2
          let tr := bitOf x.flags 1
          let f := if isB then it.fb else it.fa
          let valid := if isB then it.cols x.gj else it.rows x.gi
          let r0 := 128 * (if isB then it.nt x.gj else it.mt x.gi)
          let k := coreKey die c
          let g := s.core k
          let w := it.loadRegion x d.chunk
          let job : LoadJob := {
            stream := st, dst := w.1, len := w.2, chunks := [], transposed := tr, started := !tr, fmt := f.code,
            reads := (it.operand isB tr).runs q.k r0 valid (d.chunk * q.kChunk) kj, valid := valid, kj := kj,
            kChunk := q.kChunk, place := { r.placeOf x.gi x.gj x.idx with chunk := d.chunk } }
          if valid = 0 ∨ kj = 0 then s.stepLoad e r d
          else if d.loadWaits r || g.loads.any (fun l => l.stream == st && (!tr || !l.transposed)) ||
              (!tr && g.tbuf.any (fun l => l.stream == st)) then s
          else if tr then (s.modCore k (fun g => { g with tbuf := g.tbuf ++ [job] })).stepLoad e r d
          else
            let got := s.readRuns job.reads []
            if got.2 ≠ 0 then s.faultIn e got.2 job.place
            else
              let job := { job with chunks := loadChunks f q.kChunk kj valid got.1 }
              ((s.noteReads job.reads).modCore k (fun g => { g with loads := g.loads ++ [job] })).stepLoad e r d

/-- LOAD_A (R97). -/
def execLoadA (die c st : Nat) (s : State) : Answer := answer s (s.startLoad die c st 1)
/-- LOAD_B (R97). -/
def execLoadB (die c st : Nat) (s : State) : Answer := answer s (s.startLoad die c st 2)

/-- Put a load's bytes into the operand buffer. -/
def Core.putChunks (q : Core) (dst : Nat) (l : List (Nat × List Byte)) : Core :=
  { q with ob := l.foldl (fun m p => Tbl.setMany (fun _ => 0#8) m (dst + p.1) p.2) q.ob }

/-- Rows that a sequencer puts into a region of `len` bytes over `k` (R99): the rows given, and zeros for the rest. -/
def Core.putRows (q : Core) (off len : Nat) (f : Fmt) (k : Nat) (rows : List RowBits) : Core :=
  let clear := q.ob.filter (fun x => decide (x.1 < off) || decide (off + len ≤ x.1))
  { q with ob := (indexed rows).foldl (fun m ir =>
      let m := Tbl.setMany (fun _ => 0#8) m (off + rowOffset f k ir.1) (packElems f.elemBits ir.2.1)
      if f.scaled then Tbl.setMany (fun _ => 0#8) m (off + scaleOffset f k ir.1) (ir.2.2.flatMap (leBytes f.scaleBytes)) else m) clear }

/-- Bytes a LOAD writes. -/
def chunkBytes (l : List (Nat × List Byte)) : Nat := l.foldl (fun n p => n + p.2.length) 0

/-- Loads through the transposing buffer are counted (R143): how many transposed, bytes, cycles; blocks, saturated elements, and
elements out of the scale range. -/
def State.countTbuf (s : State) (die c loads bytes cycles : Nat) (w : Nat × Nat × Nat) : State :=
  (((((s.count (rCoreCtrTBUFLOADS die c) loads).count (rCoreCtrTBUFBYTES die c) bytes).count
    (rCoreCtrTBUFBUSYCYCLES die c) cycles).count (rCoreCtrREBLOCKBLOCKS die c) w.1).count
    (rCoreCtrREBLOCKSATURATED die c) w.2.1).count (rCoreCtrREBLOCKRANGE die c) w.2.2

/-- A LOAD of 128 rows that a sequencer makes through the transposing buffer: format, K, whether it transposes, and what
re-blocking counts. -/
structure Across where
  fmt : Fmt
  kj : Nat
  transposed : Bool := true
  saturated : Nat := 0
  range : Nat := 0

/-- ACLK cycles of one LOAD through the transposing buffer (R130, R134). -/
def tbufCycles (f : Fmt) (kj : Nat) : Nat :=
  ceilDiv (128 * kj * f.elemBits) (if f.scaled && decide (kj < 256) then 1024 else 2048)

/-- Such a LOAD is counted (R143, R152, R172). A sequencer's LOADs have no command of their own: each is busy for the time
R130 gives it (DESIGN CHOICE, log 72). -/
def State.countAcross (s : State) (die core : Nat) (x : Across) : State :=
  let blocks := if x.fmt.scaled then 128 * (x.kj / x.fmt.block) else 0
  s.countTbuf die core (b2n x.transposed) (128 * x.kj * x.fmt.elemBits / 8 + blocks * x.fmt.scaleBytes) (tbufCycles x.fmt x.kj)
    (blocks, x.saturated, x.range)

/-- LOAD_WRITTEN (R98, R143, R462): a LOAD of the stream writes its last byte; with `tb` the oldest in the transposing
buffer, which held it for `cycles` ACLK cycles. -/
def execLoadWritten (die c st : Nat) (tb : Bool) (cycles : Nat) (s : State) : Answer :=
  answerNoMem s (
    let k := coreKey die c
    if 2 ≤ die ∨ 64 ≤ c then s
    else match (s.core k).loads.find? (fun l => l.transposed == tb && (tb || l.stream == st)) with
      | none => s
      | some l =>
        if l.stream ≠ st then s
        else
          let s := s.modCore k (fun q => { q.putChunks l.dst l.chunks with loads := q.loads.erase l })
          if !tb then s else s.countTbuf die c 1 (chunkBytes l.chunks) cycles (l.blocks, l.saturated, l.rangeCount))

/-- TBUF_LOAD_START (R130 to R134): the previous LOAD's last run has been read, and the transposing buffer begins the oldest
LOAD that waits, stream B before stream F. -/
def execTbufLoadStart (die c : Nat) (s : State) : Answer :=
  answer s (
    let k := coreKey die c
    let g := s.core k
    let live := g.tbuf.filter (fun l => s.goes (streamEngine die c l.stream) 1)
    if 2 ≤ die ∨ 64 ≤ c then s
    else match (live.filter (fun l => l.stream == 1) ++ live.filter (fun l => l.stream == 0)).head? with
      | none => s
      | some l =>
        let e := streamEngine die c l.stream
        let got := s.readRuns l.reads []
        if got.2 ≠ 0 then s.faultIn e got.2 l.place
        else
          let w := tbufChunks ((Fmt.ofCode l.fmt).getD .bf16) l.kChunk l.kj l.valid got.1
          let l' := { l with started := true, chunks := w.1, blocks := w.2.1, saturated := w.2.2.1, rangeCount := w.2.2.2 }
          (s.noteReads l.reads).modCore k (fun g => { g with tbuf := g.tbuf.erase l, loads := g.loads ++ [l'] }))

/-- REPEAT_N (R97): its iterations follow it in the order of execution. -/
def execRepeatN (die c st : Nat) (s : State) : Answer :=
  answerNoMem s (
    let e := streamEngine die c st
    match s.run e with
    | none => s
    | some r =>
      if 2 ≤ st ∨ !s.goes e 1 then s
      else match s.nextIns r with
        | some d => if d.x.op = 4 then s.stepIns e r d else s
        | none => s)

/-! ## Tiles (R98, R101, R139) -/

/-- The register sets a stream may use (R139). -/
def setsOf (st share : Nat) : List Nat := if share = 4 then [0, 1, 2, 3] else if st = 0 then [0, 1] else [2, 3]

def Core.openTile (g : Core) (st gi gj : Nat) : Option Tile :=
  g.tiles.find? (fun t => t.stream == st && t.gi == gi && t.gj == gj)

/-- The set released by the tile fed longest ago (R101). -/
def Core.oldestSet (g : Core) (l : List Nat) : Nat :=
  l.foldl (fun b k => if listGet 0 g.setFed k < listGet 0 g.setFed b then k else b) (l.headD 0)

/-- The initial value of a tile (R97, R101): zeros, or C₀; and a fault code. -/
def State.initTile (s : State) (it : Item) (gi gj : Nat) : List (List W32) × Nat :=
  match it.q.load, Fmt.ofCode it.q.cFmt with
  | true, some f =>
    let d := s.readRuns (it.initRuns gi gj) []
    (d.1.map (fun bs => (unpackElems f.elemBits (it.cols gj) bs).map (initValue it.q.a16 f)), d.2)
  | _, _ => (List.replicate (it.rows gi) (List.replicate (it.cols gj) 0#32), 0)

/-- Open tiles of a stream. -/
def Core.openCount (g : Core) (st : Nat) : Nat := (g.tiles.filter (fun t => t.stream == st)).length

/-- The set a stream's next tile takes, when no draining tile keeps it (R75, R101). -/
def Core.takeSet (g : Core) (st share : Nat) : Option Nat :=
  let set := g.oldestSet (setsOf st share)
  if g.drainQ.any (fun t => t.set == some set) then none else some set

/-- The tiles with the one in a set parked. -/
def Core.parked (g : Core) (set : Nat) : List Tile := g.tiles.map (fun t => if t.set = some set then { t with set := none } else t)

/-- An attention or convolution packet has a tile to feed: an item in hand, which for attention has not been fed yet. -/
def Run.toFeed (r : Run) : Bool := r.cur.item.isSome && (r.kind != 2 || r.cur.pc == 0)

/-- The tile of a packet whose sequencer forms its own feeds (attention, convolution): it takes a set; its values come with
its feed. -/
def State.exchangeWhole (s : State) (k st share : Nat) : State :=
  let g := s.core k
  match g.tiles.any (fun t => t.stream == st && t.set.isSome), g.takeSet st share with
  | false, some set =>
    s.modCore k (fun q => { q with tiles := q.parked set ++ [{ stream := st, gi := 0, gj := 0, ctx := {}, vals := [], set := some set }] })
  | _, _ => s

/-- TILE_EXCHANGE (R101): the tile that the next MMA names is brought into the set released by the tile fed longest ago,
which is parked; a draining tile keeps its set, and the exchange waits. `stall` cycles are lost to it (R87). -/
def execTileExchange (die c st stall : Nat) (s : State) : Answer :=
  answer s (
    let e := streamEngine die c st
    let k := coreKey die c
    match s.run e with
    | none => s
    | some r =>
      if 2 ≤ st ∨ 64 ≤ c then s
      else if (s.goes e 2 || s.goes e 3) && r.toFeed then
        let u := s.exchangeWhole k st (s.shareOf r)
        if u.core k = s.core k then s else u.count (rCoreCtrSETSTALLS die c) stall
      else if !s.goes e 1 then s
      else match s.nextIns r with
        | none => s
        | some d =>
          let g := s.core k
          let x := d.x
          let it := d.it
          let old := g.openTile st x.gi x.gj
          if x.op ≠ 3 ∨ !it.names x then s
          else if (match old with | some t => t.set.isSome | none => decide (it.q.capacity ≤ g.openCount st)) then s
          else match g.takeSet st it.q.share, old with
            | none, _ => s
            | some set, some t =>
              let moved := (g.parked set).map (fun u =>
                if u.stream == st && u.gi == t.gi && u.gj == t.gj then { u with set := some set } else u)
              (s.modCore k (fun q => { q with tiles := moved })).count (rCoreCtrSETSTALLS die c) stall
            | some set, none =>
              let v := s.initTile it x.gi x.gj
              if v.2 ≠ 0 then s.faultAt e v.2 x.idx x.gi x.gj
              else
                let t : Tile := { stream := st, gi := x.gi, gj := x.gj, ctx := s.ctxOf e r it x.gi x.gj, vals := v.1, set := some set }
                ((s.noteReads (it.initRuns x.gi x.gj)).modCore k (fun q => { q with tiles := g.parked set ++ [t] })).count
                  (rCoreCtrSETSTALLS die c) stall)

/-- Rows of an operand in the operand buffer (R99). -/
def Core.rowsIn (g : Core) (f : Fmt) (unit kChunk kj off n : Nat) : List ORow :=
  (List.range n).map (fun i =>
    let es := unpackElems f.elemBits kj (Tbl.getMany (fun _ => 0#8) g.ob (off + rowOffset f kChunk i) (f.elemBytes kj))
    let ss := (List.range (if f.scaled then kj / f.block else 0)).map (fun b =>
      leNat (Tbl.getMany (fun _ => 0#8) g.ob (off + scaleOffset f kChunk i + b * f.scaleBytes) f.scaleBytes))
    operandRow f unit kj es ss)

/-- Whether a LOAD of the stream that has not been written touches a region (R98). -/
def Core.loading (g : Core) (st off len : Nat) : Bool :=
  (g.loads ++ g.tbuf).any (fun l => l.stream == st && decide (l.dst < off + len) && decide (off < l.dst + l.len))

/-- The operands of an MMA have been written (R98): no earlier LOAD that writes them is still to begin or to end. -/
def Due.operandsIn (d : Due) (r : Run) (g : Core) (st : Nat) : Bool :=
  (d.it.mmaRegions d.x d.chunk).all (fun m => !g.loading st m.1 m.2 &&
    !anyBetween d.l r.cur.lpos (r.posIn d.l) (fun j y => y.isLoad && d.it.names y && decide (d.it.q.chunkLen j ≠ 0) &&
      obMeets m.1 m.2 (d.it.loadRegion y j).1 (d.it.loadRegion y j).2))

/-- A stream has a ready tile (R140): its operands have been written, and it holds a register set or can take one without
waiting on a drain. The sequencers of attention and convolution packets write their own operands; their tiles are ready
with an item in hand. -/
def State.mmaReady (s : State) (die c st : Nat) : Bool :=
  let e := streamEngine die c st
  let g := s.core (coreKey die c)
  match s.run e with
  | none => false
  | some r =>
    if s.goes e 2 || s.goes e 3 then
      r.toFeed && (g.tiles.any (fun t => t.stream == st && t.set.isSome) ||
        (g.takeSet st (s.shareOf r)).isSome)
    else s.goes e 1 && (match s.nextIns r with
      | none => false
      | some d =>
        d.x.op == 3 && d.it.names d.x && d.operandsIn r g st &&
          (match g.openTile st d.x.gi d.x.gj with
            | some t => t.set.isSome || (g.takeSet st d.it.q.share).isSome
            | none => decide (g.openCount st < d.it.q.capacity) && (g.takeSet st d.it.q.share).isSome))

/-- The feeder presents a stream's slices: it has chosen the stream, at full rate or ramping in. -/
def Core.feeds (g : Core) (st : Nat) : Bool := g.chosen == some st && (g.ramp.phase == 1 || g.ramp.phase == 2)

/-- A tile of stream `st` is fed while a ready tile of the other stream waits (R140, R143), for `waited` cycles. -/
def State.countWait (s : State) (die c st waited : Nat) : State :=
  if s.mmaReady die c (1 - st) then
    s.count (if st = 0 then rCoreCtrBWAITCYCLES die c else rCoreCtrFHELDCYCLES die c) waited
  else s

/-- A tile that a set holds has been fed: it drains when `last`, and the feeder's run ends unless `more`. -/
def Core.fedTile (g : Core) (t : Tile) (set : Nat) (last more : Bool) : Core :=
  let others := g.tiles.filter (fun u => !(u.stream == t.stream && u.gi == t.gi && u.gj == t.gj))
  { g with
    clock := g.clock + 1, setFed := listPut 0 4 g.setFed set (g.clock + 1),
    tiles := if last then others else others ++ [t], drainQ := if last then g.drainQ ++ [t] else g.drainQ,
    chosen := if more then g.chosen else none }

/-- The tile of the next MMA that the item executes after this one. -/
def Due.nextTile (d : Due) : Option (Nat × Nat) :=
  let more := if d.chunk + 1 < d.it.q.chunks then d.l else []
  ((d.l.drop (d.l.findIdx (fun y => y == d.x) + 1) ++ more).find? (fun x => x.op == 3 && d.it.names x)).map (fun x => (x.gi, x.gj))

/-- A tile after the feed of a chunk (R65 to R69, R97). -/
def Core.fed (g : Core) (it : Item) (x : Ins) (j : Nat) (t : Tile) : Tile :=
  let kj := it.q.chunkLen j
  let unit := pairUnit it.fa it.fb
  let sh := it.shift x j
  let as := g.rowsIn it.fa unit it.q.kChunk kj (x.obA + sh) t.ctx.rows
  let bs := g.rowsIn it.fb unit it.q.kChunk kj (x.obB + sh) t.ctx.cols
  { t with vals := tileFeed it.q.a16 t.vals as bs }

/-- MMA (R97, R98, R101, R140): the chunk's slices are fed into the tile, which begins to drain after the last chunk.
`waited` cycles of the feed found a ready tile of the other stream waiting (R143). -/
def execMma (die c st waited : Nat) (s : State) : Answer :=
  answer s (
    let e := streamEngine die c st
    let k := coreKey die c
    match s.run e with
    | none => s
    | some r =>
      if 2 ≤ st ∨ !s.goes e 1 then s
      else match s.nextIns r with
        | none => s
        | some d =>
          let g := s.core k
          let it := d.it
          let x := d.x
          let kj := it.q.chunkLen d.chunk
          if x.op ≠ 3 then s
          else if !it.names x then s.stepIns e r d
          else match g.openTile st x.gi x.gj with
            | none => if it.q.capacity ≤ g.openCount st then s.faultAt e 3 x.idx x.gi x.gj else s
            | some t =>
              match t.set with
              | none => s
              | some set =>
                if kj ≠ 0 ∧ (!g.feeds st ∨ !d.operandsIn r g st) then s
                else
                  let fed := g.fed it x d.chunk t
                  let t' := { fed with ctx := { fed.ctx with place := r.placeOf x.gi x.gj x.idx } }
                  let last := d.chunk + 1 == it.q.chunks
                  let more := kj == 0 || d.nextTile == some (x.gi, x.gj)
                  let s := (s.countWait die c st waited).modCore k (fun q => q.fedTile t' set last more)
                  (s.count (rCoreCtrSLICES die c) (kj / it.width)).stepIns e r d)

/-! ## The feeder's ramp (R79 to R82, R140) -/

/-- The ramp length a RAMP_CFG value selects, in ACLK cycles (R88). -/
def rampLength (v : Nat) : Nat :=
  match v % 4 with
  | 0 => 16
  | 1 => 32
  | _ => 64

def Core.setRamp (g : Core) (r : Ramp) : Core := { g with ramp := r }

/-- The ramp runs its counter up to a cycle of the current step (R79), at no more than h/8 where the die holds h budget
tokens (R383): the ramp, and the cycles without a slice. -/
def State.runRamp (s : State) (die : Nat) (r : Ramp) (at' : Nat) : Ramp × Nat :=
  let held := if die = 0 then s.budget.held0 else s.budget.held1
  let d := if held < r.duty then held else r.duty
  let stop := r.stepAt + r.len / 8
  let last := if stop < at' then stop else at'
  let k := last - r.upTo
  ({ r with ph := (r.ph + k * d) % 8, upTo := if r.upTo < last then last else r.upTo }, k - (r.ph + k * d) / 8)

/-- Whether request `a` is served before request `b` (R82): by cycle, then in ascending core number from the core after
the last contended grant. -/
def tokenBefore (last : Nat) (a b : Nat × Nat) : Bool :=
  decide (a.1 < b.1) || (a.1 == b.1 && decide ((a.2 + 63 - last) % 64 ≤ (b.2 + 63 - last) % 64))

/-- A core requests a ramp token in ACLK cycle `at'` (R82). Of the requests of that cycle those that find no token free
wait: the tokens that are held and the requests served before them make eight. -/
def State.askToken (s : State) (die c at' : Nat) : State :=
  let q := listGet [] s.tokenQ die ++ [(at', c)]
  let last := listGet 63 s.tokenLast die
  let held := s.rampHeld die
  let s := s.modCore (coreKey die c) (fun g => g.setRamp { g.ramp with request := some at' })
  let s := (q.filter (fun x => x.1 == at')).foldl (fun (t : State) x =>
    let before := (q.filter (fun y => y != x && tokenBefore last y x)).length
    t.modCore (coreKey die x.2) (fun g => g.setRamp { g.ramp with waiting := decide (8 ≤ held + before) })) s
  { s with tokenQ := listPut [] 2 s.tokenQ die q }

/-- The ramp length under which a stream's packet feeds: that in force when it started (R40, R83). -/
def State.streamRamp (s : State) (die c st : Nat) : Nat :=
  rampLength (((s.run (streamEngine die c st)).map (fun r => r.rampCfg)).getD (bitsOf (s.act rPwrRampCfg) 1 0))

/-- ARBITRATION_POINT (R80 to R82, R140), in ACLK cycle `at'`: the feeder goes on with the run it has begun, or takes a ready
tile of stream B, else of stream F; with nothing to present it stops. An idle feeder requests a ramp token; one that ramps
out or holds resumes. -/
def execArbitrationPoint (die c at' : Nat) (s : State) : Answer :=
  answerNoMem s (
    let k := coreKey die c
    let g := s.core k
    if 2 ≤ die ∨ 64 ≤ c ∨ g.fenced then s
    else
      let pick : Option Nat := match g.chosen with
        | some st => if s.mmaReady die c st then some st else none
        | none => if s.mmaReady die c 1 then some 1 else if s.mmaReady die c 0 then some 0 else none
      match pick with
      | some st =>
        let len := if g.ramp.phase = 0 ∨ g.ramp.phase = 2 then s.streamRamp die c st else g.ramp.len
        let s := s.modCore k (fun q => { q with chosen := some st, ramp := { q.ramp with len := len } })
        if g.ramp.phase = 3 then
          let r := (s.runRamp die g.ramp at').1
          s.modCore k (fun q => q.setRamp { r with phase := 1 })
        else if g.ramp.phase = 0 ∧ g.ramp.request.isNone then s.askToken die c at'
        else s
      | none =>
        if g.ramp.phase = 2 then s.modCore k (fun q => q.setRamp { q.ramp with phase := 3, duty := 8, ph := 0, stepAt := at', upTo := at' })
        else if g.ramp.phase = 1 then
          let r := s.runRamp die g.ramp at'
          (s.modCore k (fun q => q.setRamp { r.1 with phase := 3 })).count (rCoreCtrBUBBLES die c) r.2
        else s)

/-- RAMP_STEP_END (R79, R80, R87, R383): L/8 cycles at the current duty end, and the duty rises or falls by one eighth; at
1/8 the feeder holds. The ramp-in of a die that holds h budget tokens stops rising at h/8. -/
def execRampStepEnd (die c : Nat) (s : State) : Answer :=
  answerNoMem s (
    let k := coreKey die c
    let g := (s.core k).ramp
    let stop := g.stepAt + g.len / 8
    let run := s.runRamp die g stop
    let r : Ramp := { run.1 with stepAt := stop }
    let held := if die = 0 then s.budget.held0 else s.budget.held1
    if 2 ≤ die ∨ 64 ≤ c then s
    else if r.phase = 1 then
      (s.modCore k (fun q => q.setRamp (
        if r.duty < 8 ∧ held ≤ r.duty then r
        else if 8 ≤ r.duty then { r with phase := 2, duty := 8, ph := 0 }
        else { r with duty := r.duty + 1 }))).count (rCoreCtrBUBBLES die c) run.2
    else if r.phase = 3 then s.modCore k (fun q => q.setRamp (if 1 < r.duty then { r with duty := r.duty - 1 } else r))
    else s)

/-- FEEDER_HOLD_END (R80): 64 ACLK cycles after the last real slice, the held feeder goes idle. -/
def execFeederHoldEnd (die c : Nat) (s : State) : Answer :=
  answerNoMem s (
    let k := coreKey die c
    let r := (s.core k).ramp
    if 2 ≤ die ∨ 64 ≤ c then s
    else if r.phase = 3 ∧ r.duty = 1 then s.modCore k (fun q => q.setRamp { r with phase := 0, ph := 0 })
    else s)

/-- RAMP_TOKEN_GRANT (R79, R82, R87), in ACLK cycle `at'`. A grant counts as contended when its core had waited, and the order
starts at C00 before the first such grant (DESIGN CHOICE, log 72: R82 names neither). -/
def execRampTokenGrant (die at' : Nat) (s : State) : Answer :=
  answerNoMem s (
    let q := listGet [] s.tokenQ die
    let last := listGet 63 s.tokenLast die
    match q with
    | [] => s
    | x :: xs =>
      if 2 ≤ die ∨ 8 ≤ s.rampHeld die then s
      else
        let w := xs.foldl (fun b y => if tokenBefore last y b then y else b) x
        let k := coreKey die w.2
        let waited := (s.core k).ramp.waiting
        let s := { s with tokenQ := listPut [] 2 s.tokenQ die (q.erase w),
                          tokenLast := if waited then listPut 63 2 s.tokenLast die w.2 else s.tokenLast }
        let s := s.modCore k (fun g => g.setRamp { g.ramp with
          phase := 1, duty := 1, ph := 0, token := true, grantAt := at', stepAt := at', upTo := at', request := none,
          waiting := false })
        let s := s.count (rCoreCtrRAMPINS die w.2) 1
        if waited then s.count (rCoreCtrTOKENWAITCYCLES die w.2) (at' - w.1 - 1) else s)

/-- RAMP_TOKEN_RETURN (R82): the token returns at the end of cycle L − 1, counting the grant cycle as cycle 0. -/
def execRampTokenReturn (die c at' : Nat) (s : State) : Answer :=
  answerNoMem s (
    let k := coreKey die c
    let r := (s.core k).ramp
    if 2 ≤ die ∨ 64 ≤ c then s
    else if r.token ∧ r.grantAt + r.len ≤ at' + 1 then s.modCore k (fun g => g.setRamp { r with token := false })
    else s)

end Sys2Proof.Machine
end

