-- ==== Sys2Proof/Machine/Attention.lean ====
section
/-!
DEFINITION. Machine/Attention.lean: attention packets (R144 to R156, R166): the sequence list and its items, masks and
skipped blocks, scores with the online softmax, the output chain, and the backward products. An item is begun by one
command and fed by a later one; its output tiles drain by TILE_DRAIN, and a third command ends it (log 1).
-/

namespace Sys2Proof.Machine

/-! ## Descriptors -/

/-- The attention header (R145) and mask descriptor (R150). -/
structure Att where
  back : Bool
  kv : Bool
  claim : Bool
  qFmt : Nat
  pFmt : Nat
  kFmt : Nat
  vFmt : Nat
  d : Nat
  qHeads : Nat
  kvHeads : Nat
  count : Nat
  steps : Nat
  dkvFmt : Nat
  list : Nat
  status : Nat
  scale : W32
  first : Nat
  step : Nat
  obBase : Nat
  obSize : Nat
  dqOff : Int
  dkOff : Int
  dvOff : Int
  terms : Nat
  width : Nat
  tpf : Nat
  winY : Nat
  winX : Nat
  tBack : Nat
  tFwd : Nat
  bitmap : Nat
  kbStride : Nat
  deriving DecidableEq, Repr

def State.attOf (s : State) (r : Run) : Att :=
  let b := r.body
  let m := b + 64
  { back := s.ld 1 b % 4 == 1, kv := bitOf (s.ld 1 b) 2, claim := bitOf (s.ld 1 b) 3 && r.replayOf.isNone, qFmt := s.ld 1 (b + 1) % 16,
    pFmt := s.ld 1 (b + 1) / 16, kFmt := s.ld 1 (b + 2) % 16, vFmt := s.ld 1 (b + 2) / 16, d := 32 * s.ld 1 (b + 3),
    qHeads := s.ld 2 (b + 4), kvHeads := s.ld 2 (b + 6), count := r.dim 0 (s.ld 4 (b + 8)), steps := s.ld 1 (b + 0x0C),
    dkvFmt := s.ld 1 (b + 0x0F) % 16, list := s.ld 8 (b + 0x10), status := s.ld 8 (b + 0x18),
    scale := BitVec.ofNat 32 (s.ld 4 (b + 0x20)), first := if r.replayOf.isSome then 0 else s.ld 4 (b + 0x24),
    step := if r.replayOf.isSome then 1 else s.ld 4 (b + 0x28), obBase := 256 * s.ld 2 (b + 0x2C), obSize := 256 * s.ld 2 (b + 0x2E),
    dqOff := 64 * signedOf 32 (s.ld 4 (b + 0x34)), dkOff := 64 * signedOf 32 (s.ld 4 (b + 0x38)),
    dvOff := 64 * signedOf 32 (s.ld 4 (b + 0x3C)), terms := s.ld 1 m, width := s.ld 2 (m + 2), tpf := s.ld 4 (m + 4),
    winY := s.ld 2 (m + 8), winX := s.ld 2 (m + 0x0A), tBack := s.ld 2 (m + 0x0C), tFwd := s.ld 2 (m + 0x0E),
    bitmap := s.ld 8 (m + 0x10), kbStride := s.ld 4 (m + 0x18) }

/-- A sequence list entry (R146). -/
structure SeqEntry where
  q : Nat
  o : Nat
  k : Nat
  v : Nat
  recs : Nat
  qLen : Nat
  kvLen : Nat
  qPos : Nat
  kvPos : Nat
  reserved : Bool
  deriving DecidableEq, Repr

/-- Entry `i` of the sequence list, which the packet read when it started (R147); `reserved`: a reserved field, or one that
has to be 0 with KV regions, is not 0. -/
def Run.seqEntry (r : Run) (a : Att) (i : Nat) : SeqEntry :=
  let f := fun o n => leNat ((r.cur.entry.drop (64 * i + o)).take n)
  { q := f 0 6, o := f 8 6, k := f 0x10 6, v := f 0x18 6, recs := f 0x20 6, qLen := f 0x28 4, kvLen := f 0x2C 4, qPos := f 0x30 4,
    kvPos := f 0x34 4,
    reserved := [6, 0x0E, 0x16, 0x1E, 0x26].any (fun o => f o 2 != 0) || f 0x38 8 != 0 ||
      (a.kv && (f 0x10 6 / 2 ^ 14 != 0 || f 0x18 6 != 0 || f 0x2C 4 != 0 || f 0x34 4 != 0)) }

/-- A region descriptor (R157) as it stands in the table. -/
structure KvDesc where
  base : Nat
  flags : Nat
  d : Nat
  capacity : Nat
  heads : Nat
  kFmt : Nat
  vFmt : Nat
  sinks : Nat
  recent : Nat
  tpf : Nat
  width : Nat
  split : Nat
  ropeBase : W32
  decay : W32
  tKey : Int
  tVal : Int
  mass : Nat
  slotBytes : Nat
  valid : Nat
  deriving DecidableEq, Repr

def kvDescOf (bs : List Byte) : KvDesc :=
  let f := fun o n => leNat ((bs.drop o).take n)
  { base := f 0 6, flags := f 6 1, d := 32 * f 7 1, capacity := f 8 4, heads := f 0x0C 2, kFmt := f 0x0E 1 % 16,
    vFmt := f 0x0E 1 / 16, sinks := f 0x10 4, recent := f 0x14 4, tpf := f 0x18 4, width := f 0x1C 2, split := f 0x1E 2,
    ropeBase := BitVec.ofNat 32 (f 0x20 4), decay := BitVec.ofNat 32 (f 0x24 4),
    tKey := if f 0x0E 1 % 16 = 11 then signedOf 8 (f 0x28 1) else 0,
    tVal := if f 0x0E 1 / 16 = 11 then signedOf 8 (f 0x2C 1) else 0,
    mass := f 0x30 6, slotBytes := f 0x38 4, valid := f 0x3C 4 }

def State.kvUse (s : State) (r : Nat) : KvUse := Tbl.get (fun _ => {}) s.kv r
def State.setKv (s : State) (r : Nat) (u : KvUse) : State := { s with kv := Tbl.set (fun _ => {}) s.kv r u }
def State.kvAt (s : State) (r : Nat) : Nat := s.kvTable.getD 0 + 64 * r
def State.kvDesc (s : State) (r : Nat) : KvDesc := kvDescOf (s.peek (s.kvAt r) 64)
def State.kvExists (s : State) (r : Nat) : Bool := s.kvTable.isSome && decide (r < 16384) && (s.kvUse r).present

/-- Bytes of one head's keys or values in a slot (R158). -/
def headBytes (f : Fmt) (d : Nat) : Nat := f.elemBytes d + f.scalePlaneBytes d

/-- A header of a slot (R158): position, frame, score, VALID. -/
structure Slot where
  pos : Nat
  frame : Nat
  score : Nat
  valid : Bool
  deriving DecidableEq, Repr

def KvDesc.slotAt (k : KvDesc) (i : Nat) : Nat := k.base + i * k.slotBytes
def State.slot (s : State) (k : KvDesc) (i : Nat) : Slot :=
  let a := k.slotAt i
  { pos := s.ld 4 a, frame := s.ld 2 (a + 4), score := s.ld 2 (a + 6), valid := bitOf (s.ld 1 (a + 8)) 0 }
/-- A slot's header as an engine reads it, and a fault code. -/
def State.slotRead (s : State) (k : KvDesc) (i : Nat) : Slot × Nat :=
  match s.load (k.slotAt i) 16 with
  | .ok _ => (s.slot k i, 0)
  | .fault c => (⟨0, 0, 0, false⟩, c)
def KvDesc.summaryAt (k : KvDesc) (b : Nat) : Nat := k.base + k.capacity * k.slotBytes + 16 * b

/-! ## Items (R147) -/

/-- The bucket of a key length. -/
def attBucket (l : Nat) : Nat :=
  if 32768 < l then 7 else if 8192 < l then 6 else if 4096 < l then 5 else if 2048 < l then 4
  else if 1024 < l then 3 else if 512 < l then 2 else if 256 < l then 1 else 0

/-- Entries in the order of R147, from their key lengths. -/
def attOrder (lens : List Nat) : List Nat :=
  [7, 6, 5, 4, 3, 2, 1, 0].flatMap (fun b => (List.range lens.length).filter (fun i => attBucket (listGet 0 lens i) == b))

/-- Heads and blocks of an entry's items: forward by query head and query block, backward by key head and key block. -/
def Att.shapeOf (a : Att) (qLen l : Nat) : Nat × Nat :=
  if qLen = 0 then (0, 0) else if a.back then (a.kvHeads, ceilDiv l 128) else (a.qHeads, ceilDiv qLen 128)

/-- Item `i` among entries given as (entry, heads, blocks): entry, head, block. -/
def attItem : List (Nat × Nat × Nat) → Nat → Option (Nat × Nat × Nat)
  | [], _ => none
  | (e, h, b) :: rest, i => if i < h * b then some (e, i / b, i % b) else attItem rest (i - h * b)

def Run.attShapes (r : Run) (a : Att) (lens : List Nat) : List (Nat × Nat × Nat) :=
  (attOrder lens).map (fun i => (i, a.shapeOf (r.seqEntry a i).qLen (listGet 0 lens i)))

/-- How many items a packet has, and how many of them an entry has. -/
def attTotal (shapes : List (Nat × Nat × Nat)) : Nat := shapes.foldl (fun n x => n + x.2.1 * x.2.2) 0
def attOwn (shapes : List (Nat × Nat × Nat)) (b : Nat) : Nat := attTotal (shapes.filter (fun x => x.1 == b))

/-- The region an entry names. -/
def SeqEntry.region (e : SeqEntry) : Nat := e.k % 2 ^ 14

/-- The key length of an entry (R147), and its key extent (R150). -/
def State.attLen (s : State) (r : Run) (a : Att) (i : Nat) : Nat :=
  let e := r.seqEntry a i
  if a.kv then (s.kvDesc e.region).valid else e.kvLen
def State.attExtent (s : State) (a : Att) (e : SeqEntry) : Nat := if a.kv then (s.kvDesc e.region).capacity else e.kvLen

/-- The outcome at packet start (R147): a fault code, 0xFF for DONE_EMPTY, 0 to run. A record base of 0 where ATT_LSE or the
backward pass needs one is answered like a reserved field (DESIGN CHOICE, log 72: R146 and R153 name no outcome). -/
def State.attStart (s : State) (r : Run) (a : Att) (lens : List Nat) (fenced : Bool) : Nat :=
  let es := (List.range a.count).map (r.seqEntry a)
  let tooLong := (indexed es).any (fun ie =>
    (decide (1 < r.dimsUsed) && decide (listGet 0 r.shapes 1 < ie.2.qLen)) ||
      (decide (2 < r.dimsUsed) && decide (listGet 0 r.shapes 2 < listGet 0 lens ie.1)))
  let bad := es.any (fun e => decide (1048576 < e.qLen) || decide (1048576 < e.kvLen) || e.reserved) ||
    lens.any (fun l => decide (1048576 < l)) || decide (2 ^ 32 ≤ attTotal (r.attShapes a lens)) ||
    (a.kv && es.any (fun e => !s.kvExists e.region || (s.kvDesc e.region).d != a.d || (s.kvDesc e.region).heads != a.kvHeads)) ||
    (bitOf a.terms 4 && es.any (fun e => decide (a.kbStride < ceilDiv (s.attExtent a e) 128))) ||
    ((a.back || (s.chainAt (r.body + 128) a.steps).any (fun w => stepOp w == 0x10)) && es.any (fun e => e.recs == 0))
  if r.spareWords 3 then 1
  else if !r.shapes.isEmpty && tooLong then 2
  else if fenced then 0x0A
  else if bad then 1
  else if a.count = 0 then 0xFF
  else 0

/-! ## Masks (R149 to R151) -/

/-- A position as the mask sees it: position, frame, row, column. -/
structure Pos where
  p : Nat
  f : Nat
  y : Nat
  x : Nat
  deriving DecidableEq, Repr

def Att.pos (a : Att) (p : Nat) : Pos :=
  let u := p % a.tpf
  { p := p, f := p / a.tpf, y := u / a.width, x := u % a.width }

/-- The terms of R151 on a query and a key. -/
def Att.allows (a : Att) (q k : Pos) : Bool :=
  (!bitOf a.terms 0 || decide (k.p ≤ q.p)) && (!bitOf a.terms 1 || decide (k.f ≤ q.f)) &&
    (!bitOf a.terms 2 || (decide (q.y - k.y + (k.y - q.y) ≤ a.winY) && decide (q.x - k.x + (k.x - q.x) ≤ a.winX))) &&
    (!bitOf a.terms 3 || (decide (q.f ≤ k.f + a.tBack) && decide (k.f ≤ q.f + a.tFwd)))

/-- Byte of the bitmap that holds the bit for query block i and key block j. -/
def Att.bitmapAt (a : Att) (i j : Nat) : Nat := a.bitmap + (i * a.kbStride + j) / 8

/-- The bitmap's bit for query block i and key block j; a fault code. -/
def State.bitmapBit (s : State) (a : Att) (i j : Nat) : Bool × Nat :=
  if !bitOf a.terms 4 then (true, 0)
  else match s.load (a.bitmapAt i j) 1 with
    | .ok bs => (bitOf (leNat bs) ((i * a.kbStride + j) % 8), 0)
    | .fault c => (false, c)

/-- The keys of block j of an entry: each key's position as the mask sees it, where it may be attended to at all; a fault code.
For a region the slots' headers are read. -/
def State.attKeys (s : State) (a : Att) (e : SeqEntry) (j : Nat) : List (Option Pos) × Nat :=
  if a.kv then
    let k := s.kvDesc e.region
    let l := (List.range (validIn k.capacity j)).map (fun i => s.slotRead k (128 * j + i))
    (l.map (fun x => if x.1.valid then some { a.pos x.1.pos with f := x.1.frame } else none), firstFault (l.map (fun x => x.2)))
  else ((List.range (validIn e.kvLen j)).map (fun i => some (a.pos (e.kvPos + 128 * j + i))), 0)

/-- Smallest and largest key position and frame of a block (R151): the block summary's for a region; a fault code. -/
def State.attBounds (s : State) (a : Att) (e : SeqEntry) (j : Nat) : (Nat × Nat × Nat × Nat) × Nat :=
  if a.kv then
    match s.load ((s.kvDesc e.region).summaryAt j) 16 with
    | .ok bs =>
      let f := fun o n => leNat ((bs.drop o).take n)
      ((f 0 4, f 4 4, f 8 2, f 10 2), 0)
    | .fault c => ((0, 0, 0, 0), c)
  else
    let lo := e.kvPos + 128 * j
    let hi := lo + validIn e.kvLen j - 1
    ((lo, hi, lo / a.tpf, hi / a.tpf), 0)

/-- Whether block (i, j) is skipped (R151); a fault code. -/
def State.attSkips (s : State) (a : Att) (e : SeqEntry) (i j : Nat) : Bool × Nat :=
  let bit := s.bitmapBit a i j
  let bounds := s.attBounds a e j
  let keys := s.attKeys a e j
  let b := bounds.1
  let qLo := e.qPos + 128 * i
  let qHi := qLo + validIn e.qLen i - 1
  if bit.2 ≠ 0 then (false, bit.2)
  else if !bit.1 then (true, 0)
  else if firstFault [bounds.2, keys.2] ≠ 0 then (false, firstFault [bounds.2, keys.2])
  else (keys.1.all (fun k => k.isNone) || (bitOf a.terms 0 && decide (qHi < b.1)) ||
    (bitOf a.terms 1 && decide (qHi / a.tpf < b.2.2.1)) ||
    (bitOf a.terms 3 && (decide (qHi / a.tpf + a.tFwd < b.2.2.1) || decide (b.2.2.2 + a.tBack < qLo / a.tpf))), 0)

/-! ## Operands (R146, R152, R158) -/

/-- Rows of a tensor with `heads` heads of `d` elements: element bits and scales of row `n`, head `h` (R146). -/
def State.attRow (s : State) (f : Fmt) (base len heads d n h : Nat) : (List Nat × List Nat) × Nat :=
  let e := (n * heads + h) * d
  let plane := alignUp (base + f.elemBytes (len * heads * d)) 256
  let es := s.load (base + e * f.elemBits / 8) (f.elemBytes d)
  let ss : Rd := if f.scaled then s.load (plane + e / f.block * f.scaleBytes) (f.scalePlaneBytes d) else .ok []
  match es, ss with
  | .ok a, .ok b => ((unpackElems f.elemBits d a,
      (List.range (if f.scaled then d / f.block else 0)).map (fun i => leNat ((b.drop (i * f.scaleBytes)).take f.scaleBytes))), 0)
  | .fault c, _ => (([], []), c)
  | _, .fault c => (([], []), c)

/-- A key or value row of a slot (R158): `off` is its first byte in the slot. -/
def State.slotRow (s : State) (f : Fmt) (k : KvDesc) (i off d : Nat) : (List Nat × List Nat) × Nat :=
  match s.load (k.slotAt i + off) (headBytes f d) with
  | .ok bs =>
    let sc := bs.drop (f.elemBytes d)
    ((unpackElems f.elemBits d bs,
      (List.range (if f.scaled then d / f.block else 0)).map (fun i => leNat ((sc.drop (i * f.scaleBytes)).take f.scaleBytes))), 0)
  | .fault c => (([], []), c)

/-- How a key or value is fed beside an A operand (R152): the format, whether it is widened, whether it is wider. -/
def fedAs (a held : Fmt) : Fmt × Bool × Bool :=
  if a = .bf16 then (.bf16, held ≠ .bf16, false)
  else match held with
    | .bf16 => (.bf16, false, true)
    | .e4m3 => (.e4m3, false, false)
    | .mxE4m3 => (.mxE4m3, false, false)
    | _ => (.mxE4m3, true, false)

/-- The values of a row after stage 1 of R133; a plain row as it is. -/
def rowValues (f : Fmt) (row : List Nat × List Nat) : List Fp :=
  (indexed row.1).map (fun ie =>
    if f.scaled then dequant f (listGet 0 row.2 (ie.1 / f.block)) ie.2 else decodePlain f ie.2)

/-- Rows a conversion made: bits and scales, elements saturated, and elements REBLOCK_RANGE counts (R143). -/
structure Fed where
  rows : List RowBits
  saturated : Nat := 0
  range : Nat := 0

/-- Elements of a row whose dequantise stage REBLOCK_RANGE counts. -/
def rowRange (f : Fmt) (row : RowBits) : Nat :=
  if f.scaled then ((indexed row.1).filter (fun ie => dequantRange f (listGet 0 row.2 (ie.1 / f.block)) ie.2)).length else 0

/-- Key rows as the array takes them (R152): as held, widened to BF16, or re-blocked along d to MXFP8-E4M3. -/
def keyRows (a held : Fmt) (rows : List RowBits) : Fed :=
  let fed := (fedAs a held).1
  let range := rows.foldl (fun n r => n + rowRange held r) 0
  if fed = held then { rows := rows }
  else if fed = .bf16 then { rows := rows.map (fun r => ((rowValues held r).map (convPlain .bf16 false .rne), [])), range := range }
  else
    let bs := rows.map (fun r => reblockRow .mxE4m3 (rowValues held r))
    { rows := bs.map (fun b => (b.1, b.2.1)), saturated := bs.foldl (fun n b => n + b.2.2) 0, range := range }

/-- The transposed values of a block (R152): row e of V over 128 keys. `rows` are the keys' value rows; keys that are
not there are zeros. -/
def valueRows (a held : Fmt) (d : Nat) (rows : List RowBits) : Fed :=
  let fed := (fedAs a held).1
  let cols := rows.map (rowValues held)
  let across := (List.range d).map (fun e =>
    (List.range 128).map (fun k => match cols[k]? with
      | some r => (r[e]?).getD Fp.zero
      | none => Fp.zero))
  let range := rows.foldl (fun n r => n + rowRange held r) 0
  if fed.scaled then
    let bs := across.map (reblockRow fed)
    { rows := bs.map (fun b => (b.1, b.2.1)), saturated := bs.foldl (fun n b => n + b.2.2) 0, range := range }
  else { rows := across.map (fun xs => (xs.map (convPlain fed false .rne), [])), range := range }

/-- Rows as operands of the array. -/
def Fed.operands (x : Fed) (f : Fmt) (unit n : Nat) : List ORow := x.rows.map (fun r => operandRow f unit n r.1 r.2)

/-- The keys and values of block j of an entry for key head g: their rows and a fault code. -/
def State.attBlock (s : State) (a : Att) (e : SeqEntry) (g j : Nat) :
    Fmt × Fmt × List (List Nat × List Nat) × List (List Nat × List Nat) × Nat :=
  if a.kv then
    let k := s.kvDesc e.region
    let kf := (Fmt.ofCode k.kFmt).getD .bf16
    let vf := (Fmt.ofCode k.vFmt).getD .bf16
    let rows := (List.range (validIn k.capacity j)).map (fun i =>
      if (s.slot k (128 * j + i)).valid then
        (s.slotRow kf k (128 * j + i) (16 + g * headBytes kf a.d) a.d,
          s.slotRow vf k (128 * j + i) (16 + k.heads * headBytes kf a.d + g * headBytes vf a.d) a.d)
      else ((([], []), 0), (([], []), 0)))
    (kf, vf, rows.map (fun r => r.1.1), rows.map (fun r => r.2.1), firstFault (rows.map (fun r => if r.1.2 = 0 then r.2.2 else r.1.2)))
  else
    let kf := (Fmt.ofCode a.kFmt).getD .bf16
    let vf := (Fmt.ofCode a.vFmt).getD .bf16
    let rows := (List.range (validIn e.kvLen j)).map (fun i =>
      (s.attRow kf e.k e.kvLen a.kvHeads a.d (128 * j + i) g, s.attRow vf e.v e.kvLen a.kvHeads a.d (128 * j + i) g))
    (kf, vf, rows.map (fun r => r.1.1), rows.map (fun r => r.2.1), firstFault (rows.map (fun r => if r.1.2 = 0 then r.2.2 else r.1.2)))

/-- Tensor exponents of keys and values (R148). -/
def State.attTau (s : State) (a : Att) (e : SeqEntry) : Int × Int :=
  if a.kv then ((s.kvDesc e.region).tKey, (s.kvDesc e.region).tVal) else (0, 0)

/-! ## Online softmax (R148) -/

/-- The running state of one row. -/
structure SoftRow where
  m : W32 := f32NegInf
  l : W32 := 0#32
  o : List W32
  deriving DecidableEq, Repr

/-- The drain's P̂ of a value p. -/
def quantP (pf : Fmt) (p : W32) : Nat :=
  convPlain pf false .rne (if pf = .e4m3 then (ofF32 p).scale2 8 else ofF32 p)

/-- One block for one row: the new state, the row's p, and its P̂. `scores` are none where masked; `v` the value operands. -/
def softStep (pf : Fmt) (unit : Nat) (tauV : Int) (v : List ORow) (r : SoftRow) (scores : List (Option W32)) :
    SoftRow × List W32 × List Nat :=
  let ss := scores.map (fun x => x.getD f32NegInf)
  let m' := f32Max r.m (match ss with
    | [] => f32NegInf
    | x :: xs => xs.foldl f32Max (if f32IsNaN x then f32NaN else x))
  if m' = f32NegInf then (r, scores.map (fun _ => 0#32), scores.map (fun _ => 0))
  else
    let alpha := f32Exp (f32Sub r.m m')
    let ps := ss.map (fun x => f32Exp (f32Sub x m'))
    let qs := ps.map (quantP pf)
    let qv := qs.map (fun q => toF32 (decodePlain pf q))
    let row := operandRow pf unit 128 ((qs ++ List.replicate 128 0).take 128) []
    let l := f32Add (f32Mul r.l alpha) (treeSum 7 (padRow qv))
    let o := (r.o.zip v).map (fun ov =>
      f32Add (f32Mul ov.1 alpha) (toF32 ((ofF32 (cellFeed false 0#32 row ov.2)).scale2 tauV)))
    ({ m := m', l := l, o := o }, ps, qs)

/-- Finalisation of a row (R148): its output, its lse, and whether it had no allowed key. -/
def softEnd (pf : Fmt) (r : SoftRow) : List W32 × W32 × Bool :=
  if f32IsNaN r.m || f32IsNaN r.l then (r.o.map (fun _ => f32NaN), f32NaN, false)
  else if (ofF32 r.l).isZero then (r.o.map (fun _ => 0#32), f32NegInf, true)
  else
    let x := f32Add r.m (f32Ln r.l)
    (r.o.map (fun v => f32Div v r.l),
      if pf = .e4m3 then f32Sub x (toF32 (fpOfFix false (8 * fixLn2))) else x, false)

/-! ## A forward item -/

/-- Rows put into an operand buffer region. -/
structure ObPut where
  off : Nat
  len : Nat
  fmt : Fmt
  k : Nat
  rows : List RowBits

def Core.obPuts (q : Core) (l : List ObPut) : Core := l.foldl (fun q p => q.putRows p.off p.len p.fmt p.k p.rows) q

/-- What an item has done so far: with `fault` the code of the read that ended it, in block `at'`. -/
structure AttAcc where
  rows : List SoftRow := []
  bits : Nat := 0
  visited : Nat := 0
  skipped : Nat := 0
  widened : Nat := 0
  slices : Nat := 0
  fault : Nat := 0
  at' : Nat := 0
  mass : List (Nat × W32) := []
  obs : List ObPut := []
  loads : List Across := []
  reads : List (Nat × Nat) := []

/-- The score of a row and a key (R148). -/
def attScore (scale : W32) (tauK : Int) (q k : ORow) : W32 :=
  toF32 ((Fp.mul (ofF32 (cellFeed false 0#32 q k)) (ofF32 scale)).scale2 tauK)

/-- The slice width of a product, BF16 on either side giving 1 (R152). -/
def attWidth (a fed : Fmt) : Nat := (pairWidth a fed false).getD 1

/-- The operand-buffer bytes an attention packet needs (R155), for the formats the operands are fed in. A transposed footprint
of the backward pass, whose K the row does not give, is a 128-row region with K = d (DESIGN CHOICE, log 72). -/
def attNeed (back : Bool) (d : Nat) (q pf kf vf : Fmt) : Nat :=
  let r := footprint128
  if back then 11 * r .bf16 d + 2 * r pf 128 + 2 * r .bf16 128
  else r q d + 2 * r kf d + 2 * (ceilDiv d 128 * r vf 128) + 2 * r pf 128

/-- The formats an entry's keys and values are held in. -/
def State.attFmts (s : State) (a : Att) (e : SeqEntry) : Fmt × Fmt :=
  let f := fun c => (Fmt.ofCode c).getD Fmt.bf16
  if a.kv then (f (s.kvDesc e.region).kFmt, f (s.kvDesc e.region).vFmt) else (f a.kFmt, f a.vFmt)

/-- Formats of Q and P̂. -/
def Att.qf (a : Att) : Fmt := (Fmt.ofCode a.qFmt).getD .bf16
def Att.pf (a : Att) : Fmt := (Fmt.ofCode a.pFmt).getD .bf16

/-- Runs of a tensor of R146 that rows `first` to `first + n − 1` of head `h` are read in. -/
def attRuns (f : Fmt) (base len heads d h first n : Nat) : List (Nat × Nat) :=
  (List.range n).flatMap (fun i =>
    let e := ((first + i) * heads + h) * d
    (base + e * f.elemBits / 8, f.elemBytes d) ::
      (if f.scaled then [(alignUp (base + f.elemBytes (len * heads * d)) 256 + e / f.block * f.scaleBytes,
        f.scalePlaneBytes d)] else []))

/-- Ranges block j of an entry is read from for key head g. -/
def State.blockRuns (s : State) (a : Att) (e : SeqEntry) (g j : Nat) : List (Nat × Nat) :=
  let f := s.attFmts a e
  if a.kv then
    let k := s.kvDesc e.region
    (k.summaryAt j, 16) :: (List.range (validIn k.capacity j)).flatMap (fun i =>
      let at' := k.slotAt (128 * j + i)
      [(at', 16), (at' + 16 + g * headBytes f.1 a.d, headBytes f.1 a.d),
        (at' + 16 + k.heads * headBytes f.1 a.d + g * headBytes f.2 a.d, headBytes f.2 a.d)])
  else attRuns f.1 e.k e.kvLen a.kvHeads a.d g (128 * j) (validIn e.kvLen j) ++
    attRuns f.2 e.v e.kvLen a.kvHeads a.d g (128 * j) (validIn e.kvLen j)

/-- Bytes of the bitmap that a block's bit is read from. -/
def Att.bitmapRuns (a : Att) (i j : Nat) : List (Nat × Nat) := if bitOf a.terms 4 then [(a.bitmapAt i j, 1)] else []

/-- One key block of a forward item (R148, R151, R152). The operand buffer holds Q, two key blocks, two value blocks and two
P̂ by turns, in the order of R155 (DESIGN CHOICE, log 72). -/
def State.attVisit (s : State) (a : Att) (e : SeqEntry) (h i : Nat) (qs : List ORow) (massOn : Bool) (acc : AttAcc) (j : Nat) :
    AttAcc :=
  if acc.fault ≠ 0 then acc
  else match s.attSkips a e i j with
    | (true, _) => { acc with skipped := acc.skipped + 1, reads := acc.reads ++ a.bitmapRuns i j }
    | (false, code + 1) => { acc with fault := code + 1, at' := j }
    | (false, 0) =>
      let qf := a.qf
      let pf := a.pf
      let g := h / (a.qHeads / a.kvHeads)
      let blk := s.attBlock a e g j
      let kf := blk.1
      let vf := blk.2.1
      if blk.2.2.2.2 ≠ 0 then { acc with fault := blk.2.2.2.2, at' := j }
      else
        let tau := s.attTau a e
        let fk := fedAs qf kf
        let fv := fedAs pf vf
        let uV := pairUnit pf fv.1
        let kr := keyRows qf kf blk.2.2.1
        let vr := valueRows pf vf a.d blk.2.2.2.1
        let keys := kr.operands fk.1 (pairUnit qf fk.1) a.d
        let vals := vr.operands fv.1 uV 128
        let pos := (s.attKeys a e j).1
        let out := (indexed (acc.rows.zip qs)).map (fun nq =>
          let q := a.pos (e.qPos + 128 * i + nq.1)
          let sc := (pos.zip keys).map (fun pk => match pk.1 with
            | some p => if a.allows q p then some (attScore a.scale tau.1 nq.2.2 pk.2) else none
            | none => none)
          softStep pf uV tau.2 vals nq.2.1 sc)
        let bits := b2n fk.2.1 + 2 * b2n fv.2.1 + 4 * b2n fk.2.2 + 8 * b2n fv.2.2
        let mass := if massOn then
            (indexed pos).filterMap (fun kp => if kp.2.isNone then none
              else some (128 * j + kp.1, treeSum 7 (padRow (out.map (fun o => listGet 0#32 o.2.1 kp.1)))))
          else []
        let nd := ceilDiv a.d 128
        let rq := footprint128 qf a.d
        let rk := footprint128 fk.1 a.d
        let rv := footprint128 fv.1 128
        let rp := footprint128 pf 128
        let turn := acc.visited % 2
        let put : ObPut := ⟨a.obBase + rq + turn * rk, rk, fk.1, a.d, kr.rows⟩
        let puts := put :: ⟨a.obBase + rq + 2 * rk + 2 * nd * rv + turn * rp, rp, pf, 128, out.map (fun o => (o.2.2, []))⟩ ::
          (List.range nd).map (fun t => ⟨a.obBase + rq + 2 * rk + (turn * nd + t) * rv, rv, fv.1, 128, (vr.rows.drop (128 * t)).take 128⟩)
        let loads := (if fk.2.1 then [⟨fk.1, a.d, false, kr.saturated, kr.range⟩] else []) ++
          (List.range nd).map (fun t => if t = 0 then (⟨fv.1, 128, true, vr.saturated, vr.range⟩ : Across) else ⟨fv.1, 128, true, 0, 0⟩)
        { acc with rows := out.map (fun o => o.1), bits := acc.bits ||| bits, visited := acc.visited + 1,
                   widened := acc.widened + b2n fk.2.1 + b2n fv.2.1,
                   slices := acc.slices + a.d / attWidth qf fk.1 + nd * (128 / attWidth pf fv.1),
                   mass := acc.mass ++ mass, obs := acc.obs ++ puts, loads := acc.loads ++ loads,
                   reads := acc.reads ++ a.bitmapRuns i j ++ s.blockRuns a e g j }

/-- Key blocks of an entry, which an item of its visits or skips. -/
def State.attKeyBlocks (s : State) (a : Att) (e : SeqEntry) : Nat := ceilDiv (s.attExtent a e) 128

/-- Rows of the entries before `b` in list order: g_b of R153. -/
def Run.attBefore (r : Run) (a : Att) (b : Nat) : Nat := forN b 0 (fun i n => n + (r.seqEntry a i).qLen)

/-- The drain context of output tile t of an item (R153). -/
def State.attCtx (s : State) (eng : Nat) (r : Run) (a : Att) (b : Nat) (e : SeqEntry) (h i t : Nat) : DrainCtx :=
  { engine := eng, pid := r.pid, chain := s.chainAt (r.body + 128) a.steps, cBase := e.o, ldc := a.qHeads * a.d,
    planeRows := e.qLen, row0 := 128 * i, col0 := h * a.d + 128 * t, stat0 := r.attBefore a b + 128 * i,
    nTiles := a.qHeads * ceilDiv a.d 128, nt := h * ceilDiv a.d 128 + t, nCount := ceilDiv a.d 128,
    rows := validIn e.qLen i, cols := validIn a.d t, obBase := a.obBase, rngStream := r.rngStream,
    genBase := r.genBase, seed := r.bind.job.field 0x10 8, place := r.placeOf 0 t 0, replayOf := r.replayOf }

/-- Row records of rows `first` to `first + n − 1` of a head (R146). -/
def recRuns (a : Att) (e : SeqEntry) (h first n : Nat) : List (Nat × Nat) :=
  (List.range n).map (fun x => (e.recs + 8 * ((first + x) * a.qHeads + h), 8))

/-- Whether a chain holds a step. -/
def State.attHas (s : State) (r : Run) (a : Att) (op : Nat) : Bool := (s.chainAt (r.body + 128) a.steps).any (fun w => stepOp w == op)

/-- The checks when a forward item begins (R108, R155, R165): a fault code, 0 for none. Every address it will touch may be
accessed: operands, bitmap, row records, masses, the entry's status record, and the chain's. -/
def State.attOk (s : State) (eng : Nat) (r : Run) (a : Att) (b : Nat) (h i : Nat) : Nat :=
  let e := r.seqEntry a b
  let g := h / (a.qHeads / a.kvHeads)
  let f := s.attFmts a e
  let n := validIn e.qLen i
  let blocks := List.range (s.attKeyBlocks a e)
  let touched := attRuns a.qf e.q e.qLen a.qHeads a.d h (128 * i) n ++
    (if a.kv then [] else blocks.flatMap (fun j => s.blockRuns a e g j)) ++ blocks.flatMap (a.bitmapRuns i) ++
    (if s.attHas r a 0x10 then recRuns a e h (128 * i) n else []) ++ [(a.status + 16 * b, 16)]
  let k := s.kvDesc e.region
  if !(touched.all (fun p => s.mayTouch p.1 p.2 false) && (!(a.kv && s.attHas r a 0x11) || s.mayTouch k.mass (4 * k.capacity) true) &&
      (List.range (ceilDiv a.d 128)).all (fun t => s.chainOk (s.attCtx eng r a b e h i t))) then 1
  else if a.obSize < attNeed false a.d a.qf a.pf (fedAs a.qf f.1).1 (fedAs a.pf f.2).1 then 4
  else 0

/-- A forward item's scores and softmax over its key blocks, from its Q tile (R148). -/
def State.attScan (s : State) (r : Run) (a : Att) (b h i : Nat) : AttAcc :=
  let e := r.seqEntry a b
  let n := validIn e.qLen i
  let rows := (List.range n).map (fun x => s.attRow a.qf e.q e.qLen a.qHeads a.d (128 * i + x) h)
  let unit := pairUnit a.qf (fedAs a.qf (s.attFmts a e).1).1
  match firstFault (rows.map (fun x => x.2)) with
  | 0 =>
    (List.range (s.attKeyBlocks a e)).foldl
      (s.attVisit a e h i (rows.map (fun x => operandRow a.qf unit a.d x.1.1 x.1.2)) (s.attHas r a 0x11 && a.kv))
      { rows := List.replicate n { o := List.replicate a.d 0#32 },
        obs := [⟨a.obBase, footprint128 a.qf a.d, a.qf, a.d, rows.map (fun x => x.1)⟩],
        reads := attRuns a.qf e.q e.qLen a.qHeads a.d h (128 * i) n }
  | code => { fault := code }

/-- What the items of an entry add up towards its status record (R166). Replays keep their own. -/
def Run.attKey (r : Run) (a : Att) (eng b : Nat) : Nat := a.status + 16 * b + (if r.replayOf.isSome then 2 ^ 64 * (1 + eng) else 0)
def State.attEntry (s : State) (r : Run) (key : Nat) : AttEntry :=
  let old := Tbl.get (fun _ => {}) s.att key
  if old.step = r.step then old else { step := r.step }
def State.attAdd (s : State) (r : Run) (key bits empty visited skipped : Nat) : State :=
  let x := s.attEntry r key
  { s with att := Tbl.set (fun _ => {}) s.att key { x with
      bits := x.bits ||| bits, empty := x.empty + empty, visited := x.visited + visited, skipped := x.skipped + skipped } }

/-- An item of an entry completes; with the last its status record is written (R166). A fault code. -/
def State.attNote (s : State) (eng : Nat) (r : Run) (a : Att) (b items : Nat) : State × Nat :=
  let key := r.attKey a eng b
  let x := s.attEntry r key
  if x.done + 1 < items then ({ s with att := Tbl.set (fun _ => {}) s.att key { x with done := x.done + 1 } }, 0)
  else
    let byte := x.bits + 16 * b2n (x.empty != 0)
    let s := { s with att := Tbl.set (fun _ => {}) s.att key {} }
    s.put (some eng) (a.status + 16 * b) (leBytes 1 (if byte = 0 then 0 else 2) ++ leBytes 1 byte ++ leBytes 2 0 ++
      leBytes 4 x.empty ++ leBytes 4 x.visited ++ leBytes 4 x.skipped)

/-- Bits of byte 1 of a status record make the packet's own status DONE_WARN (R152, R166). -/
def State.attWarn (s : State) (eng bits empty : Nat) : State :=
  s.modRun eng (fun q => if bits + empty = 0 then q else { q.withStatus 2 with widened := q.widened || bits != 0 })

/-- Loads through the transposing buffer by a sequencer are counted (R143). -/
def State.countLoads (s : State) (die core : Nat) (l : List Across) : State :=
  l.foldl (fun (t : State) x => t.countAcross die core x) s

/-- A forward item has been fed: each row's end, ATT_LSE, ATT_MASS, and its output tiles, which go to the drain; the last
of them holds the register set `t` held (R148, R153, R160). A fault code. -/
def State.attForward (s : State) (eng : Nat) (r : Run) (a : Att) (b h i : Nat) (acc : AttAcc) (t : Tile) : State × Nat :=
  let die := engDie eng
  let c := engInst eng
  let e := r.seqEntry a b
  let nd := ceilDiv a.d 128
  let ends := acc.rows.map (softEnd a.pf)
  let empty := (ends.filter (fun x => x.2.2)).length
  let s := (s.noteReads acc.reads).countWait die c (engClass eng - 1) acc.slices
  let tiles := (List.range nd).map (fun k =>
    ({ t with gj := k, ctx := s.attCtx eng r a b e h i k, vals := ends.map (fun x => (x.1.drop (128 * k)).take 128), set := none } : Tile))
  let s := s.modCore (coreKey die c) (fun q =>
    let q := q.obPuts acc.obs
    let q := { q with drainQ := q.drainQ ++ tiles.take (nd - 1) }
    q.fedTile { (tiles.getLast?).getD t with gj := t.gj, set := t.set } (t.set.getD 0) true false)
  let recs := if s.attHas r a 0x10 then (indexed ends).map (fun ne =>
      (e.recs + 8 * ((128 * i + ne.1) * a.qHeads + h), leBytes 4 ne.2.2.1.toNat)) else []
  let o := s.putAll eng recs
  let o := (if r.replayOf.isSome then [] else acc.mass).foldl (fun (t : State × Nat) km =>
    match t.1.accumulate (some eng) false ((t.1.kvDesc e.region).mass + 4 * km.1) [km.2] with
    | (u, code) => (u, if t.2 = 0 then code else t.2)) o
  let s := ((((o.1.countLoads die c acc.loads).count (rCoreCtrATTVISITED die c) acc.visited).count (rCoreCtrATTSKIPPED die c)
    acc.skipped).count (rCoreCtrATTEMPTYROWS die c) empty).count (rCoreCtrATTWIDENEDBLOCKS die c) acc.widened
  let s := (s.count (rCoreCtrSLICES die c) acc.slices).attWarn eng acc.bits empty
  (s.attAdd r (r.attKey a eng b) acc.bits empty acc.visited acc.skipped, o.2)

/-! ## A backward item (R156) -/

/-- Outer-product accumulation: each tile value takes one more k, in order (R67). -/
def gradFeed (acc : List (List W32)) (as bs : List Fp) : List (List W32) :=
  (acc.zip as).map (fun ra => (ra.1.zip bs).map (fun cb => accAdd false cb.1 (Fp.mul ra.2 cb.2)))

/-- What one block of a backward item gives: the grown dV and dK, the rows of dQ, P̂ and dS of each row and key, the rows of Q
and dO, its rows without an allowed key, and a fault code. -/
structure BackBlock where
  dv : List (List W32)
  dk : List (List W32)
  dq : List (List W32)
  ps : List (List (Nat × Nat))
  q : List RowBits
  dO : List RowBits
  empty : Nat
  fault : Nat

/-- The products of one block (R156). -/
def State.attBackBlock (s : State) (a : Att) (e : SeqEntry) (h i j : Nat) (keys vals : List (List Nat)) (dv dk : List (List W32)) :
    BackBlock :=
  let n := validIn e.qLen i
  let rd := fun (base : Nat) => (List.range n).map (fun x => s.attRow .bf16 base e.qLen a.qHeads a.d (128 * i + x) h)
  let q := rd e.q
  let dO := rd e.o
  let recs := (recRuns a e h (128 * i) n).map (fun p => s.load p.1 p.2)
  let fault := firstFault (q.map (fun x => x.2) ++ dO.map (fun x => x.2) ++
    recs.map (fun x => match x with | .ok _ => 0 | .fault c => c))
  let words := recs.map (fun x => match x with
    | .ok bs => (BitVec.ofNat 32 (leNat (bs.take 4)), BitVec.ofNat 32 (leNat (bs.drop 4)))
    | .fault _ => (f32NegInf, 0#32))
  let pos := (s.attKeys a e j).1
  let op := fun (es : List Nat) => operandRow .bf16 1 a.d es []
  let rows : List (List (Nat × Nat)) := (indexed ((q.zip dO).zip words)).map (fun nx =>
    let lse := nx.2.2.1
    let qp := a.pos (e.qPos + 128 * i + nx.1)
    (pos.zip (keys.zip vals)).map (fun pk =>
      let ok := match pk.1 with | some p => a.allows qp p && lse != f32NegInf | none => false
      if !ok then (0, 0)
      else
        let p := f32Exp (f32Sub (attScore a.scale 0 (op nx.2.1.1.1.1) (op pk.2.1)) lse)
        let dp := cellFeed false 0#32 (op nx.2.1.2.1.1) (op pk.2.2)
        let ds := f32Mul (f32Mul p (f32Sub dp nx.2.2.2)) a.scale
        (quantP a.pf p, convPlain .bf16 false .rne (ofF32 ds))))
  let val := fun (l : List (RowBits × Nat)) (n : Nat) => (((l[n]?).map (fun x => x.1.1)).getD []).map (decodePlain .bf16)
  { dv := (indexed rows).foldl (fun acc nr => gradFeed acc (nr.2.map (fun x => decodePlain a.pf x.1)) (val dO nr.1)) dv,
    dk := (indexed rows).foldl (fun acc nr => gradFeed acc (nr.2.map (fun x => decodePlain .bf16 x.2)) (val q nr.1)) dk,
    dq := rows.map (fun row => (List.range a.d).map (fun x =>
      (row.zip keys).foldl (fun acc dk =>
        accAdd false acc (Fp.mul (decodePlain .bf16 dk.1.2) (decodePlain .bf16 (listGet 0 dk.2 x)))) 0#32)),
    ps := rows, q := q.map (fun x => x.1), dO := dO.map (fun x => x.1),
    empty := (words.filter (fun w => w.1 == f32NegInf)).length, fault := fault }

/-- What a backward item has so far; dQ has been accumulated in `s`. -/
structure BackAcc where
  s : State
  dv : List (List W32)
  dk : List (List W32)
  visited : Nat := 0
  skipped : Nat := 0
  empty : Nat := 0
  fault : Nat := 0
  at' : Nat := 0
  obs : List ObPut := []
  loads : List Across := []
  reads : List (Nat × Nat) := []

/-- The transpose of rows of element bits. -/
def acrossBits (n : Nat) (rows : List (List Nat)) : List RowBits := (List.range n).map (fun k => (rows.map (fun r => listGet 0 r k), []))

/-- The entry's rows without an allowed key that a backward item reports: each query block's rows once for a head, with the
first key block that is visited, or with the entry's last when none is (DESIGN CHOICE, log 72: R166 does not say which item
finds them). -/
def State.attFirst (s : State) (a : Att) (e : SeqEntry) (i j : Nat) : Bool := (List.range j).all (fun j' => (s.attSkips a e i j').1)

/-- Where dQ, and dK or dV, of a backward item go (R156). -/
def Att.outRuns (a : Att) (e : SeqEntry) (g j base : Nat) (off : Int) : List (Nat × Nat) :=
  attRuns ((Fmt.ofCode a.dkvFmt).getD .fp32) (addOff base off) e.kvLen a.kvHeads a.d g (128 * j) (validIn e.kvLen j)

/-- Query heads that share a key head. -/
def Att.headsOf (a : Att) (g : Nat) : List Nat := (List.range (a.qHeads / a.kvHeads)).map (fun x => g * (a.qHeads / a.kvHeads) + x)

/-- The checks when a backward item begins (R108, R165): a fault code, 0 for none. -/
def State.attBackOk (s : State) (r : Run) (a : Att) (b g j : Nat) : Nat :=
  let e := r.seqEntry a b
  let touched := s.blockRuns a e g j ++ (a.headsOf g).flatMap (fun h =>
      attRuns .bf16 e.q e.qLen a.qHeads a.d h 0 e.qLen ++ attRuns .bf16 e.o e.qLen a.qHeads a.d h 0 e.qLen ++
        recRuns a e h 0 e.qLen) ++ (List.range (ceilDiv e.qLen 128)).flatMap (fun i => a.bitmapRuns i j) ++
    a.outRuns e g j e.k a.dkOff ++ a.outRuns e g j e.v a.dvOff ++ [(a.status + 16 * b, 16)]
  let added := (a.headsOf g).flatMap (fun h => attRuns .fp32 (addOff e.q a.dqOff) e.qLen a.qHeads a.d h 0 e.qLen)
  if offBad e.q a.dqOff || offBad e.k a.dkOff || offBad e.v a.dvOff || !touched.all (fun p => s.mayTouch p.1 p.2 false) ||
      !added.all (fun p => s.mayTouch p.1 p.2 true) then 1 else 0

/-- One query block of a backward item (R156). The operand buffer holds K, V and Kᵀ, two of Q, dO, Qᵀ and dOᵀ by turns, and P̂,
P̂ᵀ, dS and dSᵀ, in the order of R155 (DESIGN CHOICE, log 72). -/
def State.attBackVisit (s : State) (eng : Nat) (a : Att) (e : SeqEntry) (j : Nat) (keys vals : List (List Nat)) (x : BackAcc)
    (hi : Nat × Nat) : BackAcc :=
  let rows := validIn e.qLen hi.2
  if x.fault ≠ 0 then x
  else match s.attSkips a e hi.2 j with
    | (true, _) => { x with
        skipped := x.skipped + 1, reads := x.reads ++ a.bitmapRuns hi.2 j,
        empty := x.empty + (if j + 1 = s.attKeyBlocks a e ∧ s.attFirst a e hi.2 j then rows else 0) }
    | (false, code + 1) => { x with fault := code + 1, at' := hi.2 }
    | (false, 0) =>
      let o := x.s.attBackBlock a e hi.1 hi.2 j keys vals x.dv x.dk
      if o.fault ≠ 0 then { x with fault := o.fault, at' := hi.2 }
      else
        let bad := ((o.dq.flatten).filter (fun v => !f32IsFinite v)).length
        let dq := addOff e.q a.dqOff
        let t := (indexed o.dq).foldl (fun (t : State × Nat) nr =>
          match t.1.accumulate (some eng) false (dq + 4 * (((128 * hi.2 + nr.1) * a.qHeads + hi.1) * a.d)) nr.2 with
          | (u, code) => (u, if t.2 = 0 then code else t.2)) (x.s, 0)
        let u := (t.1.count (rCoreCtrNONFINITE (engDie eng) (engInst eng)) bad).modRun eng (fun q => { q with nonfinite := q.nonfinite + bad })
        let rd := footprint128 .bf16 a.d
        let rp := footprint128 a.pf 128
        let rs := footprint128 .bf16 128
        let at' := a.obBase + 3 * rd + x.visited % 2 * (4 * rd)
        let ps := a.obBase + 11 * rd
        let puts : List ObPut := [⟨at', rd, .bf16, a.d, o.q⟩, ⟨at' + rd, rd, .bf16, a.d, o.dO⟩,
          ⟨at' + 2 * rd, rd, .bf16, 128, acrossBits a.d (o.q.map (fun r => r.1))⟩,
          ⟨at' + 3 * rd, rd, .bf16, 128, acrossBits a.d (o.dO.map (fun r => r.1))⟩,
          ⟨ps, rp, a.pf, 128, o.ps.map (fun r => (r.map (fun y => y.1), []))⟩,
          ⟨ps + rp, rp, a.pf, 128, acrossBits keys.length (o.ps.map (fun r => r.map (fun y => y.1)))⟩,
          ⟨ps + 2 * rp, rs, .bf16, 128, o.ps.map (fun r => (r.map (fun y => y.2), []))⟩,
          ⟨ps + 2 * rp + rs, rs, .bf16, 128, acrossBits keys.length (o.ps.map (fun r => r.map (fun y => y.2)))⟩]
        { x with
          s := u, dv := o.dv, dk := o.dk, visited := x.visited + 1, fault := t.2, at' := hi.2, obs := x.obs ++ puts,
          empty := x.empty + (if s.attFirst a e hi.2 j then o.empty else 0),
          loads := x.loads ++ List.replicate (2 * ceilDiv a.d 128) ⟨.bf16, 128, true, 0, 0⟩,
          reads := x.reads ++ a.bitmapRuns hi.2 j ++ attRuns .bf16 e.q e.qLen a.qHeads a.d hi.1 (128 * hi.2) rows ++
            attRuns .bf16 e.o e.qLen a.qHeads a.d hi.1 (128 * hi.2) rows ++ recRuns a e hi.1 (128 * hi.2) rows }

/-- The query heads and blocks of a backward item, in order. -/
def Att.backBlocks (a : Att) (e : SeqEntry) (g : Nat) : List (Nat × Nat) :=
  (a.headsOf g).flatMap (fun h => (List.range (ceilDiv e.qLen 128)).map (fun i => (h, i)))

/-- A backward item is fed whole (R156): a fault code, and the query block it was found in. -/
def State.attBackward (s : State) (eng : Nat) (r : Run) (a : Att) (b g j : Nat) (t : Tile) : State × Nat × Nat :=
  let die := engDie eng
  let c := engInst eng
  let e := r.seqEntry a b
  let of := (Fmt.ofCode a.dkvFmt).getD .fp32
  let n := validIn e.kvLen j
  let blk := s.attBlock a e g j
  if blk.2.2.2.2 ≠ 0 then (s, blk.2.2.2.2, 0)
  else
    let keys := blk.2.2.1.map (fun x => x.1)
    let vals := blk.2.2.2.1.map (fun x => x.1)
    let zero := List.replicate n (List.replicate a.d 0#32)
    let rd := footprint128 .bf16 a.d
    let acc := (a.backBlocks e g).foldl (s.attBackVisit eng a e j keys vals) {
      s := s, dv := zero, dk := zero, reads := s.blockRuns a e g j,
      obs := [⟨a.obBase, rd, .bf16, a.d, blk.2.2.1⟩, ⟨a.obBase + rd, rd, .bf16, a.d, blk.2.2.2.1⟩,
        ⟨a.obBase + 2 * rd, rd, .bf16, 128, acrossBits a.d keys⟩],
      loads := List.replicate (ceilDiv a.d 128) ⟨.bf16, 128, true, 0, 0⟩ }
    if acc.fault ≠ 0 then (acc.s, acc.fault, acc.at')
    else
      let bad := (((acc.dv ++ acc.dk).flatten).filter (fun v => !f32IsFinite v)).length
      let slices := acc.visited * (2 * a.d + ceilDiv a.d 128 * 384)
      let u := (acc.s.count (rCoreCtrNONFINITE die c) bad).modRun eng (fun q => { q with nonfinite := q.nonfinite + bad })
      let u := (u.noteReads acc.reads).countWait die c (engClass eng - 1) slices
      let u := u.modCore (coreKey die c) (fun q =>
        let q := (q.obPuts acc.obs).fedTile t (t.set.getD 0) true false
        { q with drainQ := q.drainQ.filter (fun y => y != t) })
      let row := fun (xs : List W32) (k : Int) => encodePlains of false (fun _ => .rne) (xs.map (fun v => (ofF32 v).scale2 k))
      let at' := fun (base : Nat) (off : Int) (x : Nat) =>
        addOff base off + ((128 * j + x) * a.kvHeads + g) * a.d * of.elemBits / 8
      let outs := (indexed acc.dk).map (fun nr => (at' e.k a.dkOff nr.1, row nr.2 0)) ++
        (indexed acc.dv).map (fun nr => (at' e.v a.dvOff nr.1, row nr.2 (if a.pf = .e4m3 then -8 else 0)))
      let o := u.putAll eng outs
      let u := ((((o.1.countLoads die c acc.loads).count (rCoreCtrATTVISITED die c) acc.visited).count (rCoreCtrATTSKIPPED die c)
        acc.skipped).count (rCoreCtrSLICES die c) slices).attWarn eng 0 acc.empty
      (u.attAdd r (r.attKey a eng b) 0 acc.empty acc.visited acc.skipped, o.2, 0)

/-! ## The rows -/

/-- Readers of a region (R164). -/
def State.kvRead (s : State) (a : Att) (e : SeqEntry) (eng : Nat) (on : Bool) : State :=
  if !a.kv then s
  else
    let u := s.kvUse e.region
    s.setKv e.region { u with readers := if on then u.readers ++ [eng] else u.readers.erase eng }

/-- What an attention packet's start answers (R147): a fault code, or 0, and the run with the list and the lengths it has
read. -/
def State.attOpen (s : State) (r : Run) (die c : Nat) : Nat × Run :=
  let a := s.attOf r
  match (if a.count = 0 then Rd.ok [] else s.load a.list (64 * a.count)) with
  | .fault code => (code, r)
  | .ok bs =>
    let r := { r with cur := { r.cur with entry := bs } }
    if a.kv && (List.range a.count).any (fun i => s.badRange (s.kvAt (r.seqEntry a i).region) 64) then (6, r)
    else
      let lens := (List.range a.count).map (s.attLen r a)
      match s.attStart r a lens (s.coreFenced die c) with
      | 0 =>
        let q := { r.beginItems (attTotal (r.attShapes a lens)) a.first a.claim with aux := lens }
        (0, { q with cur := { q.cur with entry := bs } })
      | 0xFF => (0, { r with status := 1, retired := true })
      | code => (code, r)

/-- Entries without items get their status record, DONE_EMPTY, when the packet starts (R147, R166). -/
def State.attEmpty (s : State) (eng : Nat) (r : Run) (a : Att) : State × Nat :=
  s.putAll eng (((r.attShapes a r.aux).filter (fun x => x.2.1 * x.2.2 == 0)).map (fun x => (a.status + 16 * x.1, leBytes 16 1)))

/-- An attention packet starts (R147). -/
def State.attBegin (s : State) (eng die c : Nat) : State :=
  let s := s.startPacket eng 2
  match s.run eng with
  | none => s
  | some r =>
    if r.kind ≠ 2 ∨ r.stopped then s
    else
      let a := s.attOf r
      match s.attOpen r die c with
      | (0, q) =>
        let s := (if a.count = 0 then s else s.noteRead a.list (64 * a.count)).setRun eng q
        if q.aux.isEmpty then s
        else match s.attEmpty eng q a with
          | (t, 0) => t
          | (t, code) => t.memFaultRun eng code
      | (code, _) => s.memFaultRun eng code

/-- The next item begins (R104, R108, R147), unless an append waits to evict from its region (R164). -/
def State.attItemBegin (s : State) (eng : Nat) (r : Run) (a : Att) : State :=
  match r.nextItem a.claim with
  | none => s
  | some i =>
    let p : Run := { r with cur := { r.cur with item := some i, claimed := none, pc := 0, needClaim := a.claim && !r.cur.claimsEnded } }
    match attItem (r.attShapes a r.aux) i with
    | none => (s.setRun eng p).faultAt eng 1 0 0 0
    | some (b, h, j) =>
      let e := r.seqEntry a b
      if a.kv && (s.kvUse e.region).evicting then s
      else match (if a.back then s.attBackOk r a b h j else s.attOk eng r a b h j) with
        | 0 => (s.kvRead a e eng true).setRun eng p
        | code => (s.setRun eng p).faultAt eng code 0 0 0

/-- The item in hand is fed (R148, R156), once it has a register set and, where it visits a block, the feeder presents the stream.
A fault is recorded with the block it was found in as the chunk (DESIGN CHOICE, log 72). -/
def State.attFeed (s : State) (die c st : Nat) (r : Run) (a : Att) (i b h j : Nat) : State :=
  let eng := streamEngine die c st
  let g := s.core (coreKey die c)
  let e := r.seqEntry a b
  match g.tiles.find? (fun t => t.stream == st && t.set.isSome) with
  | none => s
  | some t =>
    let goOn := fun (o : State × Nat × Nat) =>
      let u := o.1.kvRead a e eng false
      if o.2.1 ≠ 0 then u.faultIn eng o.2.1 { item := i, chunk := o.2.2 }
      else u.modRun eng (fun q => { q with executed := q.executed + 1, recChunk := o.2.2, cur := { q.cur with pc := 1 } })
    if a.back then
      let visits := (a.backBlocks e h).any (fun hi => !(s.attSkips a e hi.2 j).1)
      if visits && !g.feeds st then s else goOn (s.attBackward eng r a b h j t)
    else
      let acc := s.attScan r a b h j
      if acc.fault ≠ 0 then goOn (s, acc.fault, acc.at')
      else if acc.visited ≠ 0 && !g.feeds st then s
      else
        let o := s.attForward eng r a b h j acc t
        goOn (o.1, o.2, 0)

/-- The item in hand has been fed and its tiles have drained: it completes (R166). -/
def State.attItemEnd (s : State) (die c st : Nat) (r : Run) (a : Att) (b : Nat) : State :=
  let eng := streamEngine die c st
  if (s.core (coreKey die c)).drainQ.any (fun t => t.stream == st) then s
  else match s.attNote eng r a b (attOwn (r.attShapes a r.aux) b) with
    | (t, 0) => t.modRun eng (fun q => q.endItem (if a.claim then 0 else a.step))
    | (t, code) => t.faultAt eng code 0 0 0

/-- An attention packet takes its next stage: its next item begins, is fed, or completes. -/
def State.attStage (s : State) (die c st : Nat) (r : Run) : State :=
  let a := s.attOf r
  match r.cur.item with
  | none => s.attItemBegin (streamEngine die c st) r a
  | some i => match attItem (r.attShapes a r.aux) i with
    | none => s
    | some (b, h, j) => if r.cur.pc = 0 then s.attFeed die c st r a i b h j else s.attItemEnd die c st r a b

/-- Whether an attention body is backward. -/
def State.attBack (s : State) (b : Nat) : Bool := s.ld 1 b % 4 == 1

def State.attRowStep (s : State) (die c st : Nat) (back : Bool) : State :=
  let eng := streamEngine die c st
  if 2 ≤ st then s
  else match s.run eng with
    | none =>
      if s.nextIs eng 2 (fun b => s.attBack b == back) && s.holdFree die c st 2 then s.attBegin eng die c else s
    | some r => if s.goes eng 2 && (s.attOf r).back == back then s.attStage die c st r else s

/-- ATTENTION_FORWARD (R147 to R155, R164, R166): the packet starts, or its next item begins, is fed or completes. -/
def execAttentionForward (die c st : Nat) (s : State) : Answer := answer s (s.attRowStep die c st false)

/-- ATTENTION_BACKWARD (R147, R156). -/
def execAttentionBackward (die c st : Nat) (s : State) : Answer := answer s (s.attRowStep die c st true)

end Sys2Proof.Machine
end

