-- ==== Sys2Proof/Machine/Kv.lean ====
section
/-!
DEFINITION. Machine/Kv.lean: KV append units (R157 to R164): a region's lock, the folding of masses, eviction, rotation,
and the writing of tokens.
-/

namespace Sys2Proof.Machine

/-- An entry of an append body (R160). -/
structure AppendEntry where
  region : Nat
  count : Nat
  first : Nat
  stride : Nat
  k : Nat
  v : Nat
  deriving DecidableEq, Repr

def State.appendEntry (s : State) (body i : Nat) : AppendEntry :=
  let a := body + 32 + 32 * i
  { region := s.ld 2 a, count := s.ld 4 (a + 4), first := s.ld 4 (a + 8), stride := s.ld 4 (a + 0x0C), k := s.ld 6 (a + 0x10),
    v := s.ld 6 (a + 0x16) }

def KvDesc.frameMode (k : KvDesc) : Bool := bitOf k.flags 0

/-- Slots of a region by number. -/
def State.slots (s : State) (k : KvDesc) : List (Nat × Slot) := (List.range k.capacity).map (fun i => (i, s.slot k i))

/-- Free slots an append may take (R160): in FRAME_EVICT mode those of wholly free groups. -/
def State.freeSlots (s : State) (k : KvDesc) : List Nat :=
  if k.frameMode then
    ((List.range (k.capacity / k.tpf)).filter (fun g =>
      (List.range k.tpf).all (fun i => !(s.slot k (g * k.tpf + i)).valid))).flatMap
        (fun g => (List.range k.tpf).map (fun i => g * k.tpf + i))
  else (List.range k.capacity).filter (fun i => !(s.slot k i).valid)

/-- What an entry is refused for once its region's lock is held (R160). -/
def appendBad (k : KvDesc) (top : Nat) (x : AppendEntry) : Bool :=
  decide (x.first < top) || x.count == 0 || decide (k.capacity < x.count + k.sinks + k.recent) ||
    decide (65535 < (x.first + x.count - 1) / k.tpf) ||
    (k.frameMode && (x.first % k.tpf != 0 || x.count % k.tpf != 0))

/-- score := γ × score + mass, to FP16, clamped (R160). -/
def foldScore (decay mass : W32) (score : Nat) : Nat :=
  narrow parFp16 .rne .saturate (Fp.add (Fp.mul (ofF32 decay) (decodeFloat parFp16 score)) (ofF32 mass))

/-- Fold the masses of every slot (R160): each is read and cleared, and the score moves on. A fault code. -/
def State.foldMasses (s : State) (eng : Nat) (k : KvDesc) : State × Nat :=
  (List.range k.capacity).foldl (fun (sf : State × Nat) i =>
    let t := sf.1
    if sf.2 ≠ 0 then sf
    else match t.load (k.mass + 4 * i) 4, t.load (k.slotAt i) 16 with
      | .ok m, .ok _ =>
        let score := foldScore k.decay (BitVec.ofNat 32 (leNat m)) (t.slot k i).score
        let t := t.put (some eng) (k.mass + 4 * i) (leBytes 4 0)
        let u := t.1.put (some eng) (k.slotAt i + 6) (leBytes 2 score)
        (u.1, if t.2 = 0 then u.2 else t.2)
      | .fault c, _ => (t, c)
      | _, .fault c => (t, c)) (s, 0)

/-- Whether a position is protected from eviction (R162). -/
def KvDesc.protects (k : KvDesc) (last pos : Nat) : Bool := decide (pos < k.sinks) || decide (last < pos + k.recent)

/-- Clear slots' VALID (R162). -/
def State.clearSlots (s : State) (eng : Nat) (k : KvDesc) (l : List Nat) : State × Nat :=
  s.putAll eng (l.map (fun i => (k.slotAt i + 8, [0#8])))

/-- The victim of a scan (R162): the slots to free. -/
def State.victim (s : State) (k : KvDesc) (last : Nat) : List Nat :=
  if k.frameMode then
    let groups := (List.range (k.capacity / k.tpf)).filterMap (fun g =>
      let xs := (List.range k.tpf).map (fun i => s.slot k (g * k.tpf + i))
      if xs.any (fun t => !t.valid || k.protects last t.pos) then none
      else
        let sum := xs.foldl (fun a t => f32Add a (toF32 (decodeFloat parFp16 t.score))) 0#32
        some (g, f32Div sum (f32OfInt k.tpf), (xs.headD ⟨0, 0, 0, false⟩).frame))
    match groups with
    | [] => []
    | x :: xs =>
      let b := xs.foldl (fun b y =>
        if f32Lt y.2.1 b.2.1 || (Fp.eq (ofF32 y.2.1) (ofF32 b.2.1) && decide (y.2.2 < b.2.2)) then y else b) x
      (List.range k.tpf).map (fun i => b.1 * k.tpf + i)
  else
    let cands := (s.slots k).filter (fun t => t.2.valid && !k.protects last t.2.pos)
    match cands with
    | [] => []
    | x :: xs =>
      let sc := fun (t : Nat × Slot) => decodeFloat parFp16 t.2.score
      let b := xs.foldl (fun b y =>
        if Fp.lt (sc y) (sc b) || (Fp.eq (sc y) (sc b) && decide (y.2.pos < b.2.pos)) then y else b) x
      [b.1]

/-- Evict until `count` slots are free, by fuel; answers how many were evicted, and a fault code. -/
def State.evictFor (s : State) (eng : Nat) (k : KvDesc) (last count : Nat) : Nat → Nat → State × Nat × Nat
  | 0, n => (s, n, 0)
  | fuel + 1, n =>
    if count ≤ (s.freeSlots k).length then (s, n, 0)
    else match s.victim k last with
      | [] => (s, n, 0)
      | vs => match s.clearSlots eng k vs with
        | (t, 0) => State.evictFor t eng k last count fuel (n + vs.length)
        | (t, code) => (t, n, code)

/-- θ of R161 for pair `i` of a key at position `pos`. -/
def KvDesc.angle (k : KvDesc) (pos i : Nat) : W32 :=
  let dt := 2 * bitsOf k.split 7 0
  let dy := 2 * bitsOf k.split 15 8
  let u := pos % k.tpf
  let zd : Nat × Nat :=
    if !bitOf k.flags 2 then (pos, k.d)
    else if 2 * i < dt then (pos / k.tpf, dt)
    else if 2 * i < dt + dy then (u / k.width, dy)
    else (u % k.width, k.d - dt - dy)
  let w := withinUlp 4 42 (k.ropeBase.toNat + 2 ^ 32 * (2 * i) + 2 ^ 48 * zd.2)
    (fpOfFix false (fixExp (-(((2 * i : Nat) : Int) * fixLn (fixOf (ofF32 k.ropeBase)) / (zd.2 : Int)))))
  -- an infinite base leaves pair 0 alone
  f32Mul (f32OfInt zd.1) (if f32IsFinite k.ropeBase then w else if i = 0 then f32One else 0#32)

/-- Rotate a head's key (R161). -/
def KvDesc.rotate (k : KvDesc) (pos : Nat) (xs : List W32) : List W32 :=
  (List.range (xs.length / 2)).flatMap (fun i =>
    let a := listGet 0#32 xs (2 * i)
    let c := listGet 0#32 xs (2 * i + 1)
    let t := k.angle pos i
    [f32Sub (f32Mul a (f32Cos t)) (f32Mul c (f32Sin t)), f32Add (f32Mul a (f32Sin t)) (f32Mul c (f32Cos t))])

/-- A head's elements in a region format, with their scales (R158, R160). -/
def headEncode (f : Fmt) (tau : Int) (xs : List Fp) : List Byte :=
  if f.scaled then
    let b := encodeBlocks f false tau .first (fun _ => .rne) xs
    b.1 ++ b.2
  else encodePlains f false (fun _ => .rne) xs

/-- Write one token into a slot (R160): keys, values, and the header with VALID last. A fault code. -/
def State.writeToken (s : State) (eng : Nat) (k : KvDesc) (sf : Fmt) (x : AppendEntry) (t i : Nat) : State × Nat :=
  let bytes := sf.elemBytes (k.heads * k.d)
  let pos := x.first + t
  match s.load (x.k + t * x.stride) bytes, s.load (x.v + t * x.stride) bytes with
  | .ok kb, .ok vb =>
    let kf := (Fmt.ofCode k.kFmt).getD .bf16
    let vf := (Fmt.ofCode k.vFmt).getD .bf16
    let heads := fun (bs : List Byte) => chunksOf k.d (k.heads + 1) (decodePlains sf (k.heads * k.d) bs)
    let keys := (heads kb).flatMap (fun h =>
      headEncode kf k.tKey (if bitOf k.flags 1 then (k.rotate pos (h.map toF32)).map ofF32 else h))
    let vals := (heads vb).flatMap (headEncode vf k.tVal)
    let a := k.slotAt i
    (s.noteReads [(x.k + t * x.stride, bytes), (x.v + t * x.stride, bytes)]).putAll eng [(a + 16, keys ++ vals),
      (a, leBytes 4 pos ++ leBytes 2 (pos / k.tpf) ++ leBytes 2 0 ++ leBytes 8 1)]
  | .fault c, _ => (s, c)
  | _, .fault c => (s, c)

/-- A block's summary as its slots stand (R158), and where it goes. -/
def State.summary (s : State) (k : KvDesc) (b : Nat) : Nat × List Byte :=
  let xs := ((List.range (validIn k.capacity b)).map (fun i => s.slot k (128 * b + i))).filter (fun t => t.valid)
  let least := fun (f : Slot → Nat) => match xs with | [] => 0 | x :: r => r.foldl (fun m t => if f t < m then f t else m) (f x)
  let most := fun (f : Slot → Nat) => xs.foldl (fun m t => if m < f t then f t else m) 0
  (k.summaryAt b, leBytes 4 (least (fun t => t.pos)) ++ leBytes 4 (most (fun t => t.pos)) ++
    leBytes 2 (least (fun t => t.frame)) ++ leBytes 2 (most (fun t => t.frame)))

/-- Update the summaries and valid_count (R160); a fault code. -/
def State.kvUpdate (s : State) (eng r : Nat) (k : KvDesc) : State × Nat :=
  let n := ((s.slots k).filter (fun t => t.2.valid)).length
  match s.putAll eng ((List.range (ceilDiv k.capacity 128)).map (s.summary k)) with
  | (t, code) => (t.poke (t.kvAt r + 0x3C) (leBytes 4 n), code)

/-- The entry in hand has ended: the lock is released and the next entry is taken. `aux` holds whether it has evicted and
how many. -/
def State.appendNext (s : State) (eng : Nat) (r : Run) (region : Nat) : State :=
  let u := s.kvUse region
  let s := if u.lock = some eng then s.setKv region { u with lock := none, evicting := false } else s
  let n := r.cur.next + 1
  s.setRun eng { r with cur := { r.cur with next := n }, aux := [], executed := r.executed + 1,
                        retired := decide (r.cur.items ≤ n) }

/-- The status record of the entry in hand is written, and the entry ends (R160); a write that faults stops the packet (R9). -/
def State.appendDone (s : State) (eng : Nat) (r : Run) (region st evicted : Nat) : State :=
  match s.put (some eng) (s.ld 8 (r.body + 8) + 16 * r.cur.next) (leBytes 4 st ++ leBytes 4 evicted ++ leBytes 8 0) with
  | (t, 0) => t.appendNext eng r region
  | (t, code) => t.memFaultRun eng code

/-- A KV append packet starts: entry_count is shape word 0's (R160). -/
def State.appendBegin (s : State) (eng : Nat) : State :=
  let s := s.startPacket eng 8
  match s.run eng with
  | none => s
  | some r =>
    if r.kind ≠ 8 ∨ r.stopped then s
    else
      let n := r.dim 0 (s.ld 4 r.body)
      if n = 0 then s.setRun eng { r with status := 1, retired := true }
      else if r.bodyLen < 32 + 32 * n then s.faultRun eng 1
      else s.setRun eng { r with cur := { items := n } }

/-- One stage of the entry in hand. -/
def State.appendStage (s : State) (eng : Nat) (r : Run) : State :=
  let die := engDie eng
  let unit := engInst eng
  let x := s.appendEntry r.body r.cur.next
  let bad := fun (t : State) => (t.count (rKvaCtrBADENTRIES die unit) 1).appendDone eng r x.region 0x11 0
  if !s.kvExists x.region then bad s
  else if s.badRange (s.kvAt x.region) 64 then s.memFaultRun eng 6
  else
    let u := s.kvUse x.region
    if u.lock ≠ some eng then
      (if u.waiters.contains eng then s else s.setKv x.region { u with waiters := u.waiters ++ [eng] })
    else
      let k := s.kvDesc x.region
      if appendBad k u.top x then bad s
      else
        let evicted := listGet 0 r.aux 1
        if r.aux = [] ∧ (s.freeSlots k).length < x.count then s.setKv x.region { u with evicting := true }
        else
          let f := if r.aux = [] then s.foldMasses eng k else (s, 0)
          if f.2 ≠ 0 then f.1.memFaultRun eng f.2
          else
            let sf := (Fmt.ofCode (s.ld 1 (r.body + 4) % 16)).getD .fp32
            let w := (indexed ((f.1.freeSlots k).take x.count)).foldl (fun (a : State × Nat) ts =>
              if a.2 ≠ 0 then a else a.1.writeToken eng k sf x ts.1 ts.2) (f.1, 0)
            if w.2 ≠ 0 then w.1.memFaultRun eng w.2
            else
              match w.1.kvUpdate eng x.region k with
              | (t, 0) =>
                ((t.setKv x.region { t.kvUse x.region with top := x.first + x.count }).count (rKvaCtrTOKENS die unit)
                  x.count).appendDone eng r x.region 0 evicted
              | (t, code) => t.memFaultRun eng code

/-- KV_APPEND (R160, R161): the packet starts, or its entry in hand is taken a stage further. -/
def execKvAppend (die unit : Nat) (s : State) : Answer :=
  answer s (
    let eng := engineId 7 die unit
    match s.run eng with
    | none => if isEngine eng then s.appendBegin eng else s
    | some r => if s.goes eng 8 then s.appendStage eng r else s)

/-- KV_REGION_LOCK (R164): a free region goes to the unit that asked first; it waited `cycles` ECLK cycles for another's
lock. -/
def execKvRegionLock (region cycles : Nat) (s : State) : Answer :=
  answerNoMem s (
    let u := s.kvUse region
    match u.lock, u.waiters with
    | none, w :: ws =>
      (s.setKv region { u with lock := some w, waiters := ws }).count (rKvaCtrLOCKWAITCYCLES (engDie w) (engInst w)) cycles
    | _, _ => s)

/-- KV_EVICT (R160, R162, R164): no attend item reads the region; the masses are folded and victims evicted until the
append in hand has the slots it needs. It waited `cycles` ECLK cycles for the readers. -/
def execKvEvict (die unit cycles : Nat) (s : State) : Answer :=
  answer s (
    let eng := engineId 7 die unit
    match s.run eng with
    | none => s
    | some r =>
      if !s.goes eng 8 then s
      else
        let x := s.appendEntry r.body r.cur.next
        let u := s.kvUse x.region
        if u.lock ≠ some eng ∨ !u.evicting ∨ u.readers ≠ [] then s
        else
          let k := s.kvDesc x.region
          let f := s.foldMasses eng k
          if f.2 ≠ 0 then f.1.memFaultRun eng f.2
          else
            let v := f.1.evictFor eng k (x.first + x.count - 1) x.count k.capacity 0
            let t := (v.1.count (rKvaCtrEVICTED die unit) v.2.1).count (rKvaCtrEVICTWAITCYCLES die unit) cycles
            if v.2.2 ≠ 0 then t.memFaultRun eng v.2.2 else t.setRun eng { r with aux := [1, v.2.1] })

end Sys2Proof.Machine
end

