-- ==== Sys2Proof/Machine/Conv.lean ====
section
/-!
DEFINITION. Machine/Conv.lean: convolution packets (R168 to R178): geometry, gathered operands, skipped taps, and the
tiles of an item. The first command starts the packet; later ones begin an item or feed its next tile (log 1), which then
drains by TILE_DRAIN.
-/

namespace Sys2Proof.Machine

/-! ## Geometry (R170, R172, R173) -/

/-- One axis record (R170). -/
structure Axis where
  i : Nat
  k : Nat
  s : Nat
  dil : Nat
  lo : Nat
  hi : Nat
  mode : Nat
  deriving DecidableEq, Repr

def State.axisAt (s : State) (a ext : Nat) : Axis :=
  { i := ext, k := s.ld 1 (a + 4), s := s.ld 1 (a + 5), dil := s.ld 1 (a + 6), lo := s.ld 1 (a + 7), hi := s.ld 1 (a + 8),
    mode := s.ld 1 (a + 9) }

/-- The output extent of an axis (R172); 0 where it is not positive. -/
def Axis.out (a : Axis) : Nat :=
  (((a.i : Int) + a.lo + a.hi - a.dil * ((a.k : Int) - 1) - 1) / (a.s : Int) + 1).toNat

def Axis.padded (a : Axis) : Nat := a.i + a.lo + a.hi

/-- resolve of R173: the input coordinate that a coordinate resolves to. -/
def resolve (p : Int) (i mode : Nat) : Option Nat :=
  if 0 ≤ p ∧ p < (i : Int) then some p.toNat
  else match mode with
    | 1 => some (if p < 0 then 0 else i - 1)
    | 2 =>
      if i = 1 then some 0
      else
        let r := (p % (2 * ((i : Int) - 1))).toNat
        some (if r < i then r else 2 * (i - 1) - r)
    | 3 => some (p % (i : Int)).toNat
    | _ => none

/-- Input coordinate of output index q through tap κ (R173). -/
def Axis.reach (a : Axis) (q κ : Nat) : Option Nat := resolve ((q * a.s : Nat) - (a.lo : Int) + (κ * a.dil : Nat)) a.i a.mode

/-- The output index that uses an input coordinate through tap κ (R173, OP 1). -/
def Axis.usedBy (a : Axis) (p : Int) (κ : Nat) : Option Nat :=
  let x := p + a.lo - (κ * a.dil : Nat)
  if x % (a.s : Int) = 0 ∧ 0 ≤ x ∧ x / (a.s : Int) < (a.out : Int) then some (x / (a.s : Int)).toNat else none

/-- The three axes of a geometry descriptor, with the extents in force. -/
structure Geo where
  t : Axis
  h : Axis
  w : Axis
  deriving DecidableEq, Repr

def State.geoAt (s : State) (r : Run) (a : Nat) : Geo :=
  { t := s.axisAt a (r.dim 1 (s.ld 4 a)), h := s.axisAt (a + 0x0C) (r.dim 2 (s.ld 4 (a + 0x0C))),
    w := s.axisAt (a + 0x18) (r.dim 3 (s.ld 4 (a + 0x18))) }

def Geo.taps (g : Geo) : Nat := g.t.k * g.h.k * g.w.k
/-- Tap number to (kt, ky, kx), ascending. -/
def Geo.tap (g : Geo) (n : Nat) : Nat × Nat × Nat := (n / (g.h.k * g.w.k), n / g.w.k % g.h.k, n % g.w.k)
/-- Output positions per sample; 0 when the output is empty on any axis. -/
def Geo.outPos (g : Geo) : Nat := g.t.out * g.h.out * g.w.out
def Geo.inPos (g : Geo) : Nat := g.t.i * g.h.i * g.w.i
def Geo.padPos (g : Geo) : Nat := g.t.padded * g.h.padded * g.w.padded
/-- A flat position in extents to (n, t, y, x). -/
def posOf (et eh ew p : Nat) : Nat × Nat × Nat × Nat := (p / (et * eh * ew), p / (eh * ew) % et, p / ew % eh, p % ew)
def flatOf (et eh ew n t y x : Nat) : Nat := ((n * et + t) * eh + y) * ew + x

/-- The input position that an output position reaches through a tap (R173). -/
def Geo.reach (g : Geo) (q tap : Nat) : Option Nat :=
  let p := posOf g.t.out g.h.out g.w.out q
  let k := g.tap tap
  match g.t.reach p.2.1 k.1, g.h.reach p.2.2.1 k.2.1, g.w.reach p.2.2.2 k.2.2 with
  | some t, some y, some x => some (flatOf g.t.i g.h.i g.w.i p.1 t y x)
  | _, _, _ => none

/-! ## The packet -/

/-- The convolution header (R169), with its geometry. -/
structure Conv where
  fmtA : Fmt
  fmtB : Fmt
  a16 : Bool
  claim : Bool
  op : Nat
  steps : Nat
  ndim : Nat
  groups : Nat
  share : Nat
  units : Nat
  gm : Nat
  gn : Nat
  batch : Nat
  cin : Nat
  cout : Nat
  obSize : Nat
  first : Nat
  step : Nat
  tau : Int
  hb4 : Bool
  geo : Geo
  x : Nat
  w : Nat
  y : Nat
  deriving DecidableEq, Repr

def State.convOf (s : State) (r : Run) : Conv :=
  let b := r.body
  let m := s.ld 1 (b + 1)
  let fa := (Fmt.ofCode (s.ld 1 b % 16)).getD .bf16
  let fb := (Fmt.ofCode (s.ld 1 b / 16)).getD .bf16
  { fmtA := fa, fmtB := fb, a16 := bitOf m 0, claim := bitOf m 3 && r.replayOf.isNone, op := bitsOf m 5 4, steps := s.ld 1 (b + 2),
    ndim := s.ld 1 (b + 3), groups := s.ld 2 (b + 4), share := s.ld 1 (b + 6), units := s.ld 1 (b + 8),
    gm := s.ld 1 (b + 0x0B) % 16, gn := s.ld 1 (b + 0x0B) / 16, batch := r.dim 0 (s.ld 4 (b + 0x0C)),
    cin := s.ld 4 (b + 0x10), cout := s.ld 4 (b + 0x14), obSize := s.ld 2 (b + 0x1A), first := if r.replayOf.isSome then 0 else s.ld 4 (b + 0x1C),
    step := if r.replayOf.isSome then 1 else s.ld 4 (b + 0x20),
    tau := (if fa = .hb4 then signedOf 8 (s.ld 1 (b + 0x24)) else 0) + (if fb = .hb4 then signedOf 8 (s.ld 1 (b + 0x28)) else 0),
    hb4 := fa == .hb4 || fb == .hb4, geo := s.geoAt r (b + 64), x := s.ld 6 (b + 64 + 0x24), w := s.ld 6 (b + 64 + 0x2C),
    y := s.ld 6 (b + 64 + 0x34) }

def Conv.cinG (c : Conv) : Nat := c.cin / c.groups
def Conv.coutG (c : Conv) : Nat := c.cout / c.groups
/-- Whether OP 1 computes a padded gradient (R175). -/
def Conv.padMode (c : Conv) : Bool := c.geo.t.mode != 0 || c.geo.h.mode != 0 || c.geo.w.mode != 0
/-- Rows, columns and output positions of one group's product (R172). -/
def Conv.m (c : Conv) : Nat :=
  match c.op with
  | 0 => c.batch * c.geo.outPos
  | 1 => c.batch * (if c.padMode then c.geo.padPos else c.geo.inPos)
  | _ => c.coutG
def Conv.n (c : Conv) : Nat :=
  match c.op with
  | 0 => c.coutG
  | 1 => c.cinG
  | _ => c.geo.taps * c.cinG
def Conv.positions (c : Conv) : Nat := c.batch * c.geo.outPos
/-- Channels summed per tap. -/
def Conv.perTap (c : Conv) : Nat := if c.op = 0 then c.cinG else c.coutG
def Conv.mGroups (c : Conv) : Nat := ceilDiv (ceilDiv c.m 128) c.gm
def Conv.nTiles (c : Conv) : Nat := ceilDiv c.n 128
def Conv.nGroups (c : Conv) : Nat := if c.gn = 0 then 1 else ceilDiv c.nTiles c.gn
def Conv.items (c : Conv) : Nat := c.groups * c.mGroups * c.nGroups
def Conv.capacity (c : Conv) : Nat := c.share + (if c.a16 then c.units else c.units / 2)
def Conv.unit (c : Conv) : Nat := pairUnit c.fmtA c.fmtB
def Conv.width (c : Conv) : Nat := (pairWidth c.fmtA c.fmtB c.a16).getD 1

/-- Tiles of an item: group, and (mt, nt) within the group. -/
def Conv.tiles (c : Conv) (i : Nat) : Nat × List (Nat × Nat) :=
  let per := c.mGroups * c.nGroups
  let r := i % per
  let mg := r / c.nGroups
  let ng := r % c.nGroups
  let nts := if c.gn = 0 then List.range c.nTiles
    else ((List.range c.gn).map (fun j => ng * c.gn + j)).filter (fun t => decide (t < c.nTiles))
  let mts := ((List.range c.gm).map (fun j => mg * c.gm + j)).filter (fun t => decide (128 * t < c.m))
  (i / per, mts.flatMap (fun a => nts.map (fun b => (a, b))))

/-! ## Tensors (R171) -/

/-- A tensor with channels innermost: base, elements, format. -/
structure Tensor where
  base : Nat
  elems : Nat
  fmt : Fmt
  deriving DecidableEq, Repr

def Tensor.scales (t : Tensor) : Nat := alignUp (t.base + t.fmt.elemBytes t.elems) 256

/-- Ranges that `n` elements from element `e` are read from. -/
def Tensor.ranges (t : Tensor) (e n : Nat) : List (Nat × Nat) :=
  (t.base + e * t.fmt.elemBits / 8, t.fmt.elemBytes n) ::
    (if t.fmt.scaled then [(t.scales + e / t.fmt.block * t.fmt.scaleBytes, ceilDiv n t.fmt.block * t.fmt.scaleBytes)] else [])

/-- `n` elements from element `e`: element bits, scales, fault code. -/
def State.tensorRow (s : State) (t : Tensor) (e n : Nat) : (List Nat × List Nat) × Nat :=
  let f := t.fmt
  let es := s.load (t.base + e * f.elemBits / 8) (f.elemBytes n)
  let ss : Rd := if f.scaled then s.load (t.scales + e / f.block * f.scaleBytes) (ceilDiv n f.block * f.scaleBytes) else .ok []
  match es, ss with
  | .ok a, .ok b => ((unpackElems f.elemBits n a,
      (List.range (if f.scaled then ceilDiv n f.block else 0)).map (fun i => leNat ((b.drop (i * f.scaleBytes)).take f.scaleBytes))), 0)
  | .fault c, _ => (([], []), c)
  | _, .fault c => (([], []), c)

def Conv.xT (c : Conv) : Tensor :=
  { base := c.x, elems := c.batch * c.geo.inPos * c.cin, fmt := if c.op = 2 then c.fmtB else c.fmtA }
def Conv.wT (c : Conv) : Tensor := { base := c.w, elems := c.cout * c.geo.taps * c.cinG, fmt := c.fmtB }
def Conv.dyT (c : Conv) : Tensor := { base := c.y, elems := c.positions * c.cout, fmt := c.fmtA }

/-- The position that row `r` of A takes its data from through a tap, for OP 0 and OP 1 (R173, R175). -/
def Conv.source (c : Conv) (r tap : Nat) : Option Nat :=
  let g := c.geo
  if c.op = 0 then g.reach r tap
  else
    let k := g.tap tap
    let use := fun (n : Nat) (pt py px : Int) => match g.t.usedBy pt k.1, g.h.usedBy py k.2.1, g.w.usedBy px k.2.2 with
      | some t, some y, some x => some (flatOf g.t.out g.h.out g.w.out n t y x)
      | _, _, _ => none
    if c.padMode then
      let p := posOf g.t.padded g.h.padded g.w.padded r
      use p.1 ((p.2.1 : Int) - g.t.lo) ((p.2.2.1 : Int) - g.h.lo) ((p.2.2.2 : Int) - g.w.lo)
    else
      let p := posOf g.t.i g.h.i g.w.i r
      use p.1 p.2.1 p.2.2.1 p.2.2.2

/-- Element at which row `r`'s channels of a tap begin in A. -/
def Conv.aElem (c : Conv) (g pos : Nat) : Nat := if c.op = 0 then pos * c.cin + g * c.cinG else pos * c.cout + g * c.coutG

/-- Taps of a tile that some valid row uses (R174). -/
def Conv.usedTaps (c : Conv) (mt : Nat) : List Nat :=
  let rows := (List.range (validIn c.m mt)).map (fun i => 128 * mt + i)
  (List.range c.geo.taps).filter (fun t => rows.any (fun r => (c.source r t).isSome))

/-! ## Operand rows (R172 to R174, R178) -/

/-- A row re-blocked along k when the format is block-scaled, or as it is (R132, R133), from element bits with their source
scales, none where no element is read: bits and scales, and how many elements saturated. -/
def acrossRow (f : Fmt) (xs : List (Nat × Option Nat)) : RowBits × Nat :=
  if f.scaled then
    let b := reblockRow f (xs.map (fun x => match x.2 with | some sc => dequant f sc x.1 | none => Fp.zero))
    ((b.1, b.2.1), b.2.2)
  else ((xs.map (fun x => if x.2.isSome then x.1 else 0), []), 0)

/-- Elements of such a row that REBLOCK_RANGE counts (R143). -/
def acrossRange (f : Fmt) (xs : List (Nat × Option Nat)) : Nat :=
  if f.scaled then (xs.filter (fun x => match x.2 with | some sc => dequantRange f sc x.1 | none => false)).length else 0

/-- Channels, or positions, of one chunk, and a region's bytes (R99, R178). -/
def Conv.chunk (c : Conv) : Nat := if c.op = 2 then 256 else if c.perTap < 256 then c.perTap else 256
def Conv.region (c : Conv) (f : Fmt) : Nat := footprint128 f c.chunk

/-- A chunk of a tile (R178): its tap, its first channel or position, and how many. -/
structure Piece where
  tap : Nat
  first : Nat
  len : Nat
  deriving DecidableEq, Repr

/-- The chunks of the tiles of an M tile, in order of summation: one unskipped tap and at most 256 channels each, or in OP 2
256 positions. -/
def Conv.pieces (c : Conv) (mt : Nat) : List Piece :=
  let cut := fun (tap n : Nat) => (List.range (ceilDiv n c.chunk)).map (fun q =>
    (⟨tap, c.chunk * q, capAt c.chunk (n - c.chunk * q)⟩ : Piece))
  if c.op = 2 then cut 0 c.positions else (c.usedTaps mt).flatMap (fun tap => cut tap c.perTap)

/-- K of a chunk: OP 2 fills its last to a multiple of 32 (R172). -/
def Conv.lenOf (c : Conv) (p : Piece) : Nat := if c.op = 2 then alignUp p.len 32 else p.len

/-- One operand of a chunk: its valid rows, a fault code, the rows gathered as zeros, and, when it came through the
transposing buffer, how many elements saturated and how many REBLOCK_RANGE counts. -/
structure Part where
  rows : List RowBits := []
  fault : Nat := 0
  zeros : Nat := 0
  saturated : Nat := 0
  range : Nat := 0
  deriving DecidableEq, Repr

/-- Rows read as they lie. -/
def Part.direct (zeros : Nat) (l : List (RowBits × Nat)) : Part :=
  { rows := l.map (fun x => x.1), fault := firstFault (l.map (fun x => x.2)), zeros := zeros }

/-- Rows formed by the transposing buffer, filled to `n` elements. -/
def Part.across (f : Fmt) (n zeros : Nat) (l : List (List ((Nat × Option Nat) × Nat))) : Part :=
  let rows := l.map (fun r => r.map (fun x => x.1) ++ List.replicate (n - r.length) (0, none))
  let out := rows.map (acrossRow f)
  { rows := out.map (fun x => x.1), fault := firstFault (l.map (fun r => firstFault (r.map (fun x => x.2)))), zeros := zeros,
    saturated := out.foldl (fun n x => n + x.2) 0, range := rows.foldl (fun n r => n + acrossRange f r) 0 }

/-- One element of a tensor with its source scale; a fault code. -/
def State.elemOf (s : State) (t : Tensor) (e : Nat) : (Nat × Option Nat) × Nat :=
  let f := t.fmt
  let r := s.tensorRow t (e / f.block * f.block) f.block
  ((listGet 0 r.1.1 (e % f.block), some (r.1.2.headD 0)), r.2)

/-- The A operand of a chunk (R172): gathered rows, or in OP 2 dY transposed. -/
def State.convA (s : State) (c : Conv) (g mt : Nat) (p : Piece) : Part :=
  let rows := List.range (validIn c.m mt)
  if c.op = 2 then
    Part.across c.fmtA (c.lenOf p) 0 (rows.map (fun i => (List.range p.len).map (fun n =>
      s.elemOf c.dyT ((p.first + n) * c.cout + g * c.coutG + 128 * mt + i))))
  else
    let f := c.fmtA
    let zero : RowBits := (List.replicate p.len 0, List.replicate (if f.scaled then p.len / f.block else 0) 0)
    Part.direct ((rows.filter (fun i => (c.source (128 * mt + i) p.tap).isNone)).length) (rows.map (fun i =>
      match c.source (128 * mt + i) p.tap with
      | some pos => s.tensorRow (if c.op = 0 then c.xT else c.dyT) (c.aElem g pos + p.first) p.len
      | none => (zero, 0)))

/-- A tap of OP 2 that no output position reaches: its columns are not fed (R174). -/
def Conv.deadTap (c : Conv) (tap : Nat) : Bool := (List.range c.positions).all (fun p => (c.geo.reach p tap).isNone)

/-- Taps that columns of an N tile of OP 2 lie in. -/
def Conv.colTaps (c : Conv) (nt : Nat) : List Nat := ((List.range (validIn c.n nt)).map (fun j => (128 * nt + j) / c.cinG)).eraseDups

/-- The B operand of a chunk (R172): W as stored; W through the transposing buffer; or X gathered transposed. -/
def State.convB (s : State) (c : Conv) (g nt : Nat) (p : Piece) : Part :=
  let rows := (List.range (validIn c.n nt)).map (fun j => 128 * nt + j)
  match c.op with
  | 0 => Part.direct 0 (rows.map (fun o => s.tensorRow c.wT (((g * c.coutG + o) * c.geo.taps + p.tap) * c.cinG + p.first) p.len))
  | 1 => Part.across c.fmtB p.len 0 (rows.map (fun ci => (List.range p.len).map (fun o =>
      s.elemOf c.wT (((g * c.coutG + p.first + o) * c.geo.taps + p.tap) * c.cinG + ci))))
  | _ =>
    let none' := fun (t : Nat) => ((List.range p.len).filter (fun n => (c.geo.reach (p.first + n) t).isNone)).length
    Part.across c.fmtB (c.lenOf p) (((c.colTaps nt).filter (fun t => !c.deadTap t)).foldl (fun n t => n + none' t) 0)
      (rows.map (fun col => (List.range p.len).map (fun n => match c.geo.reach (p.first + n) (col / c.cinG) with
        | some q => s.elemOf c.xT (q * c.cin + g * c.cinG + col % c.cinG)
        | none => ((0, none), 0))))

/-- The context in which a tile drains (R177). -/
def State.convCtx (s : State) (e : Nat) (r : Run) (c : Conv) (g mt nt nCount : Nat) (place : Place) : DrainCtx :=
  { engine := e, pid := r.pid, chain := s.chainAt (r.body + 128) c.steps, a16 := c.a16, hb4 := c.hb4, tau := c.tau,
    cBase := match c.op with | 0 => c.y | 1 => c.x | _ => c.w,
    ldc := match c.op with | 0 => c.cout | 1 => c.cin | _ => c.geo.taps * c.cinG,
    planeRows := if c.op = 2 then c.cout else c.m,
    row0 := (if c.op = 2 then g * c.coutG else 0) + 128 * mt, stat0 := (if c.op = 2 then g * c.coutG else 0) + 128 * mt,
    col0 := (match c.op with | 0 => g * c.coutG | 1 => g * c.cinG | _ => 0) + 128 * nt,
    nTiles := c.groups * c.nTiles, nt := g * c.nTiles + nt, nCount := nCount, rows := validIn c.m mt, cols := validIn c.n nt,
    obBase := s.ld 2 (r.body + 0x18) * 256, rngStream := r.rngStream, genBase := r.genBase, seed := r.bind.job.field 0x10 8,
    place := place, replayOf := r.replayOf }

/-- Ranges the operands of an item's tile are read from (R108): A of an M tile, and B of an N tile over some taps. -/
def Conv.readsA (c : Conv) (g mt : Nat) : List (Nat × Nat) :=
  if c.op = 2 then
    (List.range c.positions).flatMap (fun p => c.dyT.ranges (p * c.cout + g * c.coutG + 128 * mt) (validIn c.m mt))
  else
    (c.usedTaps mt).flatMap (fun tap => (List.range (validIn c.m mt)).flatMap (fun i => match c.source (128 * mt + i) tap with
      | some p => (if c.op = 0 then c.xT else c.dyT).ranges (c.aElem g p) c.perTap
      | none => []))
def Conv.readsB (c : Conv) (g nt : Nat) (taps : List Nat) : List (Nat × Nat) :=
  match c.op with
  | 0 => taps.flatMap (fun tap => (List.range (validIn c.n nt)).flatMap (fun j =>
      c.wT.ranges (((g * c.coutG + 128 * nt + j) * c.geo.taps + tap) * c.cinG) c.cinG))
  | 1 => taps.flatMap (fun tap => (List.range c.coutG).flatMap (fun o =>
      c.wT.ranges (((g * c.coutG + o) * c.geo.taps + tap) * c.cinG + 128 * nt) (validIn c.n nt)))
  | _ => (List.range c.geo.taps).flatMap (fun t =>
      -- the columns of the tile that lie in the tap
      let lo := 128 * nt - t * c.cinG
      let n := capAt c.cinG (128 * nt + validIn c.n nt - t * c.cinG) - lo
      if n = 0 then []
      else (List.range c.positions).flatMap (fun p => match c.geo.reach p t with
        | some q => c.xT.ranges (q * c.cin + g * c.cinG + lo) n
        | none => []))

/-! ## Items -/

/-- A tile of an item: its group, its place within the group and within the item (R91), how many N and M tiles the item has,
and the taps that earlier M tiles of the item have loaded. -/
structure ConvTile where
  g : Nat
  mt : Nat
  nt : Nat
  gi : Nat
  gj : Nat
  nCount : Nat
  mCount : Nat
  old : List Nat
  deriving DecidableEq, Repr

def Conv.tileAt (c : Conv) (i n : Nat) : Option ConvTile :=
  let t := c.tiles i
  (t.2[n]?).map (fun x =>
    let mts := (t.2.map (fun y => y.1)).eraseDups
    { g := t.1, mt := x.1, nt := x.2, gi := x.1 % c.gm, gj := if c.gn = 0 then x.2 else x.2 % c.gn,
      nCount := (t.2.map (fun y => y.2)).eraseDups.length, mCount := mts.length,
      old := (mts.filter (fun m => decide (m < x.1))).flatMap c.usedTaps })

/-- Every tile of an item. -/
def Conv.itemTiles (c : Conv) (i : Nat) : List ConvTile := (List.range (c.tiles i).2.length).filterMap (c.tileAt i)

def ConvTile.place (x : ConvTile) (i chunk : Nat) : Place := { item := i, gi := x.gi, gj := x.gj, chunk := chunk }

/-- The checks when an item begins (R108): a fault code, 0 for none, and the place it is found at. With more tiles than the
capacity, all tiles are open at once, and the first that finds no place faults before any has been fed whole. -/
def State.convCheck (s : State) (e : Nat) (r : Run) (c : Conv) (i : Nat) : Nat × Place :=
  let ts := c.itemTiles i
  let bad := ts.find? (fun x =>
    !(s.chainOk (s.convCtx e r c x.g x.mt x.nt x.nCount {}) &&
      (c.readsA x.g x.mt ++ c.readsB x.g x.nt (c.usedTaps x.mt)).all (fun p => s.mayTouch p.1 p.2 false)))
  match bad, ts with
  | some _, _ => (1, { item := i })
  | none, [] => (0, {})
  | none, x :: _ =>
    if c.obSize * 256 < 2 * (x.mCount * c.region c.fmtA + x.nCount * c.region c.fmtB) then (4, { item := i })
    else match ts[c.capacity]? with
      | some y => (3, y.place i 0)
      | none => (0, {})

/-- The operands of a tile, chunk by chunk, up to the first fault: the chunks read, and the fault's code and chunk. -/
def State.convParts (s : State) (c : Conv) (x : ConvTile) : Nat → List Piece → List (Piece × Part × Part) → List (Piece × Part × Part) × Nat × Nat
  | _, [], acc => (acc.reverse, 0, 0)
  | j, p :: ps, acc =>
    let a := s.convA c x.g x.mt p
    let b := s.convB c x.g x.nt p
    match firstFault [a.fault, b.fault] with
    | 0 => State.convParts s c x (j + 1) ps ((p, a, b) :: acc)
    | code => (acc.reverse, code, j)

/-- A tile's values (R172, R174): its chunks fed in order of k. Columns of a skipped tap of OP 2 stay +0. -/
def Conv.tileVals (c : Conv) (x : ConvTile) (l : List (Piece × Part × Part)) : List (List W32) :=
  let rows := fun (f : Fmt) (n : Nat) (p : Part) => p.rows.map (fun r => operandRow f c.unit n r.1 r.2)
  let v := l.foldl (fun v q => tileFeed c.a16 v (rows c.fmtA (c.lenOf q.1) q.2.1) (rows c.fmtB (c.lenOf q.1) q.2.2))
    (List.replicate (validIn c.m x.mt) (List.replicate (validIn c.n x.nt) 0#32))
  if c.op = 2 then v.map (fun row => (indexed row).map (fun jv => if c.deadTap ((128 * x.nt + jv.1) / c.cinG) then 0#32 else jv.2))
  else v

/-- What the loads of a tile's chunks count (R143, R190): an operand that an earlier tile of the item has loaded is not loaded
again (R178). -/
def State.convCount (s : State) (die core : Nat) (c : Conv) (x : ConvTile) (l : List (Piece × Part × Part)) : State :=
  l.foldl (fun (t : State) q =>
    let newA := x.gj == 0
    let newB := if c.op = 2 then x.gi == 0 else !x.old.contains q.1.tap
    let kj := c.lenOf q.1
    let t := if newA then t.count (rCoreCtrCONVZEROROWS die core) q.2.1.zeros else t
    let t := if newB then t.count (rCoreCtrCONVZEROROWS die core) q.2.2.zeros else t
    let t := if newA && c.op == 2 then t.countAcross die core ⟨c.fmtA, kj, true, q.2.1.saturated, q.2.1.range⟩ else t
    if newB && c.op != 0 then t.countAcross die core ⟨c.fmtB, kj, true, q.2.2.saturated, q.2.2.range⟩ else t) s

/-- The operand regions of a tile's chunks (R99, R178): two sets of group_m + group_n regions by turns. -/
def Core.convBuffer (g : Core) (c : Conv) (base : Nat) (x : ConvTile) (l : List (Piece × Part × Part)) : Core :=
  let ra := c.region c.fmtA
  let rb := c.region c.fmtB
  (indexed l).foldl (fun (g : Core) jq =>
    let at' := base + jq.1 % 2 * (x.mCount * ra + x.nCount * rb)
    (g.putRows (at' + x.gi * ra) ra c.fmtA c.chunk jq.2.2.1.rows).putRows (at' + x.mCount * ra + x.gj * rb) rb c.fmtB c.chunk
      jq.2.2.2.rows) g

/-- The tile of the item in hand that comes next is fed, and drains (R172 to R177, R140). Its feed needs the feeder, where it
has slices, and a register set; cycles a ready tile of the other stream waits are the slices it feeds (log 72). -/
def State.convFeed (s : State) (die core st : Nat) (r : Run) (i : Nat) : State :=
  let e := streamEngine die core st
  let k := coreKey die core
  let c := s.convOf r
  let g := s.core k
  match c.tileAt i r.cur.pc, g.tiles.find? (fun t => t.stream == st && t.set.isSome) with
  | some x, some t =>
    let pieces := c.pieces x.mt
    if !pieces.isEmpty && !g.feeds st then s
    else
      let got := s.convParts c x 0 pieces []
      if got.2.1 ≠ 0 then s.faultIn e got.2.1 (x.place i got.2.2)
      else
        let ctx := s.convCtx e r c x.g x.mt x.nt x.nCount (x.place i (pieces.length - 1))
        let tile : Tile := { t with ctx := ctx, vals := c.tileVals x got.1 }
        let slices := pieces.foldl (fun n p => n + c.lenOf p / c.width) 0
        let skipped := if c.op = 2 then ((c.colTaps x.nt).filter c.deadTap).length else c.geo.taps - (c.usedTaps x.mt).length
        let reads := (if x.gj = 0 then c.readsA x.g x.mt else []) ++
          c.readsB x.g x.nt ((c.usedTaps x.mt).filter (fun tap => !x.old.contains tap))
        let s := (s.noteReads reads).countWait die core st slices
        let s := s.modCore k (fun q => (q.convBuffer c ctx.obBase x got.1).fedTile tile (t.set.getD 0) true false)
        let s := ((s.convCount die core c x got.1).count (rCoreCtrSLICES die core) slices).count (rCoreCtrCONVTAPSSKIPPED die core) skipped
        let r := { r with executed := r.executed + 1, recGi := x.gi, recGj := x.gj, recChunk := pieces.length - 1,
                          cur := { r.cur with pc := r.cur.pc + 1, needClaim := r.cur.needClaim ||
                            (c.claim && !r.cur.claimsEnded && r.cur.pc + 2 == (c.tiles i).2.length) } }
        s.setRun e (if r.cur.pc < (c.tiles i).2.length then r else r.endItem (if c.claim then 0 else c.step))
  | _, _ => s

/-- What a convolution packet's start answers (R176): a fault code, or 0; and the run. -/
def State.convStart (s : State) (r : Run) (die core : Nat) : Nat × Run :=
  let c := s.convOf r
  let g := c.geo
  if s.coreFenced die core then (0x0A, r)
  else if r.spareWords 4 ∨ 16777215 < g.t.i ∨ 16777215 < g.h.i ∨ 16777215 < g.w.i ∨ 2 ^ 32 ≤ c.items ∨ (c.ndim = 2 ∧ g.t.i ≠ 1) then
    (1, r)
  else if c.batch = 0 ∨ (g.outPos = 0 ∧ c.op = 0) then (0, { r with status := 1, retired := true })
  else if g.outPos = 0 then (0, (r.beginItems c.items c.first c.claim).withStatus 1)
  else (0, r.beginItems c.items c.first c.claim)

/-- A convolution packet starts (R176). -/
def State.convBegin (s : State) (e die core : Nat) : State :=
  let s := s.startPacket e 3
  match s.run e with
  | none => s
  | some r =>
    if r.kind ≠ 3 ∨ r.stopped then s
    else match s.convStart r die core with
      | (0, r') => s.setRun e r'
      | (code, _) => s.faultRun e code

/-- The packet's next item begins (R104, R108). -/
def State.convItemBegin (s : State) (e : Nat) (r : Run) (i : Nat) : State :=
  let c := s.convOf r
  let due := c.claim && !r.cur.claimsEnded && (c.tiles i).2.length == 1
  let r := { r with cur := { r.cur with item := some i, claimed := none, pc := 0, needClaim := due } }
  match s.convCheck e r c i with
  | (0, _) => s.setRun e r
  | (code, p) => (s.setRun e r).faultIn e code p

/-- The packet takes its next stage: its next item begins, or the next tile of the item in hand is fed. -/
def State.convStage (s : State) (die core st : Nat) (r : Run) : State :=
  match r.cur.item with
  | some i => s.convFeed die core st r i
  | none => match r.nextItem (s.convOf r).claim with
    | none => s
    | some i => s.convItemBegin (streamEngine die core st) r i

/-- The OP of a convolution body. -/
def State.convOp (s : State) (b : Nat) : Nat := bitsOf (s.ld 1 (b + 1)) 5 4

def State.convRow (s : State) (die core st op : Nat) : State :=
  let e := streamEngine die core st
  if 2 ≤ st then s
  else match s.run e with
    | none => if s.nextIs e 3 (fun b => s.convOp b == op) && s.holdFree die core st 3 then s.convBegin e die core else s
    | some r => if s.goes e 3 && s.convOp r.body == op then s.convStage die core st r else s

/-- CONV_FORWARD (R172 to R177). -/
def execConvForward (die c st : Nat) (s : State) : Answer := answer s (s.convRow die c st 0)
/-- CONV_INPUT_GRADIENT (R172 to R177). -/
def execConvInputGradient (die c st : Nat) (s : State) : Answer := answer s (s.convRow die c st 1)
/-- CONV_WEIGHT_GRADIENT (R172 to R177). -/
def execConvWeightGradient (die c st : Nat) (s : State) : Answer := answer s (s.convRow die c st 2)

end Sys2Proof.Machine
end

