-- ==== Sys2Proof/Machine/Winograd.lean ====
section
/-!
DEFINITION. Machine/Winograd.lean: transform packets of kind 6 on the Winograd transform units (R180 to R182). A command
carries out one row of the packet in hand; the first one starts it (log 1).
-/

namespace Sys2Proof.Machine

/-- Sites of `Config.addOrder`. -/
def siteWgInput : Nat := 0x100
def siteWgWeight : Nat := 0x200
def siteWgOutput : Nat := 0x300

/-- The header of R181, with the shape words in force (R176, R181). -/
structure Wtu where
  variant : Nat
  fmt : Fmt
  cvt : Nat
  act : Nat
  withBias : Bool
  batch : Nat
  cin : Nat
  cout : Nat
  tau : Int
  src : Nat
  dst : Nat
  bias : Nat
  part : Nat
  parts : Nat
  geo : Geo
  deriving DecidableEq, Repr

def State.wtuOf (s : State) (r : Run) : Wtu :=
  let b := r.body
  { variant := s.ld 1 (b + 1), fmt := (Fmt.ofCode (s.ld 1 (b + 2) % 16)).getD .bf16, cvt := s.ld 1 (b + 3),
    act := s.ld 1 (b + 4) % 16, withBias := bitOf (s.ld 1 (b + 5)) 0, batch := r.dim 0 (s.ld 4 (b + 8)), cin := s.ld 4 (b + 0xC),
    cout := s.ld 4 (b + 0x10), tau := signedOf 8 (s.ld 1 (b + 0x14)), src := s.ld 6 (b + 0x18), dst := s.ld 6 (b + 0x20),
    bias := s.ld 6 (b + 0x28), part := s.ld 2 (b + 0x30), parts := s.ld 2 (b + 0x32), geo := s.geoAt r (b + 64) }

/-- Output tile side m and patch side a (R180). -/
def Wtu.m (w : Wtu) : Nat := if w.variant = 2 then 4 else 2
def Wtu.a (w : Wtu) : Nat := w.m + 2
def Wtu.points (w : Wtu) : Nat := w.a * w.a
def Wtu.th (w : Wtu) : Nat := ceilDiv w.geo.h.out w.m
def Wtu.tw (w : Wtu) : Nat := ceilDiv w.geo.w.out w.m
def Wtu.frames (w : Wtu) : Nat := w.geo.t.padded
/-- An empty output (R172), or no sample (R182). -/
def Wtu.empty (w : Wtu) : Bool := w.batch == 0 || w.geo.outPos == 0

/-- The part of `total` numbered rows a packet processes (R181, R183): the first, and how many. -/
def partOf (total part parts : Nat) : Nat × Nat :=
  let p := if parts = 0 then 1 else parts
  (total * part / p, total * (part + 1) / p - total * part / p)

/-- A matrix of small rationals over one denominator: rows of numerators. -/
abbrev RatMat := Nat × List (List Int)

/-- The minimal filtering transforms for tiles of 2 and of 4 outputs (PRESUMED, log 40: the spec names them F(2×2,3×3)
and F(4×4,3×3) and prints no matrix). -/
def wgB (variant : Nat) : RatMat :=
  if variant = 2 then
    (1, [[4, 0, -5, 0, 1, 0], [0, -4, -4, 1, 1, 0], [0, 4, -4, -1, 1, 0], [0, -2, -1, 2, 1, 0], [0, 2, -1, -2, 1, 0],
      [0, 4, 0, -5, 0, 1]])
  else (1, [[1, 0, -1, 0], [0, 1, 1, 0], [0, -1, 1, 0], [0, 1, 0, -1]])
def wgG (variant : Nat) : RatMat :=
  if variant = 2 then
    (24, [[6, 0, 0], [-4, -4, -4], [-4, 4, -4], [1, 2, 4], [1, -2, 4], [0, 0, 24]])
  else (2, [[2, 0, 0], [1, 1, 1], [1, -1, 1], [0, 0, 2]])
def wgA (variant : Nat) : RatMat :=
  if variant = 2 then
    (1, [[1, 1, 1, 1, 1, 0], [0, 1, -1, 2, -2, 0], [0, 1, 1, 4, 4, 0], [0, 1, -1, 8, -8, 1]])
  else (1, [[1, 1, 1, 0], [0, 1, -1, -1]])

/-- Put a term into a list ordered by key. -/
def insertTerm (k : Nat) (x : W32) : List (Nat × W32) → List (Nat × W32)
  | [] => [(k, x)]
  | (j, y) :: t => if k < j then (k, x) :: (j, y) :: t else (j, y) :: insertTerm k x t

/-- Terms in the fixed order of a site that the spec does not name (`Config.addOrder`). -/
def ordered (site : Nat) (xs : List W32) : List W32 :=
  ((indexed xs).foldl (fun l ix => insertTerm (Config.addOrder site ix.1) ix.2 l) []).map (fun p => p.2)

/-- A sum of terms from the first on, one rounding per add; no term gives +0. -/
def sumFrom : List W32 → W32
  | [] => 0#32
  | x :: xs => xs.foldl f32Add x

/-- One result of a two-sided transform: element (i, j) of M·D·Mᵀ for a square D. Terms whose coefficient is 0 do not
take part; each product is rounded once, and so is each add (R182). -/
def wgPoint (site : Nat) (m : RatMat) (d : List (List W32)) (i j : Nat) : W32 :=
  let ri := listGet [] m.2 i
  let rj := listGet [] m.2 j
  let den := Fp.ofNat (m.1 * m.1)
  let terms := (indexed ri).flatMap (fun p => (indexed rj).filterMap (fun q =>
    let c := p.2 * q.2
    if c = 0 then none
    else some (toF32 (Fp.div (Fp.mul (Fp.ofInt c) (ofF32 (listGet 0#32 (listGet [] d p.1) q.1))) den))))
  sumFrom (ordered (site + i * 16 + j) terms)

/-- Values of a channel row of a tensor, or zeros: with a fault code. -/
def State.wtuRow (s : State) (f : Fmt) (tau : Int) (t : Tensor) (e n : Nat) : List W32 × Nat :=
  let r := s.tensorRow t e n
  ((indexed r.1.1).map (fun ix => toF32 (
    if f.scaled then decodeScaled f tau .first (listGet 0 r.1.2 (ix.1 / f.block)) ix.2 else decodePlain f ix.2)), r.2)

/-- A transformed row of channels as it is stored: rounded to BF16, then to the stored format (R182): element bytes and
scale bytes. -/
def Wtu.encode (w : Wtu) (xs : List W32) : List Byte × List Byte :=
  let b := xs.map (fun x => decodePlain .bf16 (convPlain .bf16 false .rne (ofF32 x)))
  if w.fmt.scaled then encodeBlocks w.fmt false w.tau .first (fun _ => .rne) b
  else (encodePlains w.fmt false (fun _ => .rne) b, [])

/-- Store a row of `n` channels at row index `row` of a tensor of `rows` rows. -/
def State.wtuStore (s : State) (e : Nat) (w : Wtu) (rows row n : Nat) (xs : List W32) : State × Nat :=
  let t : Tensor := { base := w.dst, elems := rows * n, fmt := w.fmt }
  let b := w.encode xs
  let a := s.put (some e) (w.dst + row * n * w.fmt.elemBits / 8) b.1
  let c := a.1.put (some e) (t.scales + row * n / w.fmt.block * w.fmt.scaleBytes) b.2
  (c.1, if a.2 ≠ 0 then a.2 else c.2)

/-- Rows one after another, until one ends with a fault code. -/
def untilFault (f : Nat → State → State × Nat) : List Nat → State → State × Nat
  | [], s => (s, 0)
  | i :: is, s =>
    let r := f i s
    if r.2 ≠ 0 then r else untilFault f is r.1

/-- The element of a patch row in X: none in zero padding (R173, R182). -/
def Wtu.inputRow (w : Wtu) (n t' ty tx i j : Nat) : Option Nat :=
  let g := w.geo
  match resolve ((t' : Int) - g.t.lo) g.t.i g.t.mode, resolve (((ty * w.m + i : Nat) : Int) - g.h.lo) g.h.i g.h.mode,
      resolve (((tx * w.m + j : Nat) : Int) - g.w.lo) g.w.i g.w.mode with
  | some t, some y, some x => some (flatOf g.t.i g.h.i g.w.i n t y x)
  | _, _, _ => none

/-- INPUT, one transformed tile (R181, R182). -/
def State.wgInput (s : State) (e : Nat) (w : Wtu) (k : Nat) : State × Nat :=
  let tx := k % w.tw
  let ty := k / w.tw % w.th
  let t' := k / (w.tw * w.th) % w.frames
  let n := k / (w.tw * w.th * w.frames)
  let x : Tensor := { base := w.src, elems := w.batch * w.geo.inPos * w.cin, fmt := w.fmt }
  let rows := (List.range w.a).map (fun i => (List.range w.a).map (fun j => match w.inputRow n t' ty tx i j with
    | some p => s.wtuRow w.fmt w.tau x (p * w.cin) w.cin
    | none => (List.replicate w.cin 0#32, 0)))
  let fault := firstFault (rows.map (fun r => firstFault (r.map (fun c => c.2))))
  if fault ≠ 0 then (s, fault)
  else
    let tiles := w.batch * w.frames * w.th * w.tw
    let out := untilFault (fun ξ u =>
      u.wtuStore e w (w.points * tiles) (ξ * tiles + k) w.cin ((List.range w.cin).map (fun ci =>
        wgPoint siteWgInput (wgB w.variant) (rows.map (fun r => r.map (fun c => listGet 0#32 c.1 ci))) (ξ / w.a) (ξ % w.a))))
      (List.range w.points) s
    let reads := (List.range w.a).flatMap (fun i => (List.range w.a).flatMap (fun j => match w.inputRow n t' ty tx i j with
      | some p => x.ranges (p * w.cin) w.cin
      | none => []))
    ((out.1.noteReads reads).count (rWtuCtrELEMENTS (engDie e) (engInst e)) (if out.2 = 0 then w.points * w.cin else 0), out.2)

/-- WEIGHT, one kernel (kt, o) over its channels (R181, R182). -/
def State.wgWeight (s : State) (e : Nat) (w : Wtu) (k : Nat) : State × Nat :=
  let o := k % w.cout
  let kt := k / w.cout
  let x : Tensor := { base := w.src, elems := w.cout * w.geo.t.k * 9 * w.cin, fmt := w.fmt }
  let rows := (List.range 3).map (fun i => (List.range 3).map (fun j =>
    s.wtuRow w.fmt w.tau x ((((o * w.geo.t.k + kt) * 3 + i) * 3 + j) * w.cin) w.cin))
  let fault := firstFault (rows.map (fun r => firstFault (r.map (fun c => c.2))))
  if fault ≠ 0 then (s, fault)
  else
    let per := w.geo.t.k * w.cout
    let out := untilFault (fun ξ u =>
      u.wtuStore e w (w.points * per) (ξ * per + k) w.cin ((List.range w.cin).map (fun ci =>
        wgPoint siteWgWeight (wgG w.variant) (rows.map (fun r => r.map (fun c => listGet 0#32 c.1 ci))) (ξ / w.a) (ξ % w.a))))
      (List.range w.points) s
    let reads := (List.range 9).flatMap (fun p => x.ranges (((o * w.geo.t.k + kt) * 9 + p) * w.cin) w.cin)
    ((out.1.noteReads reads).count (rWtuCtrELEMENTS (engDie e) (engInst e)) (if out.2 = 0 then w.points * w.cin else 0), out.2)

/-- OUTPUT, one output tile (R181, R182): inverse transform, bias, activation, conversion; only outputs inside O. -/
def State.wgOutput (s : State) (e : Nat) (w : Wtu) (k : Nat) : State × Nat :=
  let g := w.geo
  let tx := k % w.tw
  let ty := k / w.tw % w.th
  let nt := k / (w.tw * w.th)
  let tiles := w.batch * g.t.out * w.th * w.tw
  let t : Tensor := { base := w.src, elems := w.points * tiles * w.cout, fmt := .fp32 }
  let rows := (List.range w.a).map (fun i => (List.range w.a).map (fun j =>
    s.wtuRow .fp32 0 t (((i * w.a + j) * tiles + k) * w.cout) w.cout))
  let bias : List W32 × Nat := if w.withBias then
      match s.load w.bias (2 * w.cout) with
      | .ok bs => ((decodePlains .bf16 w.cout bs).map toF32, 0)
      | .fault c => ([], c)
    else ([], 0)
  let fault := firstFault (bias.2 :: rows.map (fun r => firstFault (r.map (fun c => c.2))))
  if fault ≠ 0 then (s, fault)
  else
    let cv := (Cvt.ofByte w.cvt).getD ⟨.fp32, false, false⟩
    let cells := (List.range (w.m * w.m)).filter (fun c =>
      decide (ty * w.m + c / w.m < g.h.out) && decide (tx * w.m + c % w.m < g.w.out))
    let out := untilFault (fun c u =>
      let vals := (List.range w.cout).map (fun o =>
        let v := wgPoint siteWgOutput (wgA w.variant) (rows.map (fun r => r.map (fun x => listGet 0#32 x.1 o))) (c / w.m) (c % w.m)
        ofF32 (actF w.act (if w.withBias then f32Add v (listGet 0#32 bias.1 o) else v)))
      let pos := (nt * g.h.out + ty * w.m + c / w.m) * g.w.out + tx * w.m + c % w.m
      u.put (some e) (w.dst + pos * w.cout * cv.fmt.elemBits / 8) (encodePlains cv.fmt cv.ovfNan (fun _ => .rne) vals))
      cells s
    let reads := (List.range w.points).flatMap (fun p => t.ranges ((p * tiles + k) * w.cout) w.cout) ++
      (if w.withBias then [(w.bias, 2 * w.cout)] else [])
    ((out.1.noteReads reads).count (rWtuCtrELEMENTS (engDie e) (engInst e)) (if out.2 = 0 then cells.length * w.cout else 0), out.2)

/-- The next row of a part, one instruction of the packet (R38, R183): the last retires it, and a fault stops it there. -/
def State.rowStep (s : State) (e : Nat) (part : Nat × Nat) (f : Nat → State → State × Nat) : State :=
  match s.run e with
  | none => s
  | some r =>
    if part.2 ≤ r.prog then s.retire e
    else
      let o := f (part.1 + r.prog) s
      if o.2 ≠ 0 then o.1.memFaultRun e o.2
      else o.1.modRun e (fun q => { q with
        prog := q.prog + 1, executed := q.executed + 1, retired := decide (part.2 ≤ q.prog + 1) })

/-- The packet of a kind that an engine has in hand goes on, or its next one starts and takes its first step. -/
def State.packetStep (s : State) (e kind : Nat) (mine : Nat → Bool) (go : State → Run → State) : State :=
  match s.run e with
  | some r => if s.goes e kind && mine r.body then go s r else s
  | none =>
    if !s.nextIs e kind mine then s
    else
      let s := s.startPacket e kind
      match s.run e with
      | some r => if r.stopped then s else go s r
      | none => s

/-- A transform packet: one row of its part. -/
def State.wtuRowStep (s : State) (die unit op : Nat) : State :=
  let e := engineId 5 die unit
  s.packetStep e 6 (fun b => s.ld 1 b == op) (fun s r =>
    let w := s.wtuOf r
    if w.empty then s.setRun e { r with status := 1, retired := true }
    else
      let total := match op with
        | 1 => w.batch * w.frames * w.th * w.tw
        | 2 => w.geo.t.k * w.cout
        | _ => w.batch * w.geo.t.out * w.th * w.tw
      s.rowStep e (partOf total w.part w.parts) (fun k u => match op with
        | 1 => u.wgInput e w k
        | 2 => u.wgWeight e w k
        | _ => u.wgOutput e w k))

/-- INPUT (R182): input patches into V. -/
def execInput (die unit : Nat) (s : State) : Answer := answer s (s.wtuRowStep die unit 1)
/-- WEIGHT (R182): kernels into U. -/
def execWeight (die unit : Nat) (s : State) : Answer := answer s (s.wtuRowStep die unit 2)
/-- OUTPUT (R182): the inverse transform of M into Y. -/
def execOutput (die unit : Nat) (s : State) : Answer := answer s (s.wtuRowStep die unit 3)

end Sys2Proof.Machine
end

