-- ==== Sys2Proof/Machine/Mover.lean ====
section
/-!
DEFINITION. Machine/Mover.lean: mover transfers, kind 5 (R183 to R190). A command carries out one row of the packet in
hand; the first one starts it (log 1).
-/

namespace Sys2Proof.Machine

/-- The header of R183, with the shape words in force. -/
structure Mov where
  op : Nat
  fmt : Fmt
  cvt : Cvt
  repl : Bool
  valid : Bool
  ft : Nat
  fh : Nat
  fw : Nat
  batch : Nat
  ch : Nat
  src : Nat
  dst : Nat
  aux : Nat
  count : Nat
  run : Nat
  srcStride : Nat
  dstStride : Nat
  srcRows : Nat
  part : Nat
  parts : Nat
  geo : Geo
  deriving DecidableEq, Repr

def State.movOf (s : State) (r : Run) : Mov :=
  let b := r.body
  let f := (Fmt.ofCode (s.ld 1 (b + 1) % 16)).getD .fp32
  { op := s.ld 1 b, fmt := f, cvt := (Cvt.ofByte (s.ld 1 (b + 2))).getD ⟨f, false, false⟩, repl := bitOf (s.ld 1 (b + 3)) 0,
    valid := bitOf (s.ld 1 (b + 3)) 1, ft := s.ld 1 (b + 4), fh := s.ld 1 (b + 5), fw := s.ld 1 (b + 6),
    batch := r.dim 0 (s.ld 4 (b + 8)), ch := s.ld 4 (b + 0xC), src := s.ld 6 (b + 0x10), dst := s.ld 6 (b + 0x18),
    aux := s.ld 6 (b + 0x20), count := r.dim 0 (s.ld 4 (b + 0x28)), run := s.ld 4 (b + 0x2C), srcStride := s.ld 4 (b + 0x30),
    dstStride := s.ld 4 (b + 0x34), srcRows := s.ld 4 (b + 0x38), part := s.ld 2 (b + 0x3C), parts := s.ld 2 (b + 0x3E),
    geo := s.geoAt r (b + 64) }

/-- Bytes of one element. -/
def Mov.w (m : Mov) : Nat := m.fmt.elemBits / 8
def Mov.wOut (m : Mov) : Nat := m.cvt.fmt.elemBits / 8
/-- Coarse extents of S2D and D2S (R185). -/
def Mov.ct (m : Mov) : Nat := ceilDiv m.geo.t.i m.ft
def Mov.chh (m : Mov) : Nat := ceilDiv m.geo.h.i m.fh
def Mov.cw (m : Mov) : Nat := ceilDiv m.geo.w.i m.fw
def Mov.coarseCh (m : Mov) : Nat := m.ft * m.fh * m.fw * m.ch

/-- The rows of the whole transfer (R183). -/
def Mov.total (m : Mov) : Nat :=
  match m.op with
  | 1 | 2 => m.count
  | 3 => m.batch * m.ct * m.chh * m.cw
  | 4 | 5 | 8 | 9 => m.batch * m.geo.inPos
  | _ => m.batch * m.geo.outPos

/-- Counters of R190. -/
def State.movCount (s : State) (e runs rd wr fill : Nat) : State :=
  let d := engDie e
  let i := engInst e
  (((s.count (rMoveCtrRUNS d i) runs).count (rMoveCtrBYTESREAD d i) rd).count (rMoveCtrBYTESWRITTEN d i) wr).count
    (rMoveCtrFILLELEMENTS d i) fill

/-- One run of bytes moved: a fault code, or 0. -/
def State.moveRun (s : State) (e src dst n : Nat) : State × Nat :=
  match s.load src n with
  | .fault c => (s, c)
  | .ok bs =>
    let r := s.put (some e) dst bs
    if r.2 ≠ 0 then r else ((r.1.noteRead src n).movCount e 1 n n 0, 0)

/-- COPY, row i (R184). -/
def State.movCopy (s : State) (e : Nat) (m : Mov) (i : Nat) : State × Nat :=
  s.moveRun e (m.src + i * m.srcStride) (m.dst + i * m.dstStride) m.run

/-- GATHER, row i (R184): the index is checked before the row moves. -/
def State.movGather (s : State) (e : Nat) (m : Mov) (i : Nat) : State × Nat :=
  match s.load (m.aux + 4 * i) 4 with
  | .fault c => (s, c)
  | .ok bs =>
    let s := (s.noteRead (m.aux + 4 * i) 4).movCount e 0 4 0 0
    let x := leNat bs
    if m.srcRows ≤ x then (s, 1)
    else s.moveRun e (m.src + x * m.srcStride) (m.dst + i * m.dstStride) m.run

/-- S2D, coarse position k (R185): its runs of f_w fine pixels, filled past the fine extents. -/
def State.movS2d (s : State) (e : Nat) (m : Mov) (k : Nat) : State × Nat :=
  let g := m.geo
  let p := posOf m.ct m.chh m.cw k
  let fine := (List.range (m.ft * m.fh * m.fw)).map (fun j =>
    let t := p.2.1 * m.ft + j / (m.fh * m.fw)
    let y := p.2.2.1 * m.fh + j / m.fw % m.fh
    let x := p.2.2.2 * m.fw + j % m.fw
    let inside := decide (t < g.t.i) && decide (y < g.h.i) && decide (x < g.w.i)
    let a := m.src + flatOf g.t.i g.h.i g.w.i p.1 (capAt (g.t.i - 1) t) (capAt (g.h.i - 1) y) (capAt (g.w.i - 1) x) * m.ch * m.w
    if inside ∨ m.repl then (inside, s.load a (m.ch * m.w), a) else (false, Rd.ok (List.replicate (m.ch * m.w) 0#8), 0))
  let fault := firstFault (fine.map (fun x => match x.2.1 with | .fault c => c | .ok _ => 0))
  if fault ≠ 0 then (s, fault)
  else
    let bytes := fine.flatMap (fun x => match x.2.1 with | .ok bs => bs | .fault _ => [])
    let r := s.put (some e) (m.dst + k * m.coarseCh * m.w) bytes
    if r.2 ≠ 0 then r
    else
      let real := fine.filter (fun x => x.1)
      let u := r.1.noteReads (real.map (fun x => (x.2.2, m.ch * m.w)))
      (u.movCount e (m.ft * m.fh) (real.length * m.ch * m.w) bytes.length ((fine.length - real.length) * m.ch), 0)

/-- D2S, fine position k (R185). A run of f_w fine pixels is counted at its first pixel, or at the first of the part. -/
def State.movD2s (s : State) (e : Nat) (m : Mov) (first k : Nat) : State × Nat :=
  let g := m.geo
  let p := posOf g.t.i g.h.i g.w.i k
  let sub := ((p.2.1 % m.ft) * m.fh + p.2.2.1 % m.fh) * m.fw + p.2.2.2 % m.fw
  let c := flatOf m.ct m.chh m.cw p.1 (p.2.1 / m.ft) (p.2.2.1 / m.fh) (p.2.2.2 / m.fw)
  let a := m.src + (c * m.coarseCh + sub * m.ch) * m.w
  match s.load a (m.ch * m.w) with
  | .fault f => (s, f)
  | .ok bs =>
    let r := s.put (some e) (m.dst + k * m.ch * m.w) bs
    if r.2 ≠ 0 then r
    else ((r.1.noteRead a (m.ch * m.w)).movCount e (b2n (p.2.2.2 % m.fw == 0 || k == first)) bs.length bs.length 0, 0)

/-- The values of one position's channels of a tensor of the transfer's format. -/
def State.movVals (s : State) (m : Mov) (base pos : Nat) : List W32 × Nat :=
  match s.load (base + pos * m.ch * m.w) (m.ch * m.w) with
  | .ok bs => ((decodePlains m.fmt m.ch bs).map toF32, 0)
  | .fault c => ([], c)

/-- Where the channels of positions lie. -/
def Mov.places (m : Mov) (base : Nat) (l : List Nat) : List (Nat × Nat) := l.map (fun pos => (base + pos * m.ch * m.w, m.ch * m.w))

/-- Write one destination position's channels under cvt, formed from the ranges `reads`. -/
def State.movWrite (s : State) (e : Nat) (m : Mov) (k : Nat) (xs : List W32) (reads : List (Nat × Nat)) (fill : Nat) : State × Nat :=
  let bs := encodePlains m.cvt.fmt m.cvt.ovfNan (fun _ => .rne) (xs.map ofF32)
  let r := s.put (some e) (m.dst + k * m.ch * m.wOut) bs
  if r.2 ≠ 0 then r
  else ((r.1.noteReads reads).movCount e 0 (reads.foldl (fun n p => n + p.2) 0) bs.length fill, 0)

/-- Padded coordinates of an axis that resolve to an input coordinate, ascending (R186). -/
def Axis.foldsTo (a : Axis) (p : Nat) : List Nat :=
  (List.range a.padded).filter (fun q => resolve ((q : Int) - a.lo) a.i a.mode == some p)

/-- A sum over rows of channels, element by element from the first on. -/
def sumRows (n : Nat) (rows : List (List W32)) : List W32 :=
  (List.range n).map (fun c => sumFrom (rows.map (fun r => listGet 0#32 r c)))

/-- PAD_FOLD, dX position k (R186). -/
def State.movFold (s : State) (e : Nat) (m : Mov) (k : Nat) : State × Nat :=
  let g := m.geo
  let p := posOf g.t.i g.h.i g.w.i k
  let from' := (g.t.foldsTo p.2.1).flatMap (fun t => (g.h.foldsTo p.2.2.1).flatMap (fun y =>
    (g.w.foldsTo p.2.2.2).map (fun x => flatOf g.t.padded g.h.padded g.w.padded p.1 t y x)))
  let rows := from'.map (fun q => s.movVals m m.src q)
  let fault := firstFault (rows.map (fun r => r.2))
  if fault ≠ 0 then (s, fault)
  else s.movWrite e m k (sumRows m.ch (rows.map (fun r => r.1))) (m.places m.src from') 0

/-- Taps of a window that take part: the flat input position, samples included (R187). -/
def Mov.window (m : Mov) (q : Nat) : List Nat := (List.range m.geo.taps).filterMap (fun t => m.geo.reach q t)

/-- The running maximum (R187): replaced only by a strictly greater value, and by the first NaN. -/
def poolMax (cur : Option (W32 × Nat)) (v : W32) (i : Nat) : Option (W32 × Nat) :=
  match cur with
  | none => some (v, i)
  | some (b, j) => if f32IsNaN b then some (b, j) else if f32IsNaN v || f32Lt b v then some (v, i) else some (b, j)

/-- POOL_MAX, output position k (R187). -/
def State.movMax (s : State) (e : Nat) (m : Mov) (k : Nat) : State × Nat :=
  let taps := m.window k
  let rows := taps.map (fun q => (q % m.geo.inPos, s.movVals m m.src q))
  let fault := firstFault (rows.map (fun r => r.2.2))
  if fault ≠ 0 then (s, fault)
  else
    let best := (List.range m.ch).map (fun c =>
      (rows.foldl (fun cur r => poolMax cur (listGet 0#32 r.2.1 c) r.1) none).getD (0#32, 0xFFFFFFFF))
    let r := s.movWrite e m k (best.map (fun b => b.1)) (m.places m.src taps) ((m.geo.taps - taps.length) * m.ch)
    if r.2 ≠ 0 then r
    else
      let o := r.1.put (some e) (m.aux + 4 * (k * m.ch)) (best.flatMap (fun b => leBytes 4 b.2))
      if o.2 ≠ 0 then o else (o.1.movCount e 0 0 (4 * m.ch) 0, 0)

/-- The divisor of an average window (R187). -/
def Mov.divisor (m : Mov) (q : Nat) : Nat := if m.valid then (m.window q).length else m.geo.taps

/-- POOL_AVG, output position k (R187). -/
def State.movAvg (s : State) (e : Nat) (m : Mov) (k : Nat) : State × Nat :=
  let taps := m.window k
  let rows := taps.map (fun q => s.movVals m m.src q)
  let fault := firstFault (rows.map (fun r => r.2))
  if fault ≠ 0 then (s, fault)
  else
    let sums := if taps.isEmpty then List.replicate m.ch 0#32
      else (sumRows m.ch (rows.map (fun r => r.1))).map (fun x => f32Div x (f32OfInt (m.divisor k)))
    s.movWrite e m k sums (m.places m.src taps) ((m.geo.taps - taps.length) * m.ch)

/-- The windows of a sample, as output positions. -/
def Mov.windows (m : Mov) (n : Nat) : List Nat := (List.range m.geo.outPos).map (fun q => n * m.geo.outPos + q)

/-- POOL_MAX_BWD, dX position k (R187): over the sample's windows whose stored index names it. -/
def State.movMaxBack (s : State) (e : Nat) (m : Mov) (k : Nat) : State × Nat :=
  let n := k / m.geo.inPos
  let me := k % m.geo.inPos
  let ws := (m.windows n).map (fun q => (q, s.load (m.aux + 4 * (q * m.ch)) (4 * m.ch)))
  let named := ws.filterMap (fun w => match w.2 with
    | .ok bs =>
      let hit := (List.range m.ch).map (fun c => leNat ((bs.drop (4 * c)).take 4) == me)
      if hit.any id then some (hit, s.movVals m m.src w.1) else none
    | .fault _ => none)
  let fault := firstFault (ws.map (fun w => match w.2 with | .fault c => c | .ok _ => 0) ++ named.map (fun x => x.2.2))
  if fault ≠ 0 then (s, fault)
  else
    let sums := (List.range m.ch).map (fun c =>
      sumFrom (named.filterMap (fun x => if listGet false x.1 c then some (listGet 0#32 x.2.1 c) else none)))
    let taken := (m.windows n).filter (fun q => (m.window q).contains k)
    s.movWrite e m k sums (taken.map (fun q => (m.aux + 4 * (q * m.ch), 4 * m.ch)) ++ m.places m.src taken) 0

/-- POOL_AVG_BWD, dX position k (R187): once per occurrence. -/
def State.movAvgBack (s : State) (e : Nat) (m : Mov) (k : Nat) : State × Nat :=
  let n := k / m.geo.inPos
  let ws := (m.windows n).flatMap (fun q => List.replicate (((m.window q).filter (fun p => p == k)).length) q)
  let rows := ws.map (fun q => (m.divisor q, s.movVals m m.src q))
  let fault := firstFault (rows.map (fun r => r.2.2))
  if fault ≠ 0 then (s, fault)
  else
    let sums := sumRows m.ch (rows.map (fun r => r.2.1.map (fun x => f32Div x (f32OfInt r.1))))
    s.movWrite e m k sums (m.places m.src ws) 0

/-- One row of a transfer. -/
def State.movRow (s : State) (e : Nat) (m : Mov) (first k : Nat) : State × Nat :=
  match m.op with
  | 1 => s.movCopy e m k
  | 2 => s.movGather e m k
  | 3 => s.movS2d e m k
  | 4 => s.movD2s e m first k
  | 5 => s.movFold e m k
  | 6 => s.movMax e m k
  | 7 => s.movAvg e m k
  | 8 => s.movMaxBack e m k
  | _ => s.movAvgBack e m k

/-- Nothing to do (R187, R334): no row, or a pooling whose output is empty. -/
def Mov.empty (m : Mov) : Bool := m.total == 0 || (decide (6 ≤ m.op) && m.geo.outPos == 0)

/-- A transfer: one row of its part. A fault's record names the row (R184, R420). -/
def State.movStep (s : State) (die unit op : Nat) : State :=
  let e := engineId 4 die unit
  s.packetStep e 5 (fun b => s.ld 1 b == op) (fun s r =>
    let m := s.movOf r
    let s := if m.empty then s.setRun e { r with status := 1 } else s
    let p := partOf m.total m.part m.parts
    s.rowStep e p (fun k u => match u.movRow e m p.1 k with
      | (t, 0) => (t, 0)
      | (t, code) => (t.modRun e (fun q => { q with recItem := k }), code)))

/-- COPY (R184). -/
def execCopy (die unit : Nat) (s : State) : Answer := answer s (s.movStep die unit 1)
/-- GATHER (R184). -/
def execGather (die unit : Nat) (s : State) : Answer := answer s (s.movStep die unit 2)
/-- S2D (R185). -/
def execS2d (die unit : Nat) (s : State) : Answer := answer s (s.movStep die unit 3)
/-- D2S (R185). -/
def execD2s (die unit : Nat) (s : State) : Answer := answer s (s.movStep die unit 4)
/-- PAD_FOLD (R186). -/
def execPadFold (die unit : Nat) (s : State) : Answer := answer s (s.movStep die unit 5)
/-- POOL_MAX (R187). -/
def execPoolMax (die unit : Nat) (s : State) : Answer := answer s (s.movStep die unit 6)
/-- POOL_AVG (R187). -/
def execPoolAvg (die unit : Nat) (s : State) : Answer := answer s (s.movStep die unit 7)
/-- POOL_MAX_BWD (R187). -/
def execPoolMaxBwd (die unit : Nat) (s : State) : Answer := answer s (s.movStep die unit 8)
/-- POOL_AVG_BWD (R187). -/
def execPoolAvgBwd (die unit : Nat) (s : State) : Answer := answer s (s.movStep die unit 9)

end Sys2Proof.Machine
end

