-- ==== Sys2Proof/Machine/Vector.lean ====
section
/-!
DEFINITION. Machine/Vector.lean: vector engines and the noise generator (R232 to R245). VECTOR_PROGRAM starts a packet
of kind 4; each command of an opcode then carries out the program's next instruction when it is one of that opcode
(log 1).
-/

namespace Sys2Proof.Machine

/-! ## Instruction words (R233) -/

/-- The fields of an instruction word. -/
structure VIns where
  op : Nat
  vd : Nat
  va : Nat
  vb : Nat
  vc : Nat
  mask : Nat
  masked : Bool
  sub : Nat
  xs : Nat
  pair : Bool
  imm : Int
  cvt : Nat
  deriving DecidableEq, Repr

def vinsOf (w : Nat) : VIns :=
  { op := bitsOf w 7 0, vd := bitsOf w 13 8, va := bitsOf w 19 14, vb := bitsOf w 25 20, vc := bitsOf w 31 26,
    mask := bitsOf w 34 32, masked := bitOf w 35, sub := bitsOf w 39 36, xs := bitsOf w 43 40, pair := bitOf w 44,
    imm := signedOf 16 (bitsOf w 63 48), cvt := bitsOf w 27 20 }

/-- Instruction `i` of the program in hand (R237). -/
def State.vins (s : State) (r : Run) (i : Nat) : VIns := vinsOf (s.ld 8 (r.body + 16 + 8 * i))

/-! ## Registers and scratch (R232) -/

def Vec.lanes (g : Vec) (r : Nat) : List W32 := Tbl.getMany (fun _ => 0#32) g.v (256 * r) 256
def Vec.setLanes (g : Vec) (r : Nat) (xs : List W32) : Vec :=
  { g with v := Tbl.setMany (fun _ => 0#32) g.v (256 * r) (xs.take 256) }
def Vec.xreg (g : Vec) (i : Nat) : Nat := (Tbl.get (fun _ => 0#64) g.x i).toNat
def Vec.setX (g : Vec) (i v : Nat) : Vec := { g with x := Tbl.set (fun _ => 0#64) g.x i (BitVec.ofNat 64 v) }
def Vec.mreg (g : Vec) (i : Nat) : BitVec 256 := Tbl.get (fun _ => 0#256) g.m i
def Vec.setM (g : Vec) (i : Nat) (v : BitVec 256) : Vec := { g with m := Tbl.set (fun _ => 0#256) g.m i v }

/-- Whether a lane takes part in a write (R233). -/
def Vec.on (g : Vec) (x : VIns) (l : Nat) : Bool := !x.masked || (g.mreg x.mask).getLsbD l

/-- Write a vector register under the mask: lanes whose bit is 0 keep their old value. -/
def Vec.writeV (g : Vec) (x : VIns) (xs : List W32) : Vec :=
  g.setLanes x.vd ((indexed ((g.lanes x.vd).zip xs)).map (fun p => if g.on x p.1 then p.2.2 else p.2.1))

/-- A scratch address (R233): bit 47 set. -/
def isScratch (a : Nat) : Bool := bitOf a 47
def scratchBase : Nat := 0x800000000000
def scratchBytes : Nat := 0x100000
def scratchDefault (_ : Nat) : Byte := 0#8

/-- Bytes at an address of R233, with a fault code. -/
def State.vload (s : State) (e a n : Nat) : List Byte × Nat :=
  if isScratch a then
    (if a - scratchBase + n ≤ scratchBytes then (Tbl.getMany scratchDefault (s.vec e).scratch (a - scratchBase) n, 0) else ([], 1))
  else match s.load a n with
    | .ok bs => (bs, 0)
    | .fault c => ([], c)

/-- Store bytes at an address of R233. -/
def State.vstore (s : State) (e a : Nat) (bs : List Byte) : State × Nat :=
  if isScratch a then
    (if a - scratchBase + bs.length ≤ scratchBytes then
      (s.setVec e { s.vec e with scratch := Tbl.setMany scratchDefault (s.vec e).scratch (a - scratchBase) bs }, 0)
    else (s, 1))
  else s.put (some e) a bs

/-- Bytes accepted to or from shared and stack memory (R245). -/
def State.vcount (s : State) (e a n : Nat) : State :=
  if inMem a n then s.count (rVecCtrMEMBYTES (engDie e) (engInst e)) n else s

/-- Bytes that a load has read (R13, R245, R340). -/
def State.vread (s : State) (e a n : Nat) : State := if isScratch a then s else (s.noteRead a n).vcount e a n

/-- X[xs] + imm × 64, modulo 2^64. -/
def Vec.addr (g : Vec) (x : VIns) : Nat := (((g.xreg x.xs : Int) + x.imm * 64) % ((2 ^ 64 : Nat) : Int)).toNat

/-! ## The generator (R241) -/

/-- The word of the packet's stream at a counter, modulo 2^64, under the seed of the packet's own job table (R40, R240). -/
def Run.rngWord (r : Run) (c : Nat) : Nat := philoxWord (r.bind.job.field 0x10 8) r.rngStream (c % 2 ^ 64)

/-- (w >> 8) × 2^−24. -/
def uniformOf (w : Nat) : W32 := toF32 (.fin false (w >>> 8) (-24))

/-- The largest FP32 value at or below √(48 ln 2), which no GAUSS value exceeds (R241). -/
def gaussMax : W32 := 0x40B89456#32

/-- Keep a value's magnitude at most `gaussMax`. -/
def gaussCap (x : W32) : W32 :=
  if f32Lt gaussMax x then gaussMax else if f32Lt x (f32Neg gaussMax) then f32Neg gaussMax else x

/-- GAUSS from two words: each operation within 4 ulp (R241). -/
def gaussOf (w0 w1 : Nat) : W32 :=
  let key := fun (n x : Nat) => n * 2 ^ 70 + x
  let u1 : Fp := .fin false ((w0 >>> 8) + 1) (-24)
  let ln := if (w0 >>> 8) + 1 = 2 ^ 24 then 0#32
    else withinUlp 4 siteGauss (key 0 (w0 >>> 8)) (fpOfFix false (fixLn (fixOf u1)))
  let m2 := (ofF32 ln).neg.scale2 1
  let root := match Fp.sqrt m2 with
    | .fin n m e => if m = 0 then 0#32 else withinUlp 4 siteGauss (key 1 (toF32 m2).toNat) (.fin n m e)
    | y => toF32 y
  let t := w1 >>> 8
  let c := (fixCosSin (2 * anglePi * (t : Int) / ((2 ^ 24 : Nat) : Int))).1
  let cos := if t % 2 ^ 23 = 2 ^ 22 then 0#32 else withinUlp 4 siteGauss (key 2 t) (fpOfFix false c)
  match Fp.mul (ofF32 root) (ofF32 cos) with
  | .fin n m e =>
    if m = 0 then toF32 (.fin n 0 0)
    else gaussCap (withinUlp 4 siteGauss (key 3 (root.toNat * 2 ^ 32 + cos.toNat)) (.fin n m e))
  | y => toF32 y

/-! ## Lane operations -/

/-- One operation on a lane: FP32, or both BF16 halves under PAIR, each result rounded once (R233, R234). -/
def lane1 (pair : Bool) (f : Fp → Fp → Fp → Fp) (a b c : W32) : W32 :=
  if pair then
    let half := fun (h : Nat) =>
      let g := fun (x : W32) => decodePlain .bf16 (x.toNat >>> (16 * h) % 65536)
      convPlain .bf16 false .rne (f (g a) (g b) (g c))
    BitVec.ofNat 32 (half 0 + half 1 * 65536)
  else toF32 (f (ofF32 a) (ofF32 b) (ofF32 c))

/-- Maximum and minimum on exact values (R117, R234). -/
def fpMax (a b : Fp) : Fp :=
  if a.isNaN || b.isNaN then .nan else if Fp.lt a b then b else if Fp.lt b a then a else if a.isNeg then b else a
def fpMin (a b : Fp) : Fp :=
  if a.isNaN || b.isNaN then .nan else if Fp.lt a b then a else if Fp.lt b a then b else if a.isNeg then a else b

/-- The lanes of three registers, combined. -/
def Vec.lanes3 (g : Vec) (x : VIns) (f : W32 → W32 → W32 → W32) : List W32 :=
  ((g.lanes x.va).zip ((g.lanes x.vb).zip (g.lanes x.vc))).map (fun p => f p.1 p.2.1 p.2.2)

/-- FUNC (R234). -/
def vecFunc (sub : Nat) (a b : W32) : W32 :=
  match sub with
  | 0 => f32Exp a
  | 1 => f32Ln a
  | 2 => f32Recip a
  | 3 => f32Rsqrt a
  | 4 => f32Sqrt a
  | _ => f32Div a b

/-- CMP (R234). -/
def vecCmp (sub : Nat) (a b : W32) : Bool :=
  match sub with
  | 0 => Fp.eq (ofF32 a) (ofF32 b)
  | 1 => Fp.lt (ofF32 a) (ofF32 b)
  | 2 => Fp.le (ofF32 a) (ofF32 b)
  | _ => f32IsNaN a || f32IsNaN b

/-- RED (R234): a fixed 8-level pairwise tree. -/
def vecRed (sub : Nat) (xs : List W32) : W32 :=
  match sub with
  | 0 => treeSum 8 xs
  | 1 => treeSum 8 (xs.map (fun x => f32Mul x x))
  | _ => match xs with
    | [] => 0#32
    | y :: ys => ys.foldl f32Max (if f32IsNaN y then f32NaN else y)

/-! ## Block formats (R234) -/

/-- The tensor exponent of an LDB or STB: bits [7:0] of lane 0 of vc, signed; HB4 only. The values −128, −127 and 127, which R59
reserves, act as the exponents they spell (DESIGN CHOICE, log 72: no outcome is given for a register's value). -/
def Vec.tauOf (g : Vec) (x : VIns) (f : Fmt) : Int :=
  if f = .hb4 then signedOf 8 ((g.lanes x.vc).headD 0#32).toNat else 0

/-- Where the block scales of an LDB or STB lie. -/
def Vec.scaleAddr (g : Vec) (x : VIns) (f : Fmt) : Nat :=
  let n : Int := x.imm * 512 / (f.elemBits : Int)
  (((g.xreg (x.xs + 1) : Int) + n / (f.block : Int) * (f.scaleBytes : Int)) % ((2 ^ 64 : Nat) : Int)).toNat

/-- Which moment an LDB reads a Q8M block as: no field names it, so it is an open constant (log 41). -/
def ldbMoment : Moment := if bitOf (Config.freeValue 12 0).toNat 0 then .second else .first

/-! ## Carrying out one instruction -/

/-- What an instruction leaves: the state, a fault code, and for LOOP the body it opens. -/
structure VRes where
  s : State
  fault : Nat := 0
  deriving DecidableEq, Repr

def State.setVecR (s : State) (e : Nat) (g : Vec) : VRes := { s := s.setVec e g }

/-- FMA, ADD, MUL, MAX, MIN. -/
def State.vArith (s : State) (e : Nat) (x : VIns) (f : Fp → Fp → Fp → Fp) : VRes :=
  let g := s.vec e
  s.setVecR e (g.writeV x (g.lanes3 x (lane1 x.pair f)))

/-- FUNC and ACT. -/
def State.vFun (s : State) (e : Nat) (x : VIns) (f : W32 → W32 → W32) : VRes :=
  let g := s.vec e
  s.setVecR e (g.writeV x (g.lanes3 x (fun a b _ => f a b)))

def State.vCmp (s : State) (e : Nat) (x : VIns) : VRes :=
  let g := s.vec e
  let bits := g.lanes3 x (fun a b _ => if vecCmp x.sub a b then 1#32 else 0#32)
  let d := x.vd % 8
  let v := (indexed bits).foldl (fun n p => n + (if (if g.on x p.1 then p.2 == 1#32 else (g.mreg d).getLsbD p.1) then 2 ^ p.1 else 0)) 0
  s.setVecR e (g.setM d (BitVec.ofNat 256 v))

def State.vSel (s : State) (e : Nat) (x : VIns) : VRes :=
  let g := s.vec e
  s.setVecR e (g.setLanes x.vd ((indexed ((g.lanes x.va).zip (g.lanes x.vb))).map (fun p =>
    if (g.mreg x.mask).getLsbD p.1 then p.2.1 else p.2.2)))

def State.vRed (s : State) (e : Nat) (x : VIns) : VRes :=
  let g := s.vec e
  s.setVecR e (g.writeV x (vecRed x.sub (g.lanes x.va) :: List.replicate 255 0#32))

def State.vBcast (s : State) (e : Nat) (x : VIns) : VRes :=
  let g := s.vec e
  s.setVecR e (g.writeV x (List.replicate 256 (listGet 0#32 (g.lanes x.va) (x.imm % 256).toNat)))

def State.vLd (s : State) (e : Nat) (x : VIns) : VRes :=
  let g := s.vec e
  let f := (Fmt.ofCode x.sub).getD .fp32
  let n := 256 * (f.elemBits / 8)
  let a := g.addr x
  let r := s.vload e a n
  if r.2 ≠ 0 then { s := s, fault := r.2 }
  else (s.vread e a n).setVecR e (g.writeV x ((decodePlains f 256 r.1).map toF32))

/-- The rounding of lane `l` of a store: its draw at X[xs + 2] + 4 × lane + slot when SR is set (R241). -/
def Run.vRnd (r : Run) (g : Vec) (x : VIns) (c : Cvt) (l : Nat) : Rnd :=
  c.rnd (r.rngWord (g.xreg (x.xs + 2) + 4 * l + bitsOf x.sub 3 2) >>> 16)

/-- Consecutive lanes gathered into runs: the first lane of each run, and its values. -/
def laneRuns {α : Type} (l : List (Nat × α)) : List (Nat × List α) :=
  l.foldr (fun p rs => match rs with
    | (k, xs) :: t => if k = p.1 + 1 then (p.1, p.2 :: xs) :: t else (p.1, [p.2]) :: rs
    | [] => [(p.1, [p.2])]) []

/-- One access of several writes: it is accepted whole, or it faults and writes nothing (R9, R236). -/
def State.vwhole {α : Type} (s : State) (e : Nat) (f : State → Nat → α → State × Nat) : List (Nat × Nat × α) → State × Nat
  | [] => (s, 0)
  | p :: ps =>
    let r := f s p.1 p.2.2
    if r.2 ≠ 0 then (s, r.2)
    else
      let q := State.vwhole (r.1.vcount e p.1 p.2.1) e f ps
      if q.2 ≠ 0 then (s, q.2) else q

/-- ST: one access (R236). -/
def State.vSt (s : State) (e : Nat) (r : Run) (x : VIns) : VRes :=
  let g := s.vec e
  let c := (Cvt.ofByte x.cvt).getD ⟨.fp32, false, false⟩
  let w := c.fmt.elemBits / 8
  let lanes := (indexed (g.lanes x.vd)).filter (fun p => g.on x p.1)
  let cells := lanes.map (fun p => (p.1, leBytes w (convPlain c.fmt c.ovfNan (r.vRnd g x c p.1) (ofF32 p.2))))
  let o := s.vwhole e (fun t a bs => t.vstore e a bs) ((laneRuns cells).map (fun p => (g.addr x + w * p.1, w * p.2.length, p.2.flatten)))
  { s := if c.sr then o.1.count (rVecCtrRNGWORDS (engDie e) (engInst e)) lanes.length else o.1, fault := o.2 }

def State.vLdb (s : State) (e : Nat) (x : VIns) : VRes :=
  let g := s.vec e
  let f := (Fmt.ofCode x.sub).getD .mxE4m3
  let n := f.elemBytes 256
  let m := f.scalePlaneBytes 256
  let a := g.addr x
  let b := g.scaleAddr x f
  let es := s.vload e a n
  let ss := s.vload e b m
  if es.2 ≠ 0 then { s := s, fault := es.2 }
  else if ss.2 ≠ 0 then { s := s, fault := ss.2 }
  else ((s.vread e a n).vread e b m).setVecR e
    (g.writeV x ((decodeBlocks f (g.tauOf x f) ldbMoment 256 es.1 ss.1).map toF32))

def State.vStb (s : State) (e : Nat) (r : Run) (x : VIns) : VRes :=
  let g := s.vec e
  let c := (Cvt.ofByte x.cvt).getD ⟨.mxE4m3, false, false⟩
  let mo : Moment := if bitOf x.sub 0 then .second else .first
  let bs := encodeBlocks c.fmt c.ovfNan (g.tauOf x c.fmt) mo (fun l => r.vRnd g x c l) ((g.lanes x.vd).map ofF32)
  let a := g.addr x
  let b := g.scaleAddr x c.fmt
  let o := s.vwhole e (fun t a bs => t.vstore e a bs) [(a, bs.1.length, bs.1), (b, bs.2.length, bs.2)]
  { s := if c.sr then o.1.count (rVecCtrRNGWORDS (engDie e) (engInst e)) 256 else o.1, fault := o.2 }

/-- STACC: accumulate-writes, one access (R236); a replay makes none (R204). -/
def State.vStacc (s : State) (e : Nat) (r : Run) (x : VIns) : VRes :=
  let g := s.vec e
  let bf := x.sub == 1
  let w := if bf then 2 else 4
  if r.replayOf.isSome then { s := s }
  else
    let cells := laneRuns ((indexed (g.lanes x.vd)).filter (fun p => g.on x p.1))
    let o := s.vwhole e (fun t a xs => t.accumulate (some e) bf a xs) (cells.map (fun p => (g.addr x + w * p.1, w * p.2.length, p.2)))
    { s := o.1, fault := o.2 }

def State.vRng (s : State) (e : Nat) (r : Run) (x : VIns) : VRes :=
  let g := s.vec e
  let c := g.xreg x.xs
  let xs := (List.range 256).map (fun l => match x.sub with
    | 0 => BitVec.ofNat 32 (r.rngWord (c + l))
    | 1 => uniformOf (r.rngWord (c + l))
    | _ => gaussOf (r.rngWord (c + 2 * l)) (r.rngWord (c + 2 * l + 1)))
  (s.count (rVecCtrRNGWORDS (engDie e) (engInst e)) (if x.sub = 2 then 512 else 256)).setVecR e (g.writeV x xs)

/-- The X register fields of scalar instructions. -/
def VIns.xd (x : VIns) : Nat := x.vd % 16

def State.vXadd (s : State) (e : Nat) (x : VIns) : VRes :=
  let g := s.vec e
  s.setVecR e (g.setX x.xd (((g.xreg (x.va % 16) + g.xreg (x.vb % 16) : Nat) + x.imm) % ((2 ^ 64 : Nat) : Int)).toNat)

def State.vXshl (s : State) (e : Nat) (x : VIns) : VRes :=
  let g := s.vec e
  s.setVecR e (g.setX x.xd (g.xreg (x.va % 16) <<< (x.imm % 64).toNat))

def State.vXld (s : State) (e : Nat) (x : VIns) : VRes :=
  let g := s.vec e
  let a := (((g.xreg (x.va % 16) : Int) + x.imm * 8) % ((2 ^ 64 : Nat) : Int)).toNat
  let r := s.vload e a 8
  if r.2 ≠ 0 then { s := s, fault := r.2 } else (s.vread e a 8).setVecR e (g.setX x.xd (leNat r.1))

/-! ## Dense factorisation (R242, R243) -/

/-- Element (i, j) of the scratch matrix at an offset. -/
def matGet (m : Mem) (o i j : Nat) : W32 := BitVec.ofNat 32 (leNat (Tbl.getMany scratchDefault m (o + 1024 * i + 4 * j) 4))
def matSet (m : Mem) (o i j : Nat) (v : W32) : Mem := Tbl.setMany scratchDefault m (o + 1024 * i + 4 * j) (leBytes 4 v.toNat)

/-- Σ of the first k products taken from `e`, one FMA each. -/
def fmaDown (m : Mem) (o i j k : Nat) (e : W32) : W32 :=
  forN k e (fun t acc => f32Fma (f32Neg (matGet m o i t)) (matGet m o j t) acc)

/-- One column of CHOL; `none` in the second place while the factor goes on, else the failed column. -/
def cholCol (o n j : Nat) (st : Mem × Option Nat) : Mem × Option Nat :=
  match st.2 with
  | some _ => st
  | none =>
    let m := st.1
    let d := fmaDown m o j j j (matGet m o j j)
    if !f32Lt 0#32 d then (m, some j)
    else
      let l := f32Sqrt d
      let m := matSet m o j j l
      (forN (n - (j + 1)) m (fun t u =>
        let i := j + 1 + t
        matSet u o i j (f32Div (fmaDown u o i j j (matGet u o i j)) l)), none)

/-- One column of TRINV: forward substitution down the column. -/
def trinvCol (o n j : Nat) (st : Mem × Option Nat) : Mem × Option Nat :=
  match st.2 with
  | some _ => st
  | none =>
    let m := st.1
    let d := matGet m o j j
    if f32IsNaN d || (ofF32 d).isZero then (m, some j)
    else
      let m := matSet m o j j (f32Div f32One d)
      (forN (n - (j + 1)) m (fun t u =>
        let i := j + 1 + t
        let e := forN (i - j) 0#32 (fun p acc => f32Fma (f32Neg (matGet u o i (j + p))) (matGet u o (j + p) j) acc)
        matSet u o i j (f32Div e (matGet u o i i))), none)

/-- CHOL and TRINV: the matrix lies in scratch at X[xs] (R242); a failed pivot is counted. -/
def State.vFactor (s : State) (e : Nat) (x : VIns) (col : Nat → Nat → Nat → Mem × Option Nat → Mem × Option Nat) : VRes :=
  let g := s.vec e
  let a := g.xreg x.xs
  let n := x.imm.toNat
  let o := a - scratchBase
  if !isScratch a ∨ n = 0 ∨ scratchBytes < o + 1024 * (n - 1) + 4 * n then { s := s, fault := 1 }
  else
    let r := forN n (g.scratch, none) (fun j st => col o n j st)
    let g := { g with scratch := r.1 }
    match r.2 with
    | some j => (s.count (rVecCtrFACTORFAILS (engDie e) (engInst e)) 1).setVecR e (g.setX x.xd j)
    | none => s.setVecR e (g.setX x.xd (2 ^ 64 - 1))

/-! ## Program order -/

/-- The program counter after an instruction, through every loop that ends there (R234). -/
def loopsEnd : Nat → List LoopFrame → Nat × List LoopFrame
  | pc, [] => (pc, [])
  | pc, f :: fs =>
    if pc = f.stop then
      (if f.left ≤ 1 then loopsEnd pc fs else (f.start, { f with left := f.left - 1, done := f.done + 1 } :: fs))
    else (pc, f :: fs)

/-- Loop counts of the record: 8 bits each, outermost in [7:0] (R420). -/
def loopWord (fs : List LoopFrame) : Nat := (indexed fs.reverse).foldl (fun n p => n + (p.2.done % 256) <<< (8 * p.1)) 0 % 2 ^ 32

/-- The next instruction of an engine's program, when its opcode is `op`. -/
def State.vnext (s : State) (e op : Nat) : Option (Run × VIns) :=
  match s.run e with
  | some r =>
    if s.goes e 4 then
      let x := s.vins r r.prog
      if x.op = op then some (r, x) else none
    else none
  | none => none

/-- An instruction is carried out (R235, R236): it is counted, and a fault stops the packet with its place and the loop
counts in the record. -/
def State.vstep (s : State) (die i op : Nat) (f : State → Nat → Run → VIns → VRes) : State :=
  let e := engineId 3 die i
  match s.vnext e op with
  | none => s
  | some (r, x) =>
    let o := f (s.count (rVecCtrINSTRUCTIONS die i) 1) e r x
    if o.fault ≠ 0 then
      (o.s.modRun e (fun q => { q with recInstr := r.prog % 65536, recChunk := loopWord r.loops })).memFaultRun e o.fault
    else
      let n := loopsEnd (r.prog + 1) r.loops
      o.s.modRun e (fun q => { q with prog := n.1, loops := n.2, executed := q.executed + 1 })

/-- LOOP (R234): the count is read once; 0 skips the body. -/
def State.vLoop (s : State) (die i : Nat) : State :=
  let e := engineId 3 die i
  match s.vnext e 0x28 with
  | none => s
  | some (r, x) =>
    let c := (s.vec e).xreg x.xs
    let len := x.imm.toNat
    let n := if c = 0 ∨ len = 0 then loopsEnd (r.prog + 1 + len) r.loops
      else (r.prog + 1, { start := r.prog + 1, stop := r.prog + 1 + len, left := c, done := 0 } :: r.loops)
    (s.count (rVecCtrINSTRUCTIONS die i) 1).modRun e (fun q => { q with prog := n.1, loops := n.2, executed := q.executed + 1 })

/-- The registers at packet start (R232). -/
def State.vecStart (s : State) (e : Nat) (r : Run) : State :=
  let g : Vec := { scratch := (s.vec e).scratch }
  let g := ((g.setX 0 (s.ld 8 (r.body + 8))).setX 1 r.genBase).setX 2 r.step
  s.setVec e ((List.range 6).foldl (fun g i => g.setX (3 + i) (listGet 0 r.shapes i)) g)

/-- VECTOR_PROGRAM (R232, R237): the engine's next packet starts. -/
def execVectorProgram (die i : Nat) (s : State) : Answer :=
  let e := engineId 3 die i
  answer s (
    if (s.run e).isSome then s
    else
      let t := s.startPacket e 4
      match t.run e with
      | some r => if r.stopped ∨ r.kind ≠ 4 then t else t.vecStart e r
      | none => t)

/-- FMA: vd := va × vb + vc, one rounding. -/
def execFma (die i : Nat) (s : State) : Answer :=
  answerNoMem s (s.vstep die i 0x01 (fun t e _ x => t.vArith e x (fun a b c => Fp.add (Fp.mul a b) c)))
/-- ADD: vd := va + vb. -/
def execAdd (die i : Nat) (s : State) : Answer :=
  answerNoMem s (s.vstep die i 0x02 (fun t e _ x => t.vArith e x (fun a b _ => Fp.add a b)))
/-- MUL: vd := va × vb. -/
def execMul (die i : Nat) (s : State) : Answer :=
  answerNoMem s (s.vstep die i 0x03 (fun t e _ x => t.vArith e x (fun a b _ => Fp.mul a b)))
/-- MAX: IEEE maximum. -/
def execMax (die i : Nat) (s : State) : Answer :=
  answerNoMem s (s.vstep die i 0x04 (fun t e _ x => t.vArith e x (fun a b _ => fpMax a b)))
/-- MIN: IEEE minimum. -/
def execMin (die i : Nat) (s : State) : Answer :=
  answerNoMem s (s.vstep die i 0x05 (fun t e _ x => t.vArith e x (fun a b _ => fpMin a b)))
/-- FUNC. -/
def execFunc (die i : Nat) (s : State) : Answer :=
  answerNoMem s (s.vstep die i 0x06 (fun t e _ x => t.vFun e x (vecFunc x.sub)))
/-- ACT, in a vector program: f(va) or f′(va). -/
def execVectorAct (die i : Nat) (s : State) : Answer :=
  answerNoMem s (s.vstep die i 0x07 (fun t e _ x => t.vFun e x (fun a _ => if x.vb = 0 then actF x.sub a else actD x.sub a)))
/-- CMP: a mask register. -/
def execCmp (die i : Nat) (s : State) : Answer := answerNoMem s (s.vstep die i 0x08 (fun t e _ x => t.vCmp e x))
/-- SEL: lane by lane, by a mask. -/
def execSel (die i : Nat) (s : State) : Answer := answerNoMem s (s.vstep die i 0x09 (fun t e _ x => t.vSel e x))
/-- RED: a reduction into lane 0. -/
def execRed (die i : Nat) (s : State) : Answer := answerNoMem s (s.vstep die i 0x0A (fun t e _ x => t.vRed e x))
/-- BCAST: one lane into all. -/
def execBcast (die i : Nat) (s : State) : Answer := answerNoMem s (s.vstep die i 0x0B (fun t e _ x => t.vBcast e x))
/-- LD: 256 elements of a plain format. -/
def execLd (die i : Nat) (s : State) : Answer := answer s (s.vstep die i 0x10 (fun t e _ x => t.vLd e x))
/-- ST: converted elements. -/
def execSt (die i : Nat) (s : State) : Answer := answer s (s.vstep die i 0x11 (fun t e r x => t.vSt e r x))
/-- LDB: 256 elements of a block format. -/
def execLdb (die i : Nat) (s : State) : Answer := answer s (s.vstep die i 0x12 (fun t e _ x => t.vLdb e x))
/-- STB: whole blocks, scales derived. -/
def execStb (die i : Nat) (s : State) : Answer := answer s (s.vstep die i 0x13 (fun t e r x => t.vStb e r x))
/-- STACC: an accumulate-write. -/
def execStacc (die i : Nat) (s : State) : Answer := answer s (s.vstep die i 0x14 (fun t e r x => t.vStacc e r x))
/-- RNG: words, uniforms or Gaussians. -/
def execRng (die i : Nat) (s : State) : Answer := answerNoMem s (s.vstep die i 0x18 (fun t e r x => t.vRng e r x))
/-- XADD. -/
def execXadd (die i : Nat) (s : State) : Answer := answerNoMem s (s.vstep die i 0x20 (fun t e _ x => t.vXadd e x))
/-- XSHL. -/
def execXshl (die i : Nat) (s : State) : Answer := answerNoMem s (s.vstep die i 0x21 (fun t e _ x => t.vXshl e x))
/-- XLD. -/
def execXld (die i : Nat) (s : State) : Answer := answer s (s.vstep die i 0x22 (fun t e _ x => t.vXld e x))
/-- LOOP. -/
def execLoop (die i : Nat) (s : State) : Answer := answerNoMem s (s.vLoop die i)
/-- PROGRAM_END (R239): END has issued; every store of the model is accepted at once. -/
def execProgramEnd (die i : Nat) (s : State) : Answer :=
  answerNoMem s (
    let e := engineId 3 die i
    match s.vnext e 0x29 with
    | none => s
    | some _ => (s.count (rVecCtrINSTRUCTIONS die i) 1).modRun e (fun q => { q with retired := true, executed := q.executed + 1 }))
/-- CHOL. -/
def execChol (die i : Nat) (s : State) : Answer := answer s (s.vstep die i 0x30 (fun t e _ x => t.vFactor e x cholCol))
/-- TRINV. -/
def execTrinv (die i : Nat) (s : State) : Answer := answer s (s.vstep die i 0x31 (fun t e _ x => t.vFactor e x trinvCol))

end Sys2Proof.Machine
end

