-- ==== Sys2Proof/Machine/Replay.lean ====
section
/-!
DEFINITION. Machine/Replay.lean: replays (R203 to R206) and failed restores. REPLAY_START takes the head of a die's replay
queue, sees to its inputs, places one segment at a time on its engine and takes it off again when it has run; the segment
runs by the commands of its own instructions. REPLAY_END ends the replay.
-/

namespace Sys2Proof.Machine

def State.modReplay (s : State) (die g : Nat) (f : Replay → Replay) : State :=
  s.modYoyo die (fun y => { y with replays := y.replays.map (fun r => if r.grain == g then f r else r) })

/-- The replay in hand on a core: the innermost it has taken. -/
def State.replayOn (s : State) (die c : Nat) : Option Replay := (s.yoyo die).replays.find? (fun r => r.core == some c)

/-- The string of a replay. -/
def State.stringOf (s : State) (r : Replay) : RString := s.stringAt (s.grain r.grain).replay

/-- A replay and every replay that encloses it fail (R205). -/
def State.failChain (s : State) (die : Nat) : Nat → Nat → State
  | 0, _ => s
  | n + 1, g =>
    match (s.yoyo die).replays.find? (fun r => r.grain == g) with
    | none => s
    | some r =>
      let s := s.modReplay die g (fun r => { r with failed := true })
      match r.parent with
      | some p => State.failChain s (grainDie p) n p
      | none => s

/-- An input that fails the replay (R204): EMPTY, or LIVE and not complete. -/
def Grain.lost (x : Grain) : Bool := x.state == 0 || (x.state == 1 && !x.complete)

/-- The replays that enclose a replay, itself the first (R205). -/
def State.enclosing (s : State) : Nat → Nat → List Nat
  | 0, _ => []
  | n + 1, g =>
    match (s.yoyo (grainDie g)).replays.find? (fun r => r.grain == g) with
    | none => []
    | some r => g :: (match r.parent with
      | some p => State.enclosing s n p
      | none => [])

/-- A replay would have depth 5 (R205): the fault is recorded, and every enclosing replay fails. -/
def State.tooDeep (s : State) (die : Nat) (r : Replay) : State :=
  ((s.alarm (engineId 8 die 0) 8).setFlag (rYoyoStatus die) 19 true).failChain die 5 r.grain

/-- A replay that is still queued comes before the one that needs it, one level deeper (R205). -/
def State.nestReplay (s : State) (i : Nat) (r : Replay) : State :=
  match (s.yoyo (grainDie i)).replays.find? (fun q => q.grain == i) with
  | some q =>
    if q.core.isSome then s
    else
      let q' := { q with depth := r.depth + 1, parent := some r.grain }
      (s.modYoyo (grainDie i) (fun y => { y with replays := joinReplay q' (y.replays.erase q) })).modGrain i
        (fun x => { x with depth := r.depth + 1 })
  | none => s

/-- One input at replay start (R204, R205): its restore begins at once; a dropped one as a replay one level deeper. A string
that names its own grain, directly or through others, would nest without end. -/
def State.replayInput (s : State) (die : Nat) (r : Replay) (i : Nat) : State :=
  let x := s.grain i
  if x.lost then s.modReplay die r.grain (fun r => { r with failed := true })
  else if x.outbound then s.abandonStore i
  else if (s.enclosing 5 r.grain).contains i then s.tooDeep die r
  else if x.state = 6 then (if 4 ≤ r.depth then s.tooDeep die r else s.nestReplay i r)
  else if !x.stored' then s
  else if s.rawConflict i then s.modReplay die r.grain (fun r => { r with failed := true })
  else if x.state = 5 then (if 4 ≤ r.depth then s.tooDeep die r else s.beginRestore i (r.depth + 1) (some r.grain))
  else if (s.yoyo (grainDie i)).xfers.length < 32 then s.beginRestore i 1 none
  else s.modYoyo (grainDie i) (fun y => { y with restoreQ := i :: y.restoreQ.filter (fun q => q != i) })

/-- A core takes a replay: its inputs are held, and their restores begin. -/
def State.replayTake (s : State) (die c : Nat) (r : Replay) : State :=
  let ins := ((s.stringOf r).inputs).filter (fun i => i != 0xFFFFFFFF)
  let s := s.modReplay die r.grain (fun r => { r with core := some c, held := ins })
  ins.foldl (fun t i => t.replayInput die r i) s

/-- The run of a segment (R204): no window, the step in force, shape words read now. -/
def State.segRun (s : State) (r : Replay) (b : Bind) (p : Packet) : Run × List Nat :=
  let n : NextPacket := { bind := b, step := s.stepNow, packet := p, start := 0, stop := 0, budget := (s.stringOf r).budget }
  let bounds := s.boundsOf n
  let run := { n.toRun with
    judged := true, replayOf := some r.grain, began := s.now, rampCfg := bitsOf (s.act rPwrRampCfg) 1 0 }
  match s.shapeWords n with
  | some ws => ({ run with shapes := ws, dimsUsed := bounds.2 }, bounds.1)
  | none => (run, bounds.1)

/-- The shape check of a segment's packet (R49); a fault code. -/
def State.segShapes (s : State) (p : Packet) (q : Run) (bounds : List Nat) : Nat :=
  if q.shapes.isEmpty then 0 else if s.badRange p.shapes 24 then 6 else shapeCheck q.shapes bounds q.dimsUsed

/-- A run of which only some items are taken (R204); `n = 0` takes them all. A DONE_EMPTY packet has none. -/
def Run.onlyItems (q : Run) (first n : Nat) : Run :=
  if q.retired ∨ n = 0 then (if q.retired then q else { q with cur := { q.cur with next := 0 } })
  else
    let stop := capAt q.cur.items (first + n)
    { q with cur := { q.cur with next := first, items := stop }, retired := decide (stop ≤ first) }

/-- The start of a matrix sequence in a segment (R106): a fault code, or 0; and the run. -/
def State.segMatrix (s : State) (q : Run) : Nat × Run :=
  let m := s.seqOf q
  if q.spareWords 4 ∨ m.k % 32 ≠ 0 ∨ 65536 < m.batch ∨ 2 ^ 32 ≤ m.items then (1, q)
  else if m.m = 0 ∨ m.n = 0 ∨ m.batch = 0 then (0, { q with status := 1, retired := true })
  else (0, q.beginItems m.items 0 false)

/-- The start of a segment's packet on its stream (R106, R147, R176, R204). Row records of another replay's packets are
dropped. -/
def State.segStart (s : State) (die c e : Nat) (q : Run) (sg : Nat × Nat × Nat) : State :=
  let o := match q.kind with
    | 1 => s.segMatrix q
    | 2 => s.attOpen q die c
    | _ => s.convStart q die c
  if o.1 ≠ 0 then s.memFaultRun e o.1
  else
    let q' := o.2.onlyItems sg.2.1 sg.2.2
    let s := { s with att := s.att.filter (fun x => x.1 / 2 ^ 64 != 1 + e) }
    if q.kind ≠ 2 then s.setRun e q'
    else
      let a := s.attOf q
      let s := (if a.count = 0 then s else s.noteRead a.list (64 * a.count)).setRun e q'
      if q'.aux.isEmpty then s
      else match s.attEmpty e q' a with
        | (t, 0) => t
        | (t, code) => t.memFaultRun e code

/-- A segment has run: its engine is free again, its packet is reported, and the replay goes on or fails. `cycles`: the ECLK
cycles a vector segment was in hand (R245). -/
def State.segEnd (s : State) (die e cycles : Nat) (r : Replay) : State :=
  match s.run e with
  | none => s
  | some q =>
    if s.runBusy e q || s.snap.held.any (fun h => h.engine == some e) then s
    else
      let s := if engClass e = 3 then s.count (rVecCtrBUSYCYCLES (engDie e) (engInst e)) cycles else s.clearStream e
      let s := (s.modEngine e (fun g => { g with run := none })).dropKv e
      (s.report e q).modReplay die r.grain (fun r => if q.stopped then { r with failed := true } else { r with seg := r.seg + 1 })

/-- The next segment of a replay (R204): it is placed on its engine, and when it has run it ends. -/
def State.replaySeg (s : State) (die c cycles : Nat) (r : Replay) (sg : Nat × Nat × Nat) : State :=
  match s.binding.active with
  | none => s
  | some b => match s.findPacket b.addr sg.1 with
    | none => s.modReplay die r.grain (fun r => { r with failed := true })
    | some (list, p) =>
      let e := if p.kind = 4 then list else streamEngine die c 1
      match s.run e with
      | some q => if q.replayOf = some r.grain ∧ (q.retired ∨ q.stopped) then s.segEnd die e cycles r else s
      | none =>
        if s.engineBlocked e || (p.kind != 4 && s.heldOff die c 1 p.kind p.body) then s
        else
          let sr := s.segRun r b p
          let s := s.setRun e sr.1
          let fault := s.segShapes p sr.1 sr.2
          if s.badRange (p.body - 64) (64 + p.bodyLen) then s.memFaultRun e 6
          else if fault ≠ 0 then s.memFaultRun e fault
          else if p.kind = 4 then s.vecStart e sr.1
          else if s.coreFenced die c then s.faultRun e 0x0A
          else s.segStart die c e sr.1 sg

/-- The replay a core takes now (R204, R205): the head of the queue when its stream B is free, or one nested in the replay it
has in hand, which has not begun its segments. -/
def State.replayNext (s : State) (die c : Nat) : Option Replay :=
  let queued := (s.yoyo die).replays.filter (fun r => r.core.isNone)
  let e := streamEngine die c 1
  match s.replayOn die c with
  | some r => if r.begun ∨ r.failed then none else queued.find? (fun h => h.parent == some r.grain)
  | none => if bitOf (s.act (rYoyoReplayCores die)) c && (s.run e).isNone && !s.engineBlocked e then queued.head? else none

/-- REPLAY_START (R204, R205): a replay core takes the head of the queue, or a nested replay its own one waits for; the
inputs are awaited; then its segments run one after another. `cycles` as in `segEnd`. -/
def execReplayStart (die : Nat) (c : Timed) (s : State) : Answer :=
  answer s (
    let cycles := c.cycles
    let c := c.unit
    if 2 ≤ die ∨ 64 ≤ c then s
    else match s.replayNext die c, s.replayOn die c with
      | some h, _ => s.replayTake die c h
      | none, none => s
      | none, some r =>
        if r.failed then s
        else if !r.begun then
          if r.held.all (fun i => (s.grain i).complete) then s.modReplay die r.grain (fun r => { r with begun := true })
          else if r.held.any (fun i => (s.grain i).lost) then s.modReplay die r.grain (fun r => { r with failed := true })
          else s
        else match ((s.stringOf r).segs)[r.seg]? with
          | some sg => s.replaySeg die c cycles r sg
          | none => s)

/-- A replay leaves its core: its inputs are no longer held. -/
def State.replayDrop (s : State) (die : Nat) (r : Replay) : State :=
  let s := s.modYoyo die (fun y => { y with replays := y.replays.filter (fun q => q.grain != r.grain) })
  r.held.foldl (fun t i =>
    if (t.grain i).releaseDue && (t.grain i).complete then
      (t.modGrain i (fun x => { x with releaseDue := false })).releaseGrain i
    else t) s

/-- A replay ends without its grain (R204 to R206). -/
def State.replayFail (s : State) (die : Nat) (r : Replay) : State :=
  ((s.replayDrop die r).count (rYoyoCtrREPLAYFAILURES die) 1).failGrain r.grain

/-- REPLAY_END (R204): the last segment has ended and every tap of it has been judged, or the replay has failed;
`waited`: ECLK cycles summed over the consumers that waited for the grain (R214). -/
def execReplayEnd (die c waited : Nat) (s : State) : Answer :=
  answer s (
    match s.replayOn die c with
    | none => s
    | some r =>
      let left := (s.yoyo 0).taps.any (fun t => t.replayOf == some r.grain) || (s.yoyo 1).taps.any (fun t => t.replayOf == some r.grain)
      if 2 ≤ die ∨ !(r.failed || (r.begun && decide ((s.stringOf r).segs.length ≤ r.seg) && !left)) then s
      else
        let s := s.countWaited r.grain waited
        let x := s.grain r.grain
        if r.failed ∨ !(x.adoptFill || x.filled == x.fillBytes) then s.replayFail die r
        else ((s.replayDrop die r).count (rYoyoCtrREPLAYS die) 1).restored r.grain)

/-- RESTORE_FAILURE (R206): a restore that met a host error, an uncorrectable read or a codec rejection, or whose replay
failed; `waited` as in REPLAY_END. -/
def execRestoreFailure (g waited : Nat) (s : State) : Answer :=
  answer s (
    let d := grainDie g
    match s.xferOf g, (s.yoyo d).replays.find? (fun r => r.grain == g) with
    | some f, _ =>
      if (s.grain g).state = 7 ∧ !f.outbound ∧ f.failed then
        (s.failGrain g).countWaited g waited
      else s
    | none, some r => if r.failed then (s.replayFail d r).countWaited g waited else s
    | none, none => s)

end Sys2Proof.Machine
end

