-- ==== Sys2Proof/Machine/Directive.lean ====
section
/-!
DEFINITION. Machine/Directive.lean: residency directives, kind 9 (R208, R209), one entry a command; the first entry's
command starts the packet (log 1).
-/

namespace Sys2Proof.Machine

/-- Entry `i` of a directive body: op, arg, grain. -/
def State.directiveAt (s : State) (body i : Nat) : Nat × Nat × Nat :=
  let a := body + 16 + 8 * i
  (s.ld 1 a, s.ld 1 (a + 1), s.ld 4 (a + 4) % 2 ^ 20)

/-- ADOPT: the producer's data at raw_base becomes the grain. -/
def State.adopt (s : State) (g : Nat) : Option State :=
  let x := s.grain g
  if !x.bound ∨ x.state ≠ 0 ∨ !x.adoptFill then none
  else if s.rawConflict g then none
  else some (((s.enterLive g x.fillBytes).count (rYoyoCtrADOPTEDBYTES (grainDie g)) x.fillBytes).grainComplete g)

/-- RESTORE: a demand restore begins. -/
def State.directRestore (s : State) (g : Nat) : Option State :=
  let x := s.grain g
  if x.bound && (x.stored' || x.outbound) then some (s.demand g) else none

/-- RELEASE, as R194, which releases no grain that is still being filled or is on its way out. -/
def State.directRelease (s : State) (g : Nat) : Option State :=
  let x := s.grain g
  if x.bound && (x.complete || x.stored' || x.state == 6 || (x.state == 7 && x.dest == 1)) then some (s.releaseGrain g) else none

/-- Whether a grain's entry holds what a policy needs (R195, R209): an address of the right kind, a profile, a string. -/
def Grain.canTake (x : Grain) (code : Nat) : Bool :=
  match code with
  | 1 => x.policy == 1
  | 2 => x.policy == 2 || x.policy == 3
  | 3 => x.policy == 3
  | 4 => x.replay != 0xFFFF
  | _ => false

/-- DEMOTE: a policy applied now. An input that a replay holds LIVE leaves LIVE when the replay ends (R204). -/
def State.demote (s : State) (g code : Nat) : Option State :=
  let x := s.grain g
  if x.bound && x.complete && (x.usesLeft == 0 || x.hold) && x.canTake code then
    let s := s.modYoyo (grainDie g) (fun y => { y with storeQ := y.storeQ.filter (fun q => q != g) })
    some (if code = 4 ∧ s.replayHolds g then
      (s.setGrain g { x with dest := 5 }).modYoyo (grainDie g) (fun y => { y with storeQ := y.storeQ ++ [g] })
    else s.applyPolicy g code)
  else none

/-- HOLD and UNHOLD: in any state, also of a descriptor that no entry binds. -/
def State.directHold (s : State) (g : Nat) : Option State := some (s.modGrain g (fun x => { x with hold := true }))
def State.directUnhold (s : State) (g : Nat) : Option State :=
  let t := s.modGrain g (fun x => { x with hold := false })
  some (if (t.grain g).usesLeft = 0 then t.releaseGrain g else t)

/-- An entry that the grain's state does not allow is ignored and counted (R209). -/
def State.ignored (s : State) (die e g : Nat) (op : Nat) : State :=
  let s := (s.count (rYoyoCtrIGNOREDDIRECTIVES die) 1).modRun e (fun r => r.withStatus 2)
  let x := s.grain g
  if op = 1 ∧ x.bound ∧ x.state = 0 ∧ x.adoptFill then s.setFlag (rYoyoStatus die) 17 true else s

/-- Entries of the packet an engine would take next. -/
def State.nextEntries (s : State) (e : Nat) : Nat :=
  match s.nextPacket e with
  | some (n, _, _, _) => match s.shapeWords n with
    | some ws => listGet 0 ws 0
    | none => s.ld 4 n.packet.body
  | none => 0

/-- The next directive entry of a die's Yo-yo, when its op is `op`. -/
def State.directive (s : State) (die op : Nat) (f : State → Nat → Nat → Option State) : State :=
  let e := engineId 8 die 0
  let apply := fun (s : State) (r : Run) =>
    let n := r.dim 0 (s.ld 4 r.body)
    if n = 0 then s.setRun e { r with status := 1, retired := true }
    else
      let x := s.directiveAt r.body r.prog
      if x.1 ≠ op then s
      else
        let s := s.modRun e (fun q => { q with prog := q.prog + 1, executed := q.executed + 1, retired := decide (n ≤ q.prog + 1) })
        match f s x.2.1 x.2.2 with
        | some t => t
        | none => s.ignored die e x.2.2 op
  if 2 ≤ die then s
  else match s.run e with
    | some r => if s.goes e 9 then apply s r else s
    | none =>
      if s.nextIs e 9 (fun b => (s.directiveAt b 0).1 == op) || (s.nextIs e 9 (fun _ => true) && s.nextEntries e == 0) then
        let t := s.startPacket e 9
        match t.run e with
        | some r => if r.stopped then t else apply t r
        | none => t
      else s

/-- ADOPT (R209). `waited`: the ECLK cycles, together, of the consumers that waited for the grain (R214). -/
def execAdopt (die : Timed) (s : State) : Answer :=
  answer s (s.directive die.unit 1 (fun t _ g => (t.adopt g).map (fun u => u.countWaited g die.cycles)))
/-- RESTORE (R209). -/
def execRestore (die : Nat) (s : State) : Answer := answer s (s.directive die 2 (fun t _ g => t.directRestore g))
/-- RELEASE (R209). -/
def execRelease (die : Nat) (s : State) : Answer := answer s (s.directive die 3 (fun t _ g => t.directRelease g))
/-- DEMOTE (R209). -/
def execDemote (die : Nat) (s : State) : Answer := answer s (s.directive die 4 (fun t a g => t.demote g a))
/-- HOLD (R209). -/
def execHold (die : Nat) (s : State) : Answer := answer s (s.directive die 5 (fun t _ g => t.directHold g))
/-- UNHOLD (R209). -/
def execUnhold (die : Nat) (s : State) : Answer := answer s (s.directive die 6 (fun t _ g => t.directUnhold g))

end Sys2Proof.Machine
end

