-- ==== Sys2Proof/Machine/CodecJob.lean ====
section
/-!
DEFINITION. Machine/CodecJob.lean: codec jobs, kind 7 (R229, R231). One command starts a job and carries it out (log 1).
-/

namespace Sys2Proof.Machine

/-- A codec job body (R229). -/
structure CJob where
  op : Nat
  profile : List Byte
  src : Nat
  dst : Nat
  raw : Nat
  limit : Nat
  status : Nat
  deriving DecidableEq, Repr

def State.cjobOf (s : State) (b : Nat) : CJob :=
  { op := s.ld 1 b, profile := s.peek (b + 8) 16, src := s.ld 6 (b + 0x18), dst := s.ld 6 (b + 0x20), raw := s.ld 4 (b + 0x28),
    limit := s.ld 4 (b + 0x2C), status := s.ld 6 (b + 0x30) }

/-- The status record: stored_bytes, then raw_bytes. -/
def State.cjobStatus (s : State) (e : Nat) (j : CJob) (stored raw : Nat) : State :=
  let r := s.put (some e) j.status (leBytes 4 stored ++ leBytes 4 raw ++ List.replicate 8 0#8)
  if r.2 ≠ 0 then r.1.memFaultRun e r.2 else r.1.retire e

/-- ENCODE: the stored form within dst_limit, or BUFFER_OVERFLOW before the first byte past it. How far the source had
been rewritten when an encode overflows, and how many zero and NaN blocks had been encoded, are free values (log 42). -/
def State.cjobEncode (s : State) (e : Nat) (j : CJob) : State :=
  let d := engDie e
  let i := engInst e
  match profileOf j.profile, s.load j.src j.raw with
  | none, _ => s.faultRun e 1
  | _, .fault c => s.memFaultRun e c
  | some p, .ok raw =>
    let out := codecEncode p 0xFFFFF raw
    let n := out.form.length
    if n ≤ j.limit then
      let a := s.put (some e) j.src out.raw
      let b := a.1.put (some e) (j.dst + 64) (out.form.drop 64)
      let c := b.1.put (some e) j.dst (out.form.take 64)
      let fault := firstFault [a.2, b.2, c.2]
      if fault ≠ 0 then c.1.memFaultRun e fault
      else
        let s := ((((c.1.noteRead j.src raw.length).count (rCodecCtrENCRAWBYTES d i) raw.length).count (rCodecCtrENCSTOREDBYTES d i) n).count
          (rCodecCtrZEROBLOCKS d i) out.zeros).count (rCodecCtrNANBLOCKS d i) out.nans
        s.cjobStatus e j n raw.length
    else
      let (s, k) := s.draw 13
      let k := k % (raw.length + 1) / p.elemBytes * p.elemBytes
      let (s, z) := s.draw 13
      let (s, nn) := s.draw 13
      let a := s.put (some e) j.src (out.raw.take k ++ raw.drop k)
      let b := a.1.put (some e) (j.dst + 64) ((out.form.drop 64).take (j.limit - 64))
      let s := ((((b.1.noteRead j.src raw.length).count (rCodecCtrENCRAWBYTES d i) k).count (rCodecCtrENCSTOREDBYTES d i)
        (j.limit - 64)).count (rCodecCtrZEROBLOCKS d i) (z % (out.zeros + 1))).count (rCodecCtrNANBLOCKS d i) (nn % (out.nans + 1))
      s.faultRun e 4

/-- A grain header whose magic, version and CRC are right (R222): only then is the rest of the form read. -/
def formHead (head : List Byte) : Bool :=
  leNat (head.take 4) == 0x47434E48 && leNat ((head.drop 4).take 1) == 1 &&
    leNat ((head.drop 0x2C).take 4) == crc32c (head.take 0x2C)

/-- DECODE: the raw bytes, or ISSUE_SHAPE (R227, R229). -/
def State.cjobDecode (s : State) (e : Nat) (j : CJob) : State :=
  let d := engDie e
  let i := engInst e
  match s.load j.src 64 with
  | .fault c => s.memFaultRun e c
  | .ok head =>
    let stored := leNat ((head.drop 0x1C).take 4)
    if !formHead head then (s.count (rCodecCtrREJECTED d i) 1).faultRun e 1
    else if j.limit < leNat ((head.drop 0x18).take 4) then s.faultRun e 1
    else match s.load j.src (if stored < 64 then 64 else stored) with
      | .fault c => s.memFaultRun e c
      | .ok form =>
        let s := (s.noteRead j.src form.length).count (rCodecCtrDECSTOREDBYTES d i) form.length
        match codecDecode none form with
        | none => (s.count (rCodecCtrREJECTED d i) 1).faultRun e 1
        | some raw =>
          let r := s.put (some e) j.dst raw
          if r.2 ≠ 0 then r.1.memFaultRun e r.2
          else (r.1.count (rCodecCtrDECRAWBYTES d i) raw.length).cjobStatus e j stored raw.length

/-- A job, which is one instruction (R38): it starts and is carried out. -/
def State.cjob (s : State) (die unit op : Nat) : State :=
  let e := engineId 6 die unit
  s.packetStep e 7 (fun b => s.ld 1 b == op) (fun s r =>
    let j := s.cjobOf r.body
    let s := s.modRun e (fun q => { q with executed := 1 })
    if op = 1 then s.cjobEncode e j else s.cjobDecode e j)

/-- ENCODE (R229). -/
def execEncode (die unit : Nat) (s : State) : Answer := answer s (s.cjob die unit 1)
/-- DECODE (R229). -/
def execDecode (die unit : Nat) (s : State) : Answer := answer s (s.cjob die unit 2)

end Sys2Proof.Machine
end

