-- ==== Sys2Proof/Machine/Link.lean ====
section
/-!
DEFINITION. Machine/Link.lean: packet headers (R308, R309), where a packet leaves (R314, R316), the owner map's
resolution (R292), the receiving side of a link (R310 to R313), and a port going DOWN (R307, R311, R314).
-/

namespace Sys2Proof.Machine

/-- An n-byte little-endian field of a byte list. -/
def fieldAt (bs : List Byte) (o n : Nat) : Nat := leNat ((bs.drop o).take n)

/-! ## Sending -/

/-- Bytes 0x00 to 0x07 of a header (R308). -/
def TxPkt.front (own : Nat) (t : TxPkt) : List Byte :=
  leBytes 2 t.dst ++ leBytes 2 own ++ leBytes 1 (t.vc + 4 * b2n t.mcast) ++ leBytes 1 t.ptype ++ leBytes 2 t.payload.length

/-- Bytes 0x18 to 0x3B of a header (R308). -/
def TxPkt.back (t : TxPkt) : List Byte :=
  leBytes 2 t.stepTag ++ leBytes 2 t.bushel ++ leBytes 4 t.index ++ leBytes 4 t.aux ++ leBytes 8 t.ext ++ List.replicate 16 0#8

/-- A packet as it travels, with its 16-byte link field. -/
def TxPkt.bytes (own : Nat) (link : List Byte) (t : TxPkt) : List Byte :=
  let f := t.front own
  let b := t.back
  f ++ link ++ b ++ leBytes 4 (crc32c (f ++ b ++ t.payload)) ++ t.payload

/-- Credits a packet costs (R312). -/
def TxPkt.units (t : TxPkt) : Nat := (64 + t.payload.length) / 64

/-- HUB.FABRIC_ID in force. -/
def State.ownId (s : State) : Nat := s.act rHubFabricId % 65536

/-- The ports that are both enabled and UP (R314). -/
def State.upPorts (s : State) : List Nat :=
  (List.range 4).filter (fun p => bitOf (s.act (rFabCtrl p)) 0 && (s.port p).state == 2)

/-- The port a unicast packet to a destination leaves on (R314). -/
def Route.portOf (rt : Route) (dst : Nat) : Option Nat := rt.up[dst % rt.up.length]?

/-- What fixes ports and destinations, as it stands now (R292, R314, R316). -/
def State.routeNow (s : State) : Route :=
  { up := s.upPorts, multi := s.upPorts.filter (fun p => (s.port p).mcastCap),
    groups := ((List.range 64).map (fun i => (s.act (rHubMcastMap i) % 65536, s.act (rHubMcastMap i) / 65536 % 65536))).filter
      (fun g => g.2 != 0xFFFF),
    owners := s.snap.ownerMap }

/-- An ID resolved through the owner map, transitively (R292). -/
def resolveId (m : List (Nat × Nat)) : Nat → Nat → Nat
  | 0, x => x
  | n + 1, x => match m.find? (fun e => e.1 == x) with
    | some e => if e.2 = x then x else resolveId m n e.2
    | none => x

def State.resolveId (s : State) (x : Nat) : Nat := Machine.resolveId s.snap.ownerMap 64 x

/-- A port keeps what is queued for it: UP, or RETRAIN (R311, R314). -/
def Port.carries (q : Port) : Bool := q.state == 2 || q.state == 3

/-- Queue a packet on a port: it never moves to another (R314). `false` where the port has gone DOWN since the packet's
send started: the packet is discarded and counted. -/
def State.enqueue (s : State) (p : Nat) (t : TxPkt) : State × Bool :=
  if (s.port p).carries then
    (s.modPort p (fun q => { q with queues := listPut [] 4 q.queues t.vc (listGet [] q.queues t.vc ++ [t]) }), true)
  else (s.count (rFabCtrTXDISCARDED p) 1, false)

/-- One packet to one module: by the local path to this module itself, else by its port; `false` where it is discarded. -/
def State.sendTo (s : State) (rt : Route) (dst : Nat) (t : TxPkt) : State × Bool :=
  if dst = s.ownId then ({ s with localQ := s.localQ ++ [{ t with dst := dst }] }, true)
  else match rt.portOf dst with
    | some p => s.enqueue p { t with dst := dst }
    | none => (s, false)

/-- The module IDs of a list of a job table (R249). -/
def JobTable.list (j : JobTable) (i : Nat) : List Nat := (j.lists[i]?).getD []

/-- The same, of the job table in force. -/
def State.jobList (s : State) (i : Nat) : List Nat := s.job.list i

/-- The group HUB.MCAST_MAP gives a list, and its port, where multicast applies (R316). -/
def Route.mcastOf (rt : Route) (list : Nat) : Option (Nat × Nat) :=
  match rt.groups.find? (fun g => g.1 == list) with
  | none => none
  | some g => match rt.portOf g.2 with
    | some p => if rt.multi.contains p then some (g.2, p) else none
    | none => none

/-- A packet to every module of a list but this one (R316): once, with MCAST, or as one unicast copy per destination in
list order; the job table says which modules list `list` holds. `false` where a copy is discarded. -/
def State.sendAll (s : State) (rt : Route) (j : JobTable) (list : Nat) (t : TxPkt) : State × Bool :=
  let others := (j.list list).filter (fun d => d != s.ownId)
  if others.isEmpty then (s, true)
  else match rt.mcastOf list with
    | some gp => s.enqueue gp.2 { t with dst := gp.1, mcast := true }
    | none => others.foldl (fun a d => let r := a.1.sendTo rt d t; (r.1, a.2 && r.2)) (s, true)

/-- The hub transfer engine (R44). -/
def hubEngine : Nat := engineId 9 0xFF 0

/-- The sending packet in hand completes with DONE_WARN (R314). -/
def State.warnSend (s : State) : State := s.modRun hubEngine (fun r => r.withStatus 2)

/-! ## Ports -/

/-- Everything queued for a port or held in its retry buffer is discarded and counted, and a sending packet that had
packets among it completes with DONE_WARN (R311, R314). -/
def State.dropQueued (s : State) (p : Nat) : State :=
  let q := s.port p
  let gone := q.queues.flatten ++ q.retry.map (fun r => r.2.1)
  let s := s.setPort p
    { q with queues := [[], [], [], []], retry := [], resend := [], credits := [0, 0, 0, 0], owed := [0, 0, 0, 0], naks := 0,
             nakDue := false, ackDue := false, trained := false, width := 0, mcastCap := false, mayWiden := false, fresh := false,
             rxBuf := q.rxBuf.map (fun x => { x with old := true }) }
  let s := s.count (rFabCtrTXDISCARDED p) gone.length
  match s.run hubEngine with
  | some r => if gone.any (fun t => t.pid == r.pid) then s.warnSend else s
  | none => s

/-- A port goes DOWN (R307). -/
def State.portDown (s : State) (p : Nat) : State :=
  let s := (s.dropQueued p).modPort p (fun q => { q with state := 0 })
  (s.count (rFabCtrDOWNS p) 1).setFlag (rFabStatus p) 16 true

/-! ## The receiving side of a link -/

/-- `b` comes after `a` within half the 16-bit circle. -/
def seqAfter (a b : Nat) : Bool := decide (0 < (b + 65536 - a) % 65536) && decide ((b + 65536 - a) % 65536 < 32768)

/-- Acknowledgement and NAK of a link field (R308, R311): packets up to link_ack leave the retry buffer; a NAK has the
rest put out again, and the eighth in a row for one packet takes the port DOWN. -/
def State.linkAck (s : State) (p : Nat) (b : List Byte) : State :=
  let flags := fieldAt b 0x0C 1
  if !bitOf flags 0 && !bitOf flags 1 then s
  else
    let ack := fieldAt b 0x0A 2
    let q := s.port p
    let kept := q.retry.filter (fun r => seqAfter ack r.1)
    let moved := decide (kept.length < q.retry.length)
    let q := { q with retry := kept, resend := q.resend.filter (fun n => seqAfter ack n), naks := if moved then 0 else q.naks }
    if !bitOf flags 1 then s.setPort p q
    else
      let n := if q.nakSeq = ack + 1 ∧ 0 < q.naks then q.naks + 1 else 1
      let s := s.setPort p { q with naks := n, nakSeq := ack + 1, resend := kept.map (fun r => r.1) }
      if 8 ≤ n then s.portDown p else s

/-- Credits a link field returns. -/
def State.linkCredits (s : State) (p : Nat) (b : List Byte) : State :=
  s.modPort p (fun q =>
    { q with credits := (List.range 4).map (fun v => listGet 0 q.credits v + fieldAt b (0x10 + 2 * v) 2) })

/-- FEC codewords of what a port received (R320): corrected, and uncorrectable, for which a NAK is due (R311). -/
def State.fecSeen (s : State) (p fixed bad : Nat) : State :=
  let s := (s.count (rFabCtrFECCORRECTED p) fixed).count (rFabCtrFECUNCORRECTABLE p) bad
  if bad = 0 then s else s.modPort p (fun q => { q with nakDue := true })

/-- A received packet at the link layer (R311): whether it is accepted. A packet that overlaps an uncorrectable codeword
is discarded and answered with NAK; one out of order is discarded; a duplicate is discarded and acknowledged. What its
own link field does to the port comes after its acceptance, which a fault of the port does not undo. -/
def State.linkIn (s : State) (p : Nat) (b : List Byte) (fixed bad : Nat) : State × Bool :=
  if (s.port p).state ≠ 2 then (s, false)
  else
    let s := s.fecSeen p fixed bad
    if bad ≠ 0 then (s, false)
    else if b.length < 64 then (s.count (rFabCtrCRCDROPS p) 1, false)
    else
      let q := s.port p
      let seq := fieldAt b 8 2
      if seq = (q.rxSeq + 1) % 65536 then
        let s := (s.setPort p { q with rxSeq := seq, ackDue := true }).linkCredits p b
        ((s.count (rFabCtrRXPACKETS p) 1).linkAck p b, true)
      else ((s.setPort p { q with ackDue := q.ackDue || !seqAfter q.rxSeq seq }).linkAck p b, false)

/-- A packet leaves the receive buffer, and its credits are owed to the other end (R312), unless the link has gone DOWN
since. -/
def State.leave (s : State) (p : Nat) (x : RxPkt) : State :=
  if 4 ≤ p || x.old || !(s.port p).carries then s
  else s.modPort p (fun q => { q with owed := listPut 0 4 q.owed x.vc (listGet 0 q.owed x.vc + x.units) })

/-- Whether an END belongs to a mirror send (R309). -/
def mirrorEnd (b : List Byte) : Bool := fieldAt b 5 1 == 2 && fieldAt b 0x1A 2 == 0xFFFF

/-- Whether the reserved bits and bytes of a header are zero (R308). -/
def headClean (b : List Byte) : Bool :=
  fieldAt b 4 1 / 8 == 0 && fieldAt b 0x0C 1 / 4 == 0 && fieldAt b 0x0D 3 == 0 && fieldAt b 0x2C 16 == 0

/-- Whether type, VC, length and type fields are legal and reserved fields zero (R309, R246). -/
def pktLegal (b : List Byte) : Bool :=
  let vc := fieldAt b 4 1 % 4
  let len := fieldAt b 6 2
  let idx := fieldAt b 0x1C 4
  let aux := fieldAt b 0x20 4
  let ext := fieldAt b 0x24 8
  headClean b &&
  (match fieldAt b 5 1 with
    | 0 => len == 0 && idx == 0 && aux == 0 && ext == 0
    | 1 => ((vc == 0 && (len == 2048 || len == 4096)) || (vc == 1 && len == 4096)) && decide (idx < 2 ^ 20) &&
        decide (aux < 2 ^ 17) && ext == 0
    | 2 => (if mirrorEnd b then vc == 1 && idx == 0 else decide (vc < 2)) && len == 0 && decide (idx < 2 ^ 20) &&
        decide (aux < 2 ^ 21) && ext == 0
    | 3 => vc == 1 && len == 4096 && decide (idx < 2 ^ 20) && aux == 0
    | 4 => vc == 2 && len == 4096 && idx == 0 && aux == 0 && ext == 0
    | 5 => vc == 1 && len == 4096 && decide (idx < 2 ^ 20) && aux == 0 && ext == 0
    | 6 => vc == 2 && len == 0 && idx == 0
    | 7 => vc == 3 && decide (64 ≤ len) && decide (len ≤ 4096) && len % 64 == 0 && idx == 0 && decide (aux < 2 ^ 17)
    | _ => false)

/-- Whether a packet is addressed to this module (R313). -/
def State.pktHere (s : State) (b : List Byte) : Bool :=
  let dst := fieldAt b 0 2
  if bitOf (fieldAt b 4 1) 2 then
    dst != 0xFFFF && (List.range 64).any (fun i => s.act (rHubMcastMap i) / 65536 % 65536 == dst)
  else dst == s.ownId

/-- Whether e2e_crc is right. A length that disagrees with payload_len counts as a failure of e2e_crc. -/
def crcRight (b : List Byte) : Bool :=
  b.length - 64 == fieldAt b 6 2 && crc32c (b.take 8 ++ (b.drop 0x18).take 36 ++ b.drop 64) == fieldAt b 0x3C 4

/-- The checks of R313 in order: 0 where the packet passes, 1 for e2e_crc, 2 for the others. -/
def State.pktCheck (s : State) (b : List Byte) : Nat :=
  if !crcRight b then 1
  else if !pktLegal b || !s.pktHere b then 2
  else 0

end Sys2Proof.Machine
end

