-- ==== Sys2Proof/Machine/Fabric.lean ====
section
/-!
DEFINITION. Machine/Fabric.lean: what a port does by itself (R305 to R307, R310 to R312): training, the INIT exchange,
egress, retry, lanes. Commands carry what the lanes and the other end show.
-/

namespace Sys2Proof.Machine

/-- A width code (R318) as lanes used: 0, 1, 2, 4. -/
def laneWidth (w : Nat) : Nat := match w with | 0 => 0 | 1 => 1 | 2 => 2 | _ => 4

/-- The widest width a set of good lanes allows (R306), as R318 codes it. -/
def widthOf (good : List Bool) : Nat :=
  let g := fun i => listGet false good i
  if g 0 && g 1 && g 2 && g 3 then 3
  else if (g 0 && g 1) || (g 2 && g 3) then 2
  else if good.any id then 1
  else 0

/-- The lanes a width uses (R306). -/
def lanesUsed (good : List Bool) (w : Nat) : List Nat :=
  match w with
  | 3 => [0, 1, 2, 3]
  | 2 => if listGet false good 0 && listGet false good 1 then [0, 1] else [2, 3]
  | 1 => ((findN 4 (fun i => listGet false good i)).map (fun i => [i])).getD []
  | _ => []

/-- MIN_WIDTH in force, as R318 codes widths (R319). -/
def State.minWidth (s : State) (p : Nat) : Nat := bitsOf (s.act (rFabCtrl p)) 2 1 + 1

/-- Whether a width serves. -/
def State.wideEnough (s : State) (p w : Nat) : Bool := decide (0 < w) && decide (s.minWidth p ≤ w)

/-- A port takes a width, or goes DOWN where it does not serve (R307); a width below that of its last UP is a fall (R318). -/
def State.takeWidth (s : State) (p w : Nat) : State :=
  if !s.wideEnough p w then s.portDown p
  else
    let s := if w < (s.port p).lastWidth then s.setFlag (rFabStatus p) 15 true else s
    s.modPort p (fun q => { q with width := w, trained := true })

/-- The width a port comes to: the widest its good lanes allow, in a RETRAIN no wider than it was (R306, R307). -/
def Port.newWidth (q : Port) (good : List Bool) : Nat :=
  if q.state = 3 ∧ !q.mayWiden then capAt q.width (widthOf good) else widthOf good

/-- Four lane flags of a number. -/
def laneFlags (m : Nat) : List Bool := [bitOf m 0, bitOf m 1, bitOf m 2, bitOf m 3]

/-- Whether a port may leave DOWN (R307): enabled, a fabric ID is assigned, and the SerDes PLL and the links
run (R299, R376). -/
def State.portMayTrain (s : State) (p : Nat) : Bool :=
  bitOf (s.act (rFabCtrl p)) 0 && s.ownId != 0xFFFF && !s.coasting 7 && decide (s.halt.stage < 3)

/-- TRAINING_END (R305, R307): training of a port ends with these lanes good at both ends, P/N inversion per lane and
lane reversal as found. -/
def execTrainingEnd (port lanes inverted : Nat) (reversed : Bool) (s : State) : Answer :=
  answerNoMem s (
    if 4 ≤ port ∨ (s.port port).state ≠ 1 ∨ (s.port port).trained then s
    else
      let good := laneFlags lanes
      (s.modPort port (fun q => { q with lanes := good, inverted := inverted % 16, reversed := reversed })).takeWidth port (widthOf good))

/-- The initial credits the module advertises (R310). -/
def initCredits : List Nat := [8192, 8192, 1024, 4096]

/-- The INIT block this end sends (R310). -/
def State.initBlock (s : State) (p : Nat) : List Byte :=
  let last := if (s.port p).state = 3 ∧ !(s.port p).fresh then (s.port p).rxSeq else 0
  let b := leBytes 4 0x544E4E48 ++ leBytes 2 s.ownId ++ leBytes 1 p ++ leBytes 1 0 ++
    initCredits.flatMap (fun c => leBytes 2 c) ++ leBytes 2 last ++ List.replicate 42 0#8
  b ++ leBytes 4 (crc32c b)

/-- LINK_INIT (R310, R311): the other end's INIT block ends the exchange. From TRAINING, and from a RETRAIN that began in
DOWN, numbering and credits start afresh; from RETRAIN they continue and packets past the other end's last_seq are put out
again. -/
def execLinkInit (port : Nat) (block : List Byte) (s : State) : Answer :=
  answerNoMem s (
    let q := s.port port
    if 4 ≤ port ∨ !q.trained ∨ (q.state ≠ 1 ∧ q.state ≠ 3) ∨ block.length ≠ 64 ∨ fieldAt block 0 4 ≠ 0x544E4E48 ∨
        fieldAt block 0x3C 4 ≠ crc32c (block.take 0x3C) then s
    else
      let s := { s with readBytes := s.initBlock port }
      let fresh := q.state == 1 || q.fresh
      let q := { q with state := 2, trained := false, mayWiden := false, fresh := false, lastWidth := q.width, naks := 0,
                        mcastCap := bitOf (fieldAt block 7 1) 0 }
      if fresh then
        s.setPort port { q with txSeq := 0, rxSeq := 0, retry := [], resend := [], nakDue := false, ackDue := false,
                                owed := [0, 0, 0, 0], credits := (List.range 4).map (fun v => fieldAt block (8 + 2 * v) 2) }
      else
        let kept := q.retry.filter (fun r => seqAfter (fieldAt block 0x10 2) r.1)
        s.setPort port { q with retry := kept, resend := kept.map (fun r => r.1) })

/-- RETRAIN_END (R307): retraining ends with these lanes good at both ends; the INIT exchange follows, or the port goes
DOWN. -/
def execRetrainEnd (port lanes : Nat) (s : State) : Answer :=
  answerNoMem s (
    if 4 ≤ port ∨ (s.port port).state ≠ 3 ∨ (s.port port).trained then s
    else
      let good := laneFlags lanes
      (s.modPort port (fun q => { q with lanes := good })).takeWidth port ((s.port port).newWidth good))

/-- LANE_FAULT (R306, R307): a lane becomes bad, detected. A port that uses it retrains at the width that remains, or goes
DOWN; one that has trained and waits for the INIT exchange takes the width that remains. -/
def execLaneFault (port lane : Nat) (s : State) : Answer :=
  answerNoMem s (
    let q := s.port port
    if 4 ≤ port ∨ 4 ≤ lane ∨ !listGet false q.lanes lane then s
    else
      let good := listPut false 4 q.lanes lane false
      let used := (lanesUsed q.lanes q.width).contains lane
      let s := s.setPort port { q with lanes := good }
      if !used then s
      else if q.state = 2 then
        if s.wideEnough port (capAt q.width (widthOf good)) then
          (s.modPort port (fun q => { q with state := 3, trained := false })).count (rFabCtrDEGRADES port) 1
        else s.portDown port
      else if q.trained then s.takeWidth port (q.newWidth good)
      else s)

/-- PORT_RETRY_TIMER (R307): 1 s after the last attempt a DOWN port trains again. -/
def execPortRetryTimer (port : Nat) (s : State) : Answer :=
  answerNoMem s (
    if 4 ≤ port ∨ (s.port port).state ≠ 0 ∨ !s.portMayTrain port then s
    else s.modPort port (fun q => { q with state := 1, trained := false }))

/-- RETRY_TIMEOUT (R311): 100 µs without an acknowledgement; the sender replays from the oldest. -/
def execRetryTimeout (port : Nat) (s : State) : Answer :=
  answerNoMem s (
    if 4 ≤ port ∨ (s.port port).state ≠ 2 then s
    else s.modPort port (fun q => { q with resend := q.retry.map (fun r => r.1) }))

/-- Bytes a retry buffer holds (R311). -/
def retryBytes (l : List (Nat × TxPkt × List Nat)) : Nat := l.foldl (fun n r => n + 64 * r.2.1.units) 0

/-- Whether the packet at the head of a VC may be sent now: its credit, and a place in the retry buffer. -/
def Port.mayTake (q : Port) (v : Nat) : Bool :=
  match listGet [] q.queues v with
  | [] => false
  | t :: _ => decide (t.units ≤ listGet 0 q.credits v) && decide (retryBytes q.retry + 64 * t.units ≤ 1048576)

/-- The VC the egress picks (R312): VC2 first, then VC0, VC1 and VC3 in turn after the last one served. -/
def Port.pick (q : Port) : Option Nat :=
  if q.mayTake 2 then some 2
  else
    let order := match q.lastVc with
      | 0 => [1, 3, 0]
      | 1 => [3, 0, 1]
      | _ => [0, 1, 3]
    order.find? (fun v => q.mayTake v)

/-- The link field of what a port sends next: sequence number, acknowledgement, NAK and returned credits (R308). -/
def Port.linkField (q : Port) (seq : Nat) (credits : List Nat) : List Byte :=
  leBytes 2 seq ++ leBytes 2 q.rxSeq ++ leBytes 1 (1 + 2 * b2n q.nakDue) ++ leBytes 3 0 ++ credits.flatMap (fun c => leBytes 2 c)

/-- Acknowledgements or credits wait to be returned (R309). -/
def Port.owes (q : Port) : Bool := q.ackDue || q.nakDue || q.owed.any (fun c => c != 0)

/-- What a link field has said is due no more. -/
def Port.told (q : Port) : Port := { q with ackDue := false, nakDue := false }

/-- A packet of the retry buffer goes out again, under its sequence number and with the credits it carried (R311). -/
def State.putAgain (s : State) (port : Nat) (n : Nat) (rest : List Nat) : State :=
  let q := s.port port
  match q.retry.find? (fun r => r.1 == n) with
  | none => s.setPort port { q with resend := rest }
  | some (seq, t, credits) =>
    { s.setPort port { q.told with resend := rest } with readBytes := t.bytes s.ownId (q.linkField seq credits) }.count
      (rFabCtrLINKRETRIES port) 1

/-- A packet of VC v goes out for the first time. -/
def State.putOut (s : State) (port v : Nat) : State :=
  let q := s.port port
  match listGet [] q.queues v with
  | [] => s
  | t :: rest =>
    let seq := (q.txSeq + 1) % 65536
    let out := t.bytes s.ownId (q.linkField seq q.owed)
    let q := { q.told with txSeq := seq, retry := q.retry ++ [(seq, t, q.owed)], queues := listPut [] 4 q.queues v rest,
                           credits := listPut 0 4 q.credits v (listGet 0 q.credits v - t.units), owed := [0, 0, 0, 0],
                           lastVc := if v = 2 then q.lastVc else v }
    let s := { s.setPort port q with readBytes := out }.count (rFabCtrTXPACKETS port) 1
    if t.ptype = 1 ∨ t.ptype = 3 ∨ t.ptype = 4 then s.count (rFabCtrREDTX port) 1 else s

/-- EGRESS_SELECT (R311, R312): a packet boundary of a port: a packet to be replayed goes out, else the next packet with
credit, else an IDLE header when there are acknowledgements or credits to return. The bytes sent are in `readBytes`.
`waited`: HCLK cycles since the last boundary in which a packet waited only for credit. -/
def execEgressSelect (port waited : Nat) (s : State) : Answer :=
  answerNoMem s (
    let q := s.port port
    if 4 ≤ port ∨ q.state ≠ 2 then s
    else
      let short := (List.range 4).any (fun v => match listGet [] q.queues v with
        | [] => false
        | t :: _ => decide (listGet 0 q.credits v < t.units) && decide (retryBytes q.retry + 64 * t.units ≤ 1048576))
      let s := if short then s.count (rFabCtrCREDITWAITCYCLES port) waited else s
      match q.resend with
      | n :: rest => s.putAgain port n rest
      | [] => match q.pick with
        | some v => s.putOut port v
        | none =>
          if !q.owes then s
          else
            let idle : TxPkt := { dst := 0, vc := 0, ptype := 0 }
            { s.setPort port { q.told with owed := [0, 0, 0, 0] } with readBytes := idle.bytes s.ownId (q.linkField 0 q.owed) })

/-- A fabric routing swap reaches a port (R307): ENABLE decides between DISABLED and TRAINING; without an ID every port
stays DOWN. -/
def State.portSwap (s : State) (p : Nat) : State :=
  let q := s.port p
  if !bitOf (s.act (rFabCtrl p)) 0 then
    (if q.state = 4 then s else (s.dropQueued p).modPort p (fun q => { q with state := 4 }))
  else if s.ownId = 0xFFFF then
    (if q.state = 0 then s else s.portDown p)
  else if q.state = 4 then s.setPort p { q with state := 1, trained := false }
  else s

end Sys2Proof.Machine
end

