-- ==== Sys2Proof/Machine/Reduce.lean ====
section
/-!
DEFINITION. Machine/Reduce.lean: gradient reduction (R246 to R265): the bushel table, the sends, the tracker's judgement
of arrivals, the RAUs, and closing. Packets that arrive come in through Machine/Receive.lean.
-/

namespace Sys2Proof.Machine

/-! ## The bushel table (R247, R248) -/

/-- One entry of the bushel table. -/
structure BushelEnt where
  id : Nat
  kind : Nat
  bf16 : Bool
  contrib : Bool
  owner : Bool
  receive : Bool
  contribList : Nat
  ownerList : Nat
  segs : Nat
  k : Nat
  src : Nat
  peck : Nat
  buf : Nat
  side : Nat
  openOff : Nat
  deadlineOff : Nat
  resultOff : Nat
  status : Nat
  deriving DecidableEq, Repr

def State.bushelAt (s : State) (a : Nat) : BushelEnt :=
  let kd := s.ld 1 (a + 2)
  let ro := s.ld 1 (a + 3)
  { id := s.ld 2 a, kind := kd % 8, bf16 := kd / 16 == 1, contrib := bitOf ro 0, owner := bitOf ro 1, receive := bitOf ro 2,
    contribList := s.ld 2 (a + 4), ownerList := s.ld 2 (a + 6), segs := s.ld 4 (a + 8), k := s.ld 4 (a + 0xC),
    src := s.ld 6 (a + 0x10), peck := s.ld 2 (a + 0x16), buf := s.ld 6 (a + 0x18), side := s.ld 6 (a + 0x20),
    openOff := s.ld 4 (a + 0x28), deadlineOff := s.ld 4 (a + 0x2C), resultOff := s.ld 4 (a + 0x30), status := s.ld 6 (a + 0x34) }

def kindOrdinary : Nat := 0
def kindReplicated : Nat := 1
def kindVerdict : Nat := 2
def kindBroadcast : Nat := 3

/-- Entry `i` of the bushel table of a plan. -/
def State.bushelIn (s : State) (img i : Nat) : Option BushelEnt :=
  match s.tableOf img 4 with
  | some t => if i < t.count then some (s.bushelAt (t.base + 64 * i)) else none
  | none => none

def State.bushelCount (s : State) : Nat :=
  match s.binding.active with
  | some b => ((s.tableOf b.addr 4).map (fun t => t.count)).getD 0
  | none => 0

/-- Entry `i` of the plan in force. -/
def State.bushelEnt (s : State) (i : Nat) : Option BushelEnt :=
  match s.binding.active with
  | some b => s.bushelIn b.addr i
  | none => none

/-- The module whose shard this one mirrors (R286, R291); 0xFFFF for none. -/
def State.mirroredId (s : State) : Nat :=
  if (s.job).bytes.isEmpty then 0xFFFF else s.snap.mirrored.getD (s.job.field 0x2A 2)

/-- Whether the standby list names an entry of a kind that is still inert (R290): 1 a bushel index, 2 a packet. -/
def State.standby (s : State) (kind x : Nat) : Bool :=
  if s.snap.activated || (s.job).bytes.isEmpty || s.job.field 0x2A 2 == 0xFFFF then false
  else
    let a := s.job.field 0x38 6
    (List.range (s.ld 4 (a + 4))).any (fun i => s.ld 1 (a + 16 + 8 * i) == kind && s.ld 4 (a + 20 + 8 * i) == x)

/-- The first segment and the number of segments a role holds (R250): the own peck, or the whole bushel. -/
def BushelEnt.held (e : BushelEnt) (role : Nat) : Nat × Nat :=
  if role = 0 then
    (if e.peck = 0xFFFF then (0, 0) else (e.peck * e.k, capAt e.k (e.segs - e.peck * e.k)))
  else (0, e.segs)

/-- The tracker follows a role of an entry (R256). Of a BROADCAST that is both OWNER and RECEIVE, which has one set of side
records, it follows the receiver. -/
def BushelEnt.tracked (e : BushelEnt) (role : Nat) : Bool :=
  if role = 0 then e.owner && (e.kind != kindBroadcast || !e.receive) else e.receive

/-- The contributions that close a segment by count (R248). -/
def State.expected (s : State) (e : BushelEnt) : Nat :=
  if e.kind = kindBroadcast then 1 else (s.jobList e.contribList).length

/-- The list that the END bitmap follows (R260). -/
def BushelEnt.senders (e : BushelEnt) : Nat := e.contribList

/-- The side record of segment `i` (R250). -/
def sideAddr (base i : Nat) : Nat := base + ((i / 98304) * 192 + i % 192) * 4096 + (i / 192 % 512) * 8

def State.bushel (s : State) (k : Nat) : Bushel := Tbl.get (fun _ => {}) s.bushels k
def State.setBushel (s : State) (k : Nat) (b : Bushel) : State := { s with bushels := Tbl.set (fun _ => {}) s.bushels k b }
def State.modBushel (s : State) (k : Nat) (f : Bushel → Bushel) : State := s.setBushel k (f (s.bushel k))

/-- The tick of an offset in a step of the plan in force (R39). -/
def State.stepTick (s : State) (step off : Nat) : Nat :=
  match s.binding.active with
  | some b => b.first + step * b.period + off
  | none => off

/-! ## Sends (R252, R253, R263) -/

/-- The 32-bit words of a byte list, and back. -/
def wordsOf (bs : List Byte) : List W32 := (chunksOf 4 (bs.length + 1) bs).map (fun c => BitVec.ofNat 32 (leNat c))
def bytesOf (ws : List W32) : List Byte := ws.flatMap (fun w => leBytes 4 w.toNat)

/-- A segment's payload and its NONFINITE flag (R253, R262): a verdict segment's flag is taken over its FP32 words. -/
def segPayload (e : BushelEnt) (bs : List Byte) : List Byte × Bool :=
  let ws := wordsOf bs
  if e.bf16 then
    let xs := ws.map (fun w => convPlain .bf16 false .rne (ofF32 w))
    (xs.flatMap (fun x => leBytes 2 x), xs.any (fun x => !(decodePlain .bf16 x).isFinite))
  else (bs, (if e.kind = kindVerdict then ws.take 256 else ws).any (fun w => !f32IsFinite w))

/-- A packet of a send that found no port is discarded, and the send completes with DONE_WARN (R314). -/
def warnUnsent (r : State × Bool) : State := if r.2 then r.1 else r.1.warnSend

/-- The send of segment j of peck p, and the END behind a peck's last segment. -/
def State.sendSegment (s : State) (r : Run) (e : BushelEnt) (weight j p : Nat) : State × Nat :=
  let i := p * e.k + j
  let len := capAt e.k (e.segs - p * e.k)
  match s.load (e.src + 4096 * i) 4096 with
  | .fault c => (s, c)
  | .ok bs =>
    let pay := segPayload e bs
    let dst := Machine.resolveId r.route.owners 64 (((r.bind.job.list e.ownerList)[p]?).getD 0xFFFF)
    let t : TxPkt := { dst := dst, vc := 0, ptype := 1, stepTag := r.step % 65536, bushel := e.id, index := i,
                       aux := weight + 65536 * b2n pay.2, payload := pay.1, pid := r.pid }
    let s := warnUnsent (s.sendTo r.route dst t)
    if j + 1 = len then
      (warnUnsent (s.sendTo r.route dst { t with ptype := 2, index := p, aux := len, payload := [] }), 0)
    else (s, 0)

/-- An entry of a BUSHEL_SEND body. -/
def State.sendEntry (s : State) (r : Run) (n : Nat) : State × Nat :=
  match s.bushelIn r.bind.addr (s.ld 4 (r.body + 16 + 8 * n)) with
  | none => (s, 0)
  | some e =>
    let a := s.ld 8 (r.body + 8)
    match s.load a 2 with
    | .fault c => (s, c)
    | .ok w =>
      let pecks := if e.k = 0 then 0 else ceilDiv e.segs e.k
      let order := (List.range e.k).flatMap (fun j =>
        ((List.range pecks).filter (fun p => decide (p * e.k + j < e.segs))).map (fun p => (j, p)))
      order.foldl (fun x jp => if x.2 ≠ 0 then x else x.1.sendSegment r e (leNat w) jp.1 jp.2) (s.noteRead a 2, 0)

/-- An entry of a PARAMETER_BROADCAST body: the own peck to every module of contrib_list but itself. -/
def State.castEntry (s : State) (r : Run) (n : Nat) : State × Nat :=
  match s.bushelIn r.bind.addr (s.ld 4 (r.body + 16 + 8 * n)) with
  | none => (s, 0)
  | some e =>
    let h := e.held 0
    let t : TxPkt := { dst := 0, vc := 1, ptype := 1, stepTag := r.step % 65536, bushel := e.id, pid := r.pid }
    let all := fun (u : State) (x : TxPkt) => warnUnsent (u.sendAll r.route r.bind.job e.contribList x)
    let out := (List.range h.2).foldl (fun (a : State × Nat) j =>
      if a.2 ≠ 0 then a
      else match a.1.load (e.src + 4096 * j) 4096 with
        | .fault c => (a.1, c)
        | .ok bs => (all a.1 { t with index := h.1 + j, payload := bs }, 0)) (s, 0)
    if out.2 ≠ 0 then out else (all out.1 { t with ptype := 2, index := e.peck, aux := h.2 }, 0)

/-- A sending packet starts, or goes on: its next entry, one instruction (R38), is sent; a read error stops it (R429). Its
ports and destinations are those of its start (R248, R314, R316). -/
def State.sendStep (s : State) (kind : Nat) (units : State → Run → Nat) (f : Run → Nat → State → State × Nat) : State :=
  s.packetStep hubEngine kind (fun _ => true) (fun s r =>
    let r := if r.prog = 0 then { r with route := s.routeNow } else r
    (s.setRun hubEngine r).rowStep hubEngine (0, units s r) (fun n u => f r n u))

def State.bodyCount (s : State) (r : Run) : Nat := s.ld 4 r.body

/-- BUSHEL_SEND (R252, R253): one entry of a send body is queued (log 72). -/
def execBushelSend (s : State) : Answer := answer s (s.sendStep 0x0A State.bodyCount (fun r n u => u.sendEntry r n))

/-- PARAMETER_BROADCAST (R252, R263): one entry of a broadcast body is queued. -/
def execParameterBroadcast (s : State) : Answer := answer s (s.sendStep 0x0D State.bodyCount (fun r n u => u.castEntry r n))

/-! ## Judging arrivals (R256) -/

/-- Count on the path a packet came by: a port, or 4 for the local path (R265). -/
def State.countPath (s : State) (path : Nat) (port : Nat → Nat) (loc : Nat) : State :=
  s.count (if path < 4 then port path else loc) 1

/-- Where a reduction packet belongs: its bushel's key, its entry, and the segment within the range held; for an END,
the peck. None where the packet is MISDIRECTED. -/
def State.redTarget (s : State) (b : List Byte) : Option (Nat × BushelEnt × Nat) :=
  let ty := fieldAt b 5 1
  let idx := fieldAt b 0x1C 4
  match findN s.bushelCount (fun i => !s.standby 1 i &&
      (match s.bushelEnt i with | some e => e.id == fieldAt b 0x1A 2 && (e.tracked 0 || e.tracked 1) | none => false)) with
  | none => none
  | some i =>
    match s.bushelEnt i with
    | none => none
    | some e =>
      let role := if ty = 1 ∨ ty = 2 then (if e.kind = kindBroadcast then 1 else 0)
        else if (ty = 3 ∧ e.kind = kindReplicated) ∨ (ty = 4 ∧ e.kind = kindVerdict) then 1 else 2
      if role = 2 ∨ !e.tracked role then none
      else
        let h := e.held role
        let ok := if ty = 2 then (if role = 0 then idx == e.peck else decide (e.k ≠ 0) && decide (idx < ceilDiv e.segs e.k))
          else decide (h.1 ≤ idx) && decide (idx < h.1 + h.2)
        if ok then some (2 * i + role, e, if ty = 2 then idx else idx - h.1) else none

/-- The tick from which arrivals are late (R256): the deadline of an OWNER, the result tick of a RECEIVE. -/
def State.lateFrom (s : State) (e : BushelEnt) (role step : Nat) : Nat :=
  s.stepTick step (if role = 0 then e.deadlineOff else e.resultOff)

/-- A segment that comes before the open edge of a step belongs to that step's late ones (R260). -/
def Bushel.addEarly (g : Bushel) (step : Nat) : Bushel :=
  match g.early.find? (fun x => x.1 == step) with
  | some _ => { g with early := g.early.map (fun x => if x.1 = step then (step, x.2 + 1) else x) }
  | none => { g with early := g.early ++ [(step, 1)] }

/-- How many came so for a step. -/
def Bushel.earlyOf (g : Bushel) (step : Nat) : Nat := ((g.early.find? (fun x => x.1 == step)).map (fun x => x.2)).getD 0

/-- Whether a packet passes the tracker, with the counters of R265. -/
def State.judgeRed (s : State) (path : Nat) (b : List Byte) : State × Bool :=
  let red := fieldAt b 5 1 != 2
  let s := if red then s.countPath path rFabCtrREDRX rHubRedLocalRX
    else if path < 4 then s.count (rFabCtrREDEND path) 1 else s
  let late := fun (t : State) (early : Bool) =>
    if !red then t
    else
      let t := t.countPath path rFabCtrREDLATE rHubRedLocalLATE
      if early ∧ path < 4 then t.count (rFabCtrREDEARLY path) 1 else t
  match s.redTarget b with
  | none => (late s false, false)
  | some (k, e, _) =>
    let g := s.bushel k
    let cur := s.stepNow
    let opened := g.opened && g.step == cur
    let tag := fieldAt b 0x18 2
    let note := fun (t : State) => if opened ∧ red then t.modBushel k (fun x => { x with late := x.late + 1 }) else t
    let ahead := !opened && (tag == cur % 65536 || tag == (cur + 1) % 65536)
    if tag ≠ cur % 65536 ∨ !opened then
      let s := if ahead ∧ red then s.modBushel k (fun x => x.addEarly (if tag = cur % 65536 then cur else cur + 1)) else note s
      (late s ahead, false)
    else if s.lateFrom e (k % 2) cur ≤ s.now ∨ g.cause ≠ 0 then (late (note s) false, false)
    else (s, true)

/-- The RAU of a segment: stack and pseudo-channel (R18). -/
def rauOf (e : BushelEnt) (i : Nat) : Nat :=
  let p := stackOf (e.buf + 4096 * i)
  32 * p.1 + p.2.1

def State.rauAt (s : State) (q : Nat) : List RauReq := Tbl.get (fun _ => []) s.rauQ q

/-- ENDs the earlier packets of whose channel have all been added or judged late are counted (R260); one whose bit is set already, or
from a module that is no sender, counts as a late. -/
def State.countEnds (s : State) : State :=
  let open_ := s.rauQ.flatMap (fun q => q.2)
  let waits := fun (e : EndReq) => open_.any (fun r => r.path == e.path && r.vc == e.vc && decide (r.seq < e.seq))
  let ready := s.ends.filter (fun e => !waits e)
  let s := { s with ends := s.ends.filter waits }
  ready.foldl (fun t e =>
    match t.bushelEnt (e.key / 2) with
    | none => t
    | some ent =>
      let l := t.jobList ent.senders
      t.modBushel e.key (fun g =>
        match findN l.length (fun n => l[n]? == some e.src) with
        | some n => if g.ends.contains n then { g with late := g.late + 1 }
            else { g with ends := g.ends ++ [n], endSum := g.endSum + e.sum }
        | none => { g with late := g.late + 1 })) s

/-- A packet that passed the tracker goes to its RAU, or an END to the tracker; none while the RAU's queue is full
(R258). One whose bushel is no longer open, since a swap fell while it waited, is late (R265). -/
def State.takeRed (s : State) (path : Nat) (b : List Byte) : Option State :=
  let late := if fieldAt b 5 1 = 2 then s else s.countPath path rFabCtrREDLATE rHubRedLocalLATE
  match s.redTarget b with
  | none => some late
  | some (k, e, i) =>
    let seq := s.rauSeq
    let vc := fieldAt b 4 1 % 4
    if !(s.bushel k).opened then some late
    else if fieldAt b 5 1 = 2 then
      some (State.countEnds { s with rauSeq := seq + 1, ends := s.ends ++
        [{ key := k, src := fieldAt b 2 2, sum := fieldAt b 0x20 4, path := path, vc := vc, seq := seq }] })
    else
      let q := rauOf e i
      if 64 ≤ (s.rauAt q).length then none
      else
        let aux := fieldAt b 0x20 4
        let r : RauReq := { entry := k, ptype := fieldAt b 5 1, seg := i, weight := aux % 65536, nonfinite := bitOf aux 16,
                            side := BitVec.ofNat 64 (fieldAt b 0x24 8), payload := b.drop 64, path := path, vc := vc, seq := seq }
        some { s with rauSeq := seq + 1, rauQ := Tbl.set (fun _ => []) s.rauQ q (s.rauAt q ++ [r]) }

/-! ## The RAUs (R257, R262, R429) -/

def sideClosed : Nat := 0x10000
def sideComplete : Nat := 0x20000
def sidePartial : Nat := 0x40000
def sideZero : Nat := 0x80000
def sideNonfinite : Nat := 0x100000
def sideMissing : Nat := 0x200000

/-- A side record is read; in a word that reads in error every record held closes ZERO and NONFINITE (R429). -/
def State.readSide (s : State) (e : BushelEnt) (held i : Nat) : State × Nat :=
  let a := sideAddr e.side i
  let w := a / 32 * 32
  if s.badWords.contains w then
    let v := sideClosed + sideZero + sideNonfinite
    let s := (((s.memBad).store none w (leBytes 8 v ++ leBytes 8 v ++ leBytes 8 v ++ leBytes 8 v))).alarm
      (srcRau (stackOf a).1) 0x2C
    let same := (List.range held).filter (fun j => sideAddr e.side j / 32 * 32 == w)
    (same.foldl (fun t j =>
      let st := (stackOf (e.buf + 4096 * j)).1
      ((t.store none (e.buf + 4096 * j) (List.replicate 4096 0#8)).count (rRauCtrCLOSEDZERO st) 1).count
        (rRauCtrNONFINITE st) 1) s, v)
  else (s, s.ld 8 a)

/-- A segment's granule is read; words that read in error become canonical NaNs (R429). -/
def State.readGranule (s : State) (a : Nat) : State × List Byte × Bool :=
  let bad := s.badWords.filter (fun w => decide (a ≤ w) && decide (w < a + 4096))
  let s := bad.foldl (fun t w => ((t.memBad).storeEcc w (nanWord false)).alarm (srcRau (stackOf a).1) 0x2C) s
  (s, s.peek a 4096, !bad.isEmpty)

/-- A contribution combined with what the granule holds (R257, R262). -/
def combineSeg (e : BushelEnt) (old new : List Byte) : List Byte :=
  let add := fun (a b : List Byte) => bytesOf ((wordsOf a).zipWith f32Add (wordsOf b))
  if e.kind = kindVerdict then
    let sum := (List.range 4).flatMap (fun q => leBytes 8 (fieldAt old (1056 + 8 * q) 8 + fieldAt new (1056 + 8 * q) 8))
    add (old.take 1024) (new.take 1024) ++
      ((old.drop 1024).take 32).zipWith (fun a b => a ||| b) ((new.drop 1024).take 32) ++ sum ++ old.drop 1088
  else add old new

/-- A segment closes (R257): its elements and flags by cause. -/
def State.closeSeg (s : State) (e : BushelEnt) (i w : Nat) (byCount : Bool) : State :=
  let a := e.buf + 4096 * i
  let n := w % 65536
  let weight := w / 2 ^ 32
  let zero := n == 0 || (weight == 0 && e.kind != kindVerdict)
  let (s, bs, healed) := if zero then (s, List.replicate 4096 0#8, false) else s.readGranule a
  let out := if zero || e.kind == kindVerdict then bs
    else bytesOf ((wordsOf bs).map (fun x => toF32 (Fp.div (ofF32 x) (Fp.ofNat weight))))
  let nf := bitOf w 20 || healed ||
    (if e.kind = kindVerdict then (wordsOf out).take 256 else wordsOf out).any (fun x => !f32IsFinite x)
  let s := if !zero && e.kind == kindVerdict then s else s.store none a out
  let v := weight * 2 ^ 32 + n + sideClosed + (if byCount then sideComplete else if n = 0 then 0 else sidePartial) +
    (if zero then sideZero else 0) + (if nf then sideNonfinite else 0)
  let s := s.store none (sideAddr e.side i) (leBytes 8 v)
  let st := (stackOf a).1
  let s := if !byCount && n != 0 then s.count (rRauCtrCLOSEDPARTIAL st) 1 else s
  let s := if zero then s.count (rRauCtrCLOSEDZERO st) 1 else s
  if nf then s.count (rRauCtrNONFINITE st) 1 else s

/-- A segment closed by count or arrived; the last one decides the close (R259, R263). -/
def State.segDone (s : State) (k : Nat) (held : Nat) : State :=
  s.modBushel k (fun g =>
    if g.closedSegs + 1 = held ∧ g.cause = 0 then { g with closedSegs := g.closedSegs + 1, cause := 1, closeTick := s.now }
    else { g with closedSegs := g.closedSegs + 1 })

/-- A request is discarded as late. -/
def State.reqLate (s : State) (r : RauReq) : State :=
  (s.countPath r.path rFabCtrREDLATE rHubRedLocalLATE).modBushel r.entry (fun g => { g with late := g.late + 1 })

/-- A request that finds its segment closed is late (R257). -/
def State.rauLate (s : State) (r : RauReq) (st : Nat) : State := (s.reqLate r).count (rRauCtrLATE st) 1

/-- A contribution accepted. -/
def State.rauAccept (s : State) (r : RauReq) (st : Nat) : State :=
  ((s.countPath r.path rFabCtrREDACCEPTED rHubRedLocalACCEPTED).count (rRauCtrADDS st) 1).modBushel r.entry
    (fun g => { g with added := g.added + 1 })

/-- A contribution to an OWNER's segment (R257). -/
def State.rauAdd (s : State) (e : BushelEnt) (r : RauReq) (st held : Nat) : State :=
  let a := e.buf + 4096 * r.seg
  let (s, w) := s.readSide e held r.seg
  if bitOf w 16 then s.rauLate r st
  else
    let new := if e.bf16 then
        (chunksOf 2 (r.payload.length + 1) r.payload).flatMap (fun c => [0#8, 0#8] ++ c)
      else r.payload
    let n := w % 65536
    let (s, healed) := if n = 0 then (s.store none a new, false)
      else
        let (s, old, healed) := s.readGranule a
        (s.store none a (combineSeg e old new), healed)
    let w := (w / 2 ^ 32 + r.weight) % 2 ^ 32 * 2 ^ 32 +
      (if bitOf w 20 || r.nonfinite || healed then sideNonfinite else 0) + (n + 1)
    let s := (s.store none (sideAddr e.side r.seg) (leBytes 8 w)).rauAccept r st
    if n + 1 = s.expected e then (s.closeSeg e r.seg w true).segDone r.entry held else s

/-- A result, a broadcast segment or a verdict record is written with its side record (R257, R262). -/
def State.rauPut (s : State) (e : BushelEnt) (r : RauReq) (st held : Nat) : State :=
  let (s, w) := s.readSide e held r.seg
  let here := if e.kind = kindVerdict then decide (0 < (s.bushel r.entry).closedSegs) else bitOf w 16
  if here then s.rauLate r st
  else
    let v := if r.ptype = 3 then r.side.toNat else 1 + sideClosed + sideComplete
    let s := (s.store none (e.buf + 4096 * r.seg) r.payload).store none (sideAddr e.side r.seg) (leBytes 8 v)
    (s.rauAccept r st).segDone r.entry held

/-- A RAU handles one request. -/
def State.rauDo (s : State) (r : RauReq) : State :=
  match s.bushelEnt (r.entry / 2) with
  | none => s
  | some e =>
    let st := (stackOf (e.buf + 4096 * r.seg)).1
    let held := (e.held (r.entry % 2)).2
    if s.stackDead st then s.reqLate r
    else if r.entry % 2 = 0 then s.rauAdd e r st held
    else s.rauPut e r st held

/-! ## Opening and closing (R256, R259 to R261) -/

/-- Requests of a bushel that passed and are not yet added: in a RAU's queue, or still in a receive buffer. -/
def State.redPending (s : State) (k : Nat) : Bool :=
  s.rauQ.any (fun q => q.2.any (fun r => r.entry == k)) ||
    s.ports.any (fun p => p.rxBuf.any (fun x => match s.redTarget x.bytes with
      | some t => t.1 == k && decide (fieldAt x.bytes 5 1 ≤ 4)
      | none => false))

/-- Opening one role: its side records are cleared. -/
def State.openRole (s : State) (i role : Nat) (e : BushelEnt) : State :=
  if !e.tracked role then s
  else
    let s := (List.range (e.held role).2).foldl (fun t j => t.store none (sideAddr e.side j) (List.replicate 8 0#8)) s
    let g := s.bushel (2 * i + role)
    let cur := s.stepNow
    s.setBushel (2 * i + role) { step := cur, opened := true, late := g.earlyOf cur, early := g.early.filter (fun x => decide (cur < x.1)) }

/-- Whether a role of an earlier step still has its close to finish, or a verdict bushel its record to form or resolve. -/
def State.unfinished (s : State) (i role : Nat) (e : BushelEnt) : Bool :=
  let g := s.bushel (2 * i + role)
  g.opened && (!g.written || (e.kind == kindVerdict &&
    (if role = 0 then s.verdict.lastStep != some g.step else s.upd.resolved != some g.step)))

/-- BUSHEL_OPEN (R256): the open tick of the current step is observed. -/
def execBushelOpen (entry : Nat) (s : State) : Answer :=
  answer s (match s.bushelEnt entry with
    | none => s
    | some e =>
      let cur := s.stepNow
      let done := fun role => let g := s.bushel (2 * entry + role); g.opened && g.step == cur
      if !s.tick.taken || s.standby 1 entry || decide (s.now < s.stepTick cur e.openOff) || done 0 || done 1 ||
          s.unfinished entry 0 e || s.unfinished entry 1 e then s
      else (s.openRole entry 0 e).openRole entry 1 e)

/-- A segment of an OWNER closes at the deadline. Of a BROADCAST, for whose OWNER nothing arrives, the buffer stays as it is
(R263, log 29). -/
def State.closeLate (s : State) (e : BushelEnt) (i w : Nat) : State :=
  if e.kind ≠ kindBroadcast then s.closeSeg e i w false
  else (s.store none (sideAddr e.side i) (leBytes 8 (sideClosed + sideZero))).count
    (rRauCtrCLOSEDZERO (stackOf (e.buf + 4096 * i)).1) 1

/-- BUSHEL_DEADLINE (R259): after the deadline edge and every contribution that passed before it, the open segments
close by deadline. -/
def execBushelDeadline (entry : Nat) (s : State) : Answer :=
  answer s (match s.bushelEnt entry with
    | none => s
    | some e =>
      let k := 2 * entry
      let g := s.bushel k
      let tick := s.lateFrom e 0 g.step
      if !g.opened || g.cause != 0 || decide (s.now < tick) || s.redPending k then s
      else
        let held := (e.held 0).2
        let s := (List.range held).foldl (fun t i =>
          let (t, w) := t.readSide e held i
          if bitOf w 16 then t else t.closeLate e i w) s
        s.modBushel k (fun g => { g with cause := 2, closeTick := s.now }))

/-- RESULT_TICK (R259): a RECEIVE bushel closes; what has not arrived becomes CLOSED, MISSING and ZERO, its elements +0
(R251) but for a BROADCAST, which keeps what stood there (R263). -/
def execResultTick (entry : Nat) (s : State) : Answer :=
  answer s (match s.bushelEnt entry with
    | none => s
    | some e =>
      let k := 2 * entry + 1
      let g := s.bushel k
      let tick := s.lateFrom e 1 g.step
      if !g.opened || g.cause != 0 || decide (s.now < tick) || s.redPending k then s
      else
        let held := (e.held 1).2
        let s := (List.range held).foldl (fun t i =>
          let (t, w) := t.readSide e held i
          if e.kind ≠ kindVerdict ∧ bitOf w 16 then t
          else
            let v := w / 2 ^ 32 * 2 ^ 32 + w % 65536 + sideClosed + sideMissing + sideZero
            let t := if e.kind = kindBroadcast then t else t.store none (e.buf + 4096 * i) (List.replicate 4096 0#8)
            (t.store none (sideAddr e.side i) (leBytes 8 v)).count (rRauCtrCLOSEDZERO (stackOf (e.buf + 4096 * i)).1) 1) s
        s.modBushel k (fun g => { g with cause := 3, closeTick := s.now }))

/-- The close record and the END bitmap (R260). -/
def State.closeRecord (s : State) (k held : Nat) (e : BushelEnt) : State × List Byte :=
  let g := s.bushel k
  let (s, ws) := (List.range held).foldl (fun (a : State × List Nat) i =>
    let r := a.1.readSide e held i
    (r.1, a.2 ++ [r.2])) (s, [])
  let n := fun (bit : Nat) => (ws.filter (fun w => bitOf w bit)).length
  let l := s.jobList e.senders
  let bits := (List.range l.length).foldl (fun m i => if g.ends.contains i then m else m + 2 ^ i) 0
  (s, leBytes 2 e.id ++ leBytes 2 g.step ++ leBytes 1 g.cause ++ leBytes 3 0 ++ leBytes 8 g.closeTick ++
    leBytes 4 (n 17) ++ leBytes 4 (n 18) ++ leBytes 4 (n 19) ++ leBytes 4 (n 20) ++ leBytes 4 g.added ++ leBytes 4 g.late ++
    leBytes 4 g.ends.length ++ leBytes 4 0 ++ leBytes 8 g.endSum ++ leBytes 8 ((ws.map (fun w => w / 2 ^ 32)).foldl (· + ·) 0) ++
    leBytes (ceilDiv l.length 8) bits)

/-- The root of a REPLICATED bushel sends every segment with its side record (R261). -/
def State.sendResults (s : State) (k held : Nat) (e : BushelEnt) : State :=
  let step := (s.bushel k).step
  (List.range held).foldl (fun t i =>
    let side := t.ld 8 (sideAddr e.side i)
    let x : TxPkt := { dst := 0, vc := 1, ptype := 3, stepTag := step % 65536, bushel := e.id, index := i, ext := side,
                       payload := t.peek (e.buf + 4096 * i) 4096 }
    (t.sendAll s.routeNow s.job e.contribList x).1) s

/-- BUSHEL_CLOSE (R259 to R261): every segment is closed; the close record is written. `receive` names the role. -/
def execBushelClose (entry : Nat) (receive : Bool) (s : State) : Answer :=
  answer s (match s.bushelEnt entry with
    | none => s
    | some e =>
      let k := 2 * entry + b2n receive
      let g := s.bushel k
      if !g.opened || g.cause == 0 || g.written then s
      else
        let s := s.countEnds
        let held := (e.held (b2n receive)).2
        let (s, rec) := s.closeRecord k held e
        let s := (s.store none e.status rec).modBushel k (fun g => { g with written := true })
        let s := s.emit srcHub 3 4 0 (rec.take 40)
        if !receive && e.kind == kindReplicated then s.sendResults k held e else s)

end Sys2Proof.Machine
end

