-- ==== Sys2Proof/Machine/Update.lean ====
section
/-!
DEFINITION. Machine/Update.lean: the verdict record, its resolution on an owner, the rule table and the parameter update
(R266 to R285).
-/

namespace Sys2Proof.Machine

/-! ## The rule table (R270, R271) -/

/-- A rule entry. -/
structure Rule where
  flags : Nat
  formats : Nat
  a1 : W32
  b1 : W32
  a2 : W32
  b2 : W32
  p1 : W32
  p2 : W32
  eps : W32
  eta : W32
  lam : W32
  gscale : W32
  clipMax : W32
  cvt : Nat
  tag : Nat
  deriving DecidableEq, Repr

def zeroByte (_ : Nat) : Byte := 0#8

/-- Entry `g` of one copy. -/
def ruleOf (m : Mem) (g : Nat) : Rule :=
  let b := Tbl.getMany zeroByte m (64 * g) 64
  let w := fun o => BitVec.ofNat 32 (fieldAt b o 4)
  { flags := fieldAt b 0 2, formats := fieldAt b 2 2, a1 := w 4, b1 := w 8, a2 := w 0xC, b2 := w 0x10, p1 := w 0x14,
    p2 := w 0x18, eps := w 0x1C, eta := w 0x20, lam := w 0x24, gscale := w 0x28, clipMax := w 0x2C, cvt := fieldAt b 0x30 1,
    tag := fieldAt b 0x38 8 }

def Rule.valid (r : Rule) : Bool := bitOf r.flags 0
def Rule.freeze (r : Rule) : Bool := bitOf r.flags 1
def Rule.bias (r : Rule) : Bool := bitOf r.flags 2
def Rule.abs (r : Rule) : Bool := bitOf r.flags 3
def Rule.den (r : Rule) : Nat := bitsOf r.flags 5 4
def Rule.clip (r : Rule) : Nat := bitsOf r.flags 7 6
def Rule.precond (r : Rule) : Bool := bitOf r.flags 8
def Rule.s1 (r : Rule) : Bool := bitOf r.flags 9
def Rule.s2 (r : Rule) : Bool := bitOf r.flags 10
def Rule.fmt (r : Rule) (i : Nat) : Fmt := (Fmt.ofCode (bitsOf r.formats (4 * i + 3) (4 * i))).getD .fp32
def Rule.conv (r : Rule) : Cvt := (Cvt.ofByte r.cvt).getD ⟨.bf16, false, false⟩

/-- The rule of an update and whether it sets STALE_SCHEDULE (R271). A packet that started before the table's latest swap
reads the outgoing copy, now the prior one, as its active one (R363). -/
def State.ruleFor (s : State) (began g tUse : Nat) : Rule × Bool :=
  let p := ruleOf s.rules.prior g
  let a := if began < listGet 0 s.binding.lastSwap 1 then p else ruleOf s.rules.active g
  if a.tag = 0 ∨ a.tag = tUse then (a, false)
  else if p.tag = tUse then (p, false)
  else (p, true)

/-! ## The verdict record (R266 to R268) -/

/-- 2^e in FP32. -/
def f32Pow2 (e : Int) : W32 := toF32 (.fin false 1 e)

/-- The loss scale the coming step uses (R267). -/
def State.lossScale (s : State) : W32 :=
  if s.verdict.started then s.verdict.scale else f32Pow2 (signedOf 8 (s.act rHubVerdictScale))

/-- min(1, bound ÷ norm); a norm of 0 gives 1. For a NaN norm, with which no update runs, the spec gives no factor: a
free value (site 14). -/
def clipFactor (free : Nat) (bound norm : W32) : W32 :=
  if (ofF32 norm).isZero then f32One
  else
    let q := f32Div bound norm
    if f32IsNaN q then BitVec.ofNat 32 (Config.freeValue 14 free).toNat
    else if f32Lt q f32One then q else f32One

/-- What the coordinator decides from the reduced words: APPLY, the global norm and the factors (R266). -/
def State.judgeVerdict (s : State) (words : List W32) (bits : List Byte) : Bool × W32 × List (BitVec 32) :=
  let l := s.lossScale
  let rules := (List.range 256).map (fun g => ruleOf s.rules.active g)
  let gs := (words.take 256).zip rules
  let norm := fun (x : W32) => f32Div (f32Sqrt x) l
  let total := norm (sumFrom ((gs.filter (fun g => g.2.clip == 1)).map (fun g => g.1)))
  let bad := bits.any (fun b => b != 0#8) || !f32IsFinite total || gs.any (fun g => !f32IsFinite (norm g.1))
  let top := BitVec.ofNat 32 (s.act rHubGlobalClip)
  let clips := gs.map (fun g => match g.2.clip with
    | 2 => clipFactor s.free g.2.clipMax (norm g.1)
    | 1 => if (ofF32 top).isZero then f32One else clipFactor s.free top total
    | _ => f32One)
  (!bad, total, clips)

/-- The verdict state after a decision (R267). -/
def State.verdictAfter (s : State) (apply : Bool) : Nat × BitVec 64 × W32 :=
  let v := s.verdict
  let l := s.lossScale
  let ctl := s.act rHubVerdictCtrl
  if !apply then
    let low := f32Pow2 (signedOf 8 (ctl / 2 ^ 16))
    let half := toF32 ((ofF32 l).scale2 (-1))
    (0, v.t, if f32Lt half low then low else half)
  else if v.clean + 1 < ctl % 65536 then (v.clean + 1, v.t + 1#64, l)
  else
    let high := f32Pow2 (signedOf 8 (ctl / 2 ^ 24))
    let twice := toF32 ((ofF32 l).scale2 1)
    (0, v.t + 1#64, if f32Lt high twice then high else twice)

def padTo (n : Nat) (bs : List Byte) : List Byte := (bs ++ List.replicate n 0#8).take n

/-- VERDICT_FORM (R262, R266 to R268): after the verdict bushel of its OWNER has closed, the coordinator forms the
record, changes its verdict state and sends the record to every module of contrib_list, itself included. -/
def execVerdictForm (entry : Nat) (s : State) : Answer :=
  answerSysNoMem s (match s.bushelEnt entry with
    | none => s
    | some e =>
      let g := s.bushel (2 * entry)
      if e.kind != kindVerdict || !g.written || s.verdict.lastStep == some g.step then s
      else
        let raw := s.peek e.buf 4096
        let bits := (raw.drop 1024).take 32
        let d := s.judgeVerdict (wordsOf (raw.take 1024)) bits
        let nx := s.verdictAfter d.1
        let l := s.lossScale
        let v := s.verdict
        let flags := b2n d.1 + 2 * b2n (!d.1) + 4 * b2n (g.cause == 2)
        let clip := bytesOf d.2.2
        let prev := g.step != 0
        let hist := BitVec.ofNat 64 ((if prev then v.history.toNat * 2 else 0) + b2n d.1)
        let head := leBytes 4 0x52564E48 ++ leBytes 2 1 ++ leBytes 2 flags ++ leBytes 8 g.step ++ leBytes 8 nx.2.1.toNat ++
          leBytes 4 l.toNat ++ leBytes 4 nx.2.2.toNat ++ leBytes 4 nx.1 ++ leBytes 4 d.2.1.toNat ++ leBytes 4 g.added ++
          leBytes 4 0 ++ leBytes 8 hist.toNat ++ (raw.drop 1056).take 8 ++ leBytes 2 (if prev then v.prevFlags else 0) ++
          leBytes 2 0 ++ leBytes 4 (if prev then v.prevScale.toNat else 0) ++ leBytes 8 (if prev then v.prevT.toNat else 0)
        let record := padTo 0x400 head ++ clip ++
          padTo 0x400 (if prev then bytesOf v.prevClip else []) ++ padTo 0x400 bits
        let s := { s with verdict := { started := true, scale := nx.2.2, clean := nx.1, t := nx.2.1, history := hist,
                                       prevFlags := flags, prevScale := l, prevT := nx.2.1, prevClip := d.2.2,
                                       lastStep := some g.step } }
        let t : TxPkt := { dst := 0, vc := 2, ptype := 4, stepTag := g.step % 65536, bushel := e.id, payload := record }
        let rt := s.routeNow
        let s := (s.sendAll rt s.job e.contribList t).1
        if (s.jobList e.contribList).contains s.ownId then (s.sendTo rt s.ownId t).1 else s)

/-! ## Resolution (R269) -/

def updPending : Nat := 0
def updStale : Nat := 1
def updMismatch : Nat := 2
def updStaleSchedule : Nat := 3
def updDiverged : Nat := 4
def updNonfinite : Nat := 5
def State.updBit (s : State) (i : Nat) : Bool := bitOf (s.reg rHubUpdStatus) i

/-- One step of a record put on the update list: UPD_T, the counters and whether UPD_T did not match. -/
def State.listStep (s : State) (step flags t : Nat) (scale : W32) (clip : List W32) (catchUp : Bool) : State × Bool :=
  let local' := s.reg rHubUpdT
  if bitOf flags 0 then
    let s := (s.setReg rHubUpdT t).count rHubCtrUPDAPPLIED 1
    let s := if catchUp then s.count rHubCtrUPDCAUGHTUP 1 else s
    let u := s.upd
    ({ s with upd := { u with work := u.work ++ [{ step := step, catchUp := catchUp, tUse := t, scale := scale, clip := clip }] } },
      decide ((local' + 1) % 2 ^ 64 ≠ t))
  else ((s.setReg rHubUpdT t).count rHubCtrUPDSKIPPED 1, decide (local' ≠ t))

/-- The resolution of a step that has a record (R269). -/
def State.resolveRecord (s : State) (step : Nat) (rec : List Byte) : State :=
  let word := fun o => BitVec.ofNat 32 (fieldAt rec o 4)
  let (s, m1) := if s.updBit updPending then
      let (s, m) := s.listStep (step - 1) (fieldAt rec 0x40 2) (fieldAt rec 0x48 8) (word 0x44)
        (wordsOf ((rec.drop 0x800).take 0x400)) true
      (s.setFlag rHubUpdStatus updPending false, m)
    else (s, false)
  let (s, m2) := s.listStep step (fieldAt rec 6 2) (fieldAt rec 0x10 8) (word 0x18) (wordsOf ((rec.drop 0x400).take 0x400)) false
  if m1 || m2 then (s.setFlag rHubUpdStatus updMismatch true).count rHubCtrUPDMISMATCH 1 else s

/-- VERDICT_RESOLUTION (R269): the result tick of the verdict bushel is observed. -/
def execVerdictResolution (entry : Nat) (s : State) : Answer :=
  answerSys s (match s.bushelEnt entry with
    | none => s
    | some e =>
      let k := 2 * entry + 1
      let g := s.bushel k
      if e.kind != kindVerdict || !e.receive || !g.opened || s.upd.resolved == some g.step ||
          decide (s.now < s.stepTick g.step e.resultOff) || s.redPending k then s
      else
        let present := decide (0 < g.closedSegs)
        let s := { s with upd := { resolved := some g.step } }
        let s := if present then s else s.count rHubCtrUPDMISSED 1
        if s.updBit updStale then s
        else if present then s.resolveRecord g.step (s.peek e.buf 4096)
        else if s.updBit updPending then (s.setFlag rHubUpdStatus updPending false).setFlag rHubUpdStatus updStale true
        else
          let s := (s.setFlag rHubUpdStatus updPending true).alarm srcHub 0x0B
          { s with upd := { s.upd with missed := true } })

/-! ## The update body (R274) -/

/-- An entry of an update body, with the place of its part of the hold area (R275) and the count of parameters before
it in the packet (R278). -/
structure UpdEnt where
  group : Nat
  bushel : Nat
  first : Nat
  n : Nat
  master : Nat
  m1 : Nat
  m2 : Nat
  compute : Nat
  frozen : Nat
  pre : Nat
  hold : Nat
  before : Nat
  deriving DecidableEq, Repr

def holdBytes (n : Nat) : Nat := alignUp (4 * n + ceilDiv n 1024) 64

def State.updEnts (s : State) (body : Nat) : List UpdEnt :=
  ((List.range (s.ld 4 body)).foldl (fun (a : List UpdEnt × Nat × Nat) i =>
    let b := body + 32 + 64 * i
    let n := s.ld 4 (b + 0xC)
    (a.1 ++ [{ group := s.ld 1 b, bushel := s.ld 4 (b + 4), first := s.ld 4 (b + 8), n := n, master := s.ld 6 (b + 0x10),
               m1 := s.ld 6 (b + 0x18), m2 := s.ld 6 (b + 0x20), compute := s.ld 6 (b + 0x28), frozen := s.ld 6 (b + 0x30),
               pre := s.ld 6 (b + 0x38), hold := a.2.1, before := a.2.2 }], a.2.1 + holdBytes n, a.2.2 + n))
    ([], s.ld 8 (body + 8), 0)).1

/-- Reads and writes of an update, counted (R245). -/
def State.uload (s : State) (e a n : Nat) : State × List Byte × Nat :=
  match s.load a n with
  | .ok bs => ((s.noteRead a n).vcount e a n, bs, 0)
  | .fault c => (s, [], c)

def State.ustore (s : State) (e a : Nat) (bs : List Byte) : State × Nat :=
  let r := s.put (some e) a bs
  (if r.2 = 0 then r.1.vcount e a bs.length else r.1, r.2)

/-- Where the 32 values from element `j` of a plane of n elements lie: element bytes, and scale bytes of a block-scaled
format, whose plane starts at the first 256-byte boundary after the elements (R274). -/
def planeAt (f : Fmt) (base n j : Nat) : (Nat × Nat) × (Nat × Nat) :=
  ((base + j * f.elemBits / 8, 4 * f.elemBits),
    if f.scaled then (alignUp (base + f.elemBytes n) 256 + j / f.block * f.scaleBytes, 32 / f.block * f.scaleBytes) else (0, 0))

/-- Bytes a plane spans, its scales included. -/
def planeSpan (f : Fmt) (base n : Nat) : Nat :=
  if f.scaled then alignUp (base + f.elemBytes n) 256 - base + f.scalePlaneBytes n else f.elemBytes n

/-- 32 values of a state plane. -/
def State.readPlane (s : State) (e : Nat) (f : Fmt) (mo : Moment) (base n j : Nat) : State × List W32 × Nat :=
  let p := planeAt f base n j
  let (s, el, c) := s.uload e p.1.1 p.1.2
  if c ≠ 0 then (s, [], c)
  else if f.scaled then
    let (s, sc, c) := s.uload e p.2.1 p.2.2
    if c ≠ 0 then (s, [], c) else (s, (decodeAny f 0 mo 32 el sc).map toF32, 0)
  else (s, (decodeAny f 0 mo 32 el []).map toF32, 0)

/-- 32 values written to a state plane. -/
def State.writePlane (s : State) (e : Nat) (f : Fmt) (ovfNan : Bool) (mo : Moment) (rnd : Nat → Rnd) (base n j : Nat)
    (xs : List W32) : State × Nat :=
  let p := planeAt f base n j
  let vs := xs.map ofF32
  if f.scaled then
    let b := encodeBlocks f ovfNan 0 mo rnd vs
    let r := s.ustore e p.1.1 b.1
    if r.2 ≠ 0 then r else r.1.ustore e p.2.1 b.2
  else s.ustore e p.1.1 (encodePlains f ovfNan rnd vs)

/-- Whether a range lies in one part of the address map (R8, R276). -/
def inMap (a n : Nat) : Bool := spaceOf a != .none && inSpace (spaceOf a) a n

/-! ## The recurrence (R272) -/

/-- a^t, within 8 ulp; 0^t is 0 for t of 1 or more, and a^0 is 1. -/
def powT (a : W32) (t : Nat) : W32 :=
  if t = 0 then f32One
  else match ofF32 a with
    | .fin _ m _ =>
      if m = 0 then 0#32 else if a = f32One then f32One
      else withinUlp 8 sitePow (a.toNat * 2 ^ 64 + t) (fpOfFix false (fixExp ((t : Int) * fixLn (fixOf (ofF32 a)))))
    | _ => f32NaN

/-- 1 ÷ (1 − a^t), rounded once. -/
def biasOf (on : Bool) (a : W32) (t : Nat) : W32 :=
  if on then toF32 (Fp.div Fp.one (Fp.sub Fp.one (ofF32 (powT a t)))) else f32One

/-- The scalars of one update entry. -/
structure Scalars where
  gs : W32
  c : W32
  k2 : W32
  pk : W32
  deriving DecidableEq, Repr

def scalarsOf (r : Rule) (u : UpdStep) (g : Nat) : Scalars :=
  { gs := toF32 (Fp.div (Fp.mul (ofF32 r.gscale) (ofF32 (listGet f32One u.clip g))) (ofF32 u.scale)),
    c := toF32 (Fp.sub Fp.one (Fp.mul (ofF32 r.eta) (ofF32 r.lam))),
    k2 := biasOf r.bias r.a2 u.tUse,
    pk := f32Mul r.p1 (biasOf r.bias r.a1 u.tUse) }

/-- sign(x): +1, −1, +0 for ±0, NaN for NaN. -/
def f32Sign (x : W32) : W32 :=
  if f32IsNaN x then f32NaN else if (ofF32 x).isZero then 0#32 else if (ofF32 x).isNeg then 0xBF800000#32 else f32One

/-- One element: the new w, s1 and s2. -/
def recur (r : Rule) (k : Scalars) (g1 w s1 s2 : W32) : W32 × W32 × W32 :=
  let s1 := if r.s1 then f32Fma r.a1 s1 (f32Mul r.b1 g1) else 0#32
  let q := if r.abs then f32Abs g1 else f32Mul g1 g1
  let s2 := if r.s2 then f32Fma r.a2 s2 (f32Mul r.b2 q) else 0#32
  let num := f32Fma k.pk s1 (f32Mul r.p2 g1)
  let d := match r.den with
    | 0 => f32Div num f32One
    | 1 => f32Div num (f32Add (f32Sqrt (f32Mul s2 k.k2)) r.eps)
    | _ => f32Sign num
  (f32Fma (f32Neg r.eta) d (f32Mul w k.c), s1, s2)

/-! ## Exclusions and means (R273, R275) -/

/-- Flags of a segment of an entry: 1 ZERO, 2 NONFINITE, 4 MISSING; of a catch-up from the hold area. -/
def State.segFlags (s : State) (e : Nat) (x : UpdEnt) (b : BushelEnt) (catchUp : Bool) (q : Nat) : State × Nat × Nat :=
  if catchUp then
    let (s, bs, c) := s.uload e (x.hold + 4 * x.n + q) 1
    (s, leNat bs % 4, c)
  else
    let (s, bs, c) := s.uload e (sideAddr b.side (x.first + q)) 8
    let w := leNat bs
    (s, b2n (bitOf w 19) + 2 * b2n (bitOf w 20) + 4 * b2n (bitOf w 21), c)

/-- Where the mean of parameter `j` lies. -/
def meanAddr (x : UpdEnt) (b : BushelEnt) (catchUp : Bool) (j : Nat) : Nat :=
  if catchUp then x.hold + 4 * j else b.buf + 4096 * x.first + 4 * j

/-- Whether block `i` of 32 is frozen by the mask, whose bytes are given. -/
def maskFrozen (x : UpdEnt) (mask : List Byte) (i : Nat) : Bool :=
  x.frozen != 0 && bitOf ((listGet 0#8 mask (i / 8)).toNat) (i % 8)

/-! ## The block preconditioner (R279, R280) -/

abbrev Matrix := List (List W32)

def matAt (m : Matrix) (i j : Nat) : W32 := listGet 0#32 (listGet [] m i) j
def matOf (r c : Nat) (f : Nat → Nat → W32) : Matrix := (List.range r).map (fun i => (List.range c).map (fun j => f i j))
def matDot (n : Nat) (f g : Nat → W32) : W32 := forN n 0#32 (fun t acc => f32Fma (f t) (g t) acc)
/-- A product of an r × n and an n × c matrix: FP32 sums in ascending inner index, one rounding per FMA. -/
def matMul (r n c : Nat) (a b : Matrix) : Matrix := matOf r c (fun i j => matDot n (fun t => matAt a i t) (fun t => matAt b t j))
def matIdent (n : Nat) (x : W32) : Matrix := matOf n n (fun i j => if i = j then x else 0#32)
def matTrace (n : Nat) (m : Matrix) : W32 := sumFrom ((List.range n).map (fun i => matAt m i i))

/-- CHOL on a copy (R243): whether every pivot is positive. -/
def cholOk (n : Nat) (m : Matrix) : Bool :=
  let mem := forN n ([] : Mem) (fun i acc => forN n acc (fun j acc => matSet acc 0 i j (matAt m i j)))
  (forN n (mem, none) (fun j st => cholCol 0 n j st)).2 == none

/-- c^(−1/4) of a positive c, the exact value rounded once (R62): the largest integer q with (q × 2^s)^4 × c ≤ 1, and a
bit that says whether q × 2^s falls short of it. -/
def invRoot4 (c : W32) : W32 :=
  match ofF32 c with
  | .fin false m e =>
    let s := -((e + 24) / 4) - 40
    let d := (-4 * s - e).toNat
    let q := isqrt (isqrt (2 ^ d / m))
    toF32 (.fin false (2 * q + b2n (q ^ 4 * m != 2 ^ d)) (s - 1))
  | .inf false => 0#32
  | _ => f32NaN

/-- 16 turns of the coupled iteration. -/
def rootIter (n : Nat) : Nat → Matrix → Matrix → Matrix
  | 0, x, _ => x
  | k + 1, x, m =>
    let t := matOf n n (fun i j => f32Div (f32Sub (if i = j then 0x40A00000#32 else 0#32) (matAt m i j)) 0x40800000#32)
    let t2 := matMul n n n t t
    rootIter n k (matMul n n n x t) (matMul n n n (matMul n n n t2 t2) m)

/-- A root, by up to 4 tries of rising damping: the root, the tries that failed, and whether the identity took its place. -/
def rootOf (n : Nat) (st : Matrix) : Nat → Nat → W32 → Matrix × Nat × Bool
  | 0, failed, _ => (matIdent n f32One, failed, true)
  | k + 1, failed, e =>
    let tr := matTrace n st
    let d := if (ofF32 tr).isZero then e else f32Mul e (f32Div tr (f32OfInt n))
    let a := matOf n n (fun i j => if i = j then f32Add (matAt st i j) d else matAt st i j)
    if cholOk n a then
      let c := matTrace n a
      (rootIter n 16 (matIdent n (invRoot4 c)) (matOf n n (fun i j => f32Div (matAt a i j) c)), failed, false)
    else rootOf n st k (failed + 1) (f32Mul e 0x41200000#32)

def matBytes (m : Matrix) : List Byte := m.flatMap bytesOf
def matFrom (r c : Nat) (bs : List Byte) : Matrix := (chunksOf c (r + 1) (wordsOf bs)).take r

/-- A statistics matrix and its root at `a` (the root `off` bytes on): statistics, then the root when due. -/
def State.preRoot (s : State) (e a off n : Nat) (beta delta : W32) (due : Bool) (gg : Matrix) : State × Matrix × Nat :=
  let (s, bs, c) := s.uload e a (4 * n * n)
  let (s, rb, c2) := s.uload e (a + off) (4 * n * n)
  if c ≠ 0 then (s, [], c) else if c2 ≠ 0 then (s, [], c2)
  else
    let old := matFrom n n bs
    let st := matOf n n (fun i j => f32Fma beta (matAt old i j) (matAt gg i j))
    if !due then
      let r := s.ustore e a (matBytes st)
      (r.1, matFrom n n rb, r.2)
    else
      let (root, failed, ident) := rootOf n st 4 0 delta
      let s := s.count rHubCtrPRECONDRETRIES (if ident then 3 else failed)
      let s := s.count (rVecCtrFACTORFAILS (engDie e) (engInst e)) failed
      let s := if ident then s.count rHubCtrPRECONDFALLBACK 1 else s
      let st := if ident && st.any (fun row => row.any (fun x => !f32IsFinite x)) then matIdent n 0#32 else st
      let r := s.ustore e a (matBytes st)
      if r.2 ≠ 0 then (r.1, root, r.2)
      else
        let r := r.1.ustore e (a + off) (matBytes root)
        (r.1, root, r.2)

/-- The preconditioned g1 of one block, whose rows are given (R280). -/
def State.preBlock (s : State) (e a br bc : Nat) (beta delta : W32) (due : Bool) (g : Matrix) : State × Matrix × Nat :=
  let gt := matOf bc br (fun i j => matAt g j i)
  let stats := 4 * (br * br + bc * bc)
  let (s, l, c) := s.preRoot e a stats br beta delta due (matMul br bc br g gt)
  if c ≠ 0 then (s, [], c)
  else
    let (s, r, c) := s.preRoot e (a + 4 * br * br) (4 * (bc * bc) + 4 * (br * br)) bc beta delta due (matMul bc br bc gt g)
    if c ≠ 0 then (s, [], c) else (s, matMul br bc bc (matMul br br bc l g) r, 0)

/-- The values of a preconditioner's descriptor for an entry of n parameters (R279). -/
def preOk (n : Nat) (d : List Byte) : Bool :=
  let rl := fieldAt d 0 4
  let br := fieldAt d 4 2
  let bc := fieldAt d 6 2
  let beta := BitVec.ofNat 32 (fieldAt d 8 4)
  let delta := BitVec.ofNat 32 (fieldAt d 0xC 4)
  let okDim := fun v => decide (32 ≤ v) && decide (v ≤ 256) && v % 32 == 0
  okDim br && okDim bc && rl % bc == 0 && rl != 0 && n % (br * rl) == 0 && f32IsFinite beta && !f32Lt beta 0#32 &&
    !f32Lt f32One beta && f32IsFinite delta && f32Lt 0#32 delta && fieldAt d 0x10 2 != 0 && fieldAt d 0x12 46 == 0

/-- Every block of an entry, those that hold an excluded parameter left out. `excl` says it of a block of 32. -/
def State.preAll (s : State) (e : Nat) (x : UpdEnt) (tUse : Nat) (excl : Nat → Bool) (g1 : List W32) :
    State × List W32 × Nat :=
  let (s, d, c) := s.uload e x.pre 64
  if c ≠ 0 then (s, g1, c)
  else
    let rl := fieldAt d 0 4
    let br := fieldAt d 4 2
    let bc := fieldAt d 6 2
    let beta := BitVec.ofNat 32 (fieldAt d 8 4)
    let delta := BitVec.ofNat 32 (fieldAt d 0xC 4)
    let p := fieldAt d 0x10 2
    if !preOk x.n d then (s, g1, 1)
    else
      let cols := rl / bc
      let due := (tUse - 1) % p == 0
      (List.range (x.n / (br * bc))).foldl (fun (acc : State × List W32 × Nat) k =>
        let (s, g1, c) := acc
        let idx := fun r q => (k / cols * br + r) * rl + k % cols * bc + q
        if c ≠ 0 ∨ (List.range br).any (fun r => (List.range (bc / 32)).any (fun q => excl (idx r (32 * q) / 32))) then acc
        else
          let g := matOf br bc (fun r q => listGet 0#32 g1 (idx r q))
          let (s, out, c) := s.preBlock e (x.pre + 64 + k * (8 * (br * br + bc * bc))) br bc beta delta due g
          if c ≠ 0 then (s, g1, c)
          else (s, (List.range br).foldl (fun gs r => (List.range bc).foldl (fun gs q =>
            listSet gs (idx r q) (matAt out r q)) gs) g1, 0)) (s, g1, 0)

/-! ## One entry in one step (R272 to R278) -/

/-- The checks of R274 and R276 when an entry begins: each state base is there exactly when the group's flags require it. -/
def updLegal (r : Rule) (x : UpdEnt) : Bool :=
  r.valid && (r.s1 == (x.m1 != 0)) && (r.s2 == (x.m2 != 0)) && (r.precond == (x.pre != 0)) &&
    inMap x.master (planeSpan (r.fmt 0) x.master x.n) && inMap x.compute (planeSpan r.conv.fmt x.compute x.n) &&
    (!r.s1 || inMap x.m1 (planeSpan (r.fmt 1) x.m1 x.n)) && (!r.s2 || inMap x.m2 (planeSpan (r.fmt 2) x.m2 x.n)) &&
    (x.frozen == 0 || inMap x.frozen (ceilDiv x.n 256)) && (!r.precond || inMap x.pre 64)

/-- Bytes of a preconditioner with this descriptor, for an entry of n parameters (R279). -/
def preSpan (n : Nat) (d : List Byte) : Nat :=
  let br := fieldAt d 4 2
  let bc := fieldAt d 6 2
  64 + n / (br * bc) * (8 * (br * br + bc * bc))

/-- The fault an entry begins with, or 0: the checks of R276, and the preconditioner's descriptor and region (R279). -/
def State.updFault (s : State) (r : Rule) (x : UpdEnt) : Nat :=
  if !updLegal r x then 1
  else if !r.precond then 0
  else match s.load x.pre 64 with
    | .fault c => c
    | .ok d => if preOk x.n d && inMap x.pre (preSpan x.n d) then 0 else 1

/-- Block `i` of 32 parameters updated and written in its formats (R272, R277, R278). -/
def State.updBlock (s : State) (e : Nat) (run : Run) (x : UpdEnt) (r : Rule) (k : Scalars) (ou i : Nat) (g1 : List W32) :
    State × Nat :=
  let j := 32 * i
  let draw := fun slot l => Rnd.sr (run.rngWord (ou + 4 * (x.before + j + l) + slot) >>> 16)
  let (s, w, c) := s.readPlane e (r.fmt 0) .first x.master x.n j
  if c ≠ 0 then (s, c)
  else
    let (s, v1, c) := if r.s1 then s.readPlane e (r.fmt 1) .first x.m1 x.n j else (s, [], 0)
    if c ≠ 0 then (s, c)
    else
      let (s, v2, c) := if r.s2 then s.readPlane e (r.fmt 2) .second x.m2 x.n j else (s, [], 0)
      if c ≠ 0 then (s, c)
      else
        let out := (List.range 32).map (fun l =>
          recur r k (listGet 0#32 g1 l) (listGet 0#32 w l) (listGet 0#32 v1 l) (listGet 0#32 v2 l))
        let ws := out.map (fun o => o.1)
        let rne := fun _ => Rnd.rne
        let (s, c) := if r.s1 then s.writePlane e (r.fmt 1) false .first rne x.m1 x.n j (out.map (fun o => o.2.1)) else (s, 0)
        if c ≠ 0 then (s, c)
        else
          let (s, c) := if r.s2 then s.writePlane e (r.fmt 2) false .second rne x.m2 x.n j (out.map (fun o => o.2.2)) else (s, 0)
          if c ≠ 0 then (s, c)
          else
            let bf := r.fmt 0 == .bf16
            let (s, c) := s.writePlane e (r.fmt 0) false .first (if bf then draw 0 else rne) x.master x.n j ws
            if c ≠ 0 then (s, c)
            else
              let cv := r.conv
              let words := 32 * (b2n bf + b2n cv.sr)
              (s.count (rVecCtrRNGWORDS (engDie e) (engInst e)) words).writePlane e cv.fmt cv.ovfNan .first
                (if cv.sr then draw 1 else rne) x.compute x.n j ws

/-- The flags of every segment of an entry that a block not frozen reaches. -/
def State.allFlags (s : State) (e : Nat) (x : UpdEnt) (b : BushelEnt) (catchUp : Bool) (frozen : Nat → Bool) :
    State × List Nat × Nat :=
  (List.range (ceilDiv x.n 1024)).foldl (fun (a : State × List Nat × Nat) q =>
    if a.2.2 ≠ 0 then a
    else if (List.range 32).all (fun i => decide (x.n ≤ 1024 * q + 32 * i) || frozen (32 * q + i)) then (a.1, a.2.1 ++ [0], 0)
    else
      let (s, f, c) := a.1.segFlags e x b catchUp q
      (s, a.2.1 ++ [f], c)) (s, [], 0)

/-- One entry, for one step of the update list. -/
def State.updEntry (s : State) (e : Nat) (run : Run) (u : UpdStep) (x : UpdEnt) : State × Nat :=
  match s.bushelIn run.bind.addr x.bushel with
  | none => (s, 1)
  | some b =>
    let (r, sched) := s.ruleFor run.began x.group u.tUse
    let fault := s.updFault r x
    if fault ≠ 0 then (s, fault)
    else
      let s := if sched then
          ((s.setFlag rHubUpdStatus updStaleSchedule true).count rHubCtrUPDSTALESCHEDULE 1).modRun e (fun r => r.withStatus 2)
        else s
      if r.freeze then (s, 0)
      else
        let (s, mask, c) := if x.frozen = 0 then (s, [], 0) else s.uload e x.frozen (ceilDiv x.n 256)
        if c ≠ 0 then (s, c)
        else
          let (s, flags, c) := s.allFlags e x b u.catchUp (maskFrozen x mask)
          if c ≠ 0 then (s, c)
          else
            let s := s.count rHubCtrUPDEXCLUDEDSEGMENTS (flags.filter (fun f => f != 0)).length
            let s := if flags.any (fun f => bitOf f 1) then
                (s.setFlag rHubUpdStatus updNonfinite true).modRun e (fun r => r.withStatus 2) else s
            let s := if b.kind == kindReplicated && flags.any (fun f => bitOf f 2) then s.setFlag rHubUpdStatus updDiverged true else s
            let excl := fun i => maskFrozen x mask i || listGet 0 flags (i / 32) != 0
            let k := scalarsOf r u x.group
            let blocks := (List.range (x.n / 32)).filter (fun i => !excl i)
            let (s, g1, c) := (List.range (x.n / 32)).foldl (fun (a : State × List W32 × Nat) i =>
              if a.2.2 ≠ 0 then a
              else if excl i then (a.1, a.2.1 ++ List.replicate 32 0#32, 0)
              else
                let (s, bs, c) := a.1.uload e (meanAddr x b u.catchUp (32 * i)) 128
                (s, a.2.1 ++ (wordsOf bs).map (fun g => f32Mul g k.gs), c)) (s, [], 0)
            if c ≠ 0 then (s, c)
            else
              let (s, g1, c) := if r.precond then s.preAll e x u.tUse excl g1 else (s, g1, 0)
              if c ≠ 0 then (s, c)
              else
                let ou := (((run.genBase : Int) + ((u.step : Int) - (run.step : Int)) * 2 ^ 40) % 2 ^ 64).toNat
                untilFault (fun i t => t.updBlock e run x r k ou i ((g1.drop (32 * i)).take 32)) blocks s

/-- The means and flags of an entry copied to the hold area (R275). -/
def State.holdEntry (s : State) (e : Nat) (run : Run) (x : UpdEnt) : State × Nat :=
  match s.bushelIn run.bind.addr x.bushel with
  | none => (s, 1)
  | some b =>
    untilFault (fun q t =>
      let n := capAt 4096 (4 * x.n - 4096 * q)
      let (t, bs, c) := t.uload e (meanAddr x b false (1024 * q)) n
      if c ≠ 0 then (t, c)
      else
        let r := t.ustore e (x.hold + 4096 * q) bs
        if r.2 ≠ 0 then r
        else
          let (t, f, c) := r.1.segFlags e x b false q
          if c ≠ 0 then (t, c) else t.ustore e (x.hold + 4 * x.n + q) [BitVec.ofNat 8 (f % 4)]) (List.range (ceilDiv x.n 1024)) s

/-- An update packet reads the resolution when it starts (R275). -/
def State.updStart (s : State) (e : Nat) (run : Run) : State :=
  if s.standby 2 run.pid then s.retire e
  else if s.updBit updStale then s.faultRun e 0x0B
  else if !s.upd.missed then s.setRun e { run with work := s.upd.work }
  else if s.ld 8 (run.body + 8) = 0 then
    ((s.setFlag rHubUpdStatus updPending false).setFlag rHubUpdStatus updStale true).faultRun e 0x0B
  else s.setRun e { run with holding := true }

/-- The next entry of an update packet, one instruction (R38): of the copy to the hold area, or of a step of its list. -/
def State.updUnit (s : State) (e : Nat) (run : Run) : State :=
  let ents := s.updEnts run.body
  if run.holding then
    let s := s.rowStep e (0, ents.length) (fun n u => match ents[n]? with
      | some x => u.holdEntry e run x
      | none => (u, 0))
    match s.run e with
    | some r => if r.retired && !r.stopped then s.faultRun e 0x0B else s
    | none => s
  else s.rowStep e (0, run.work.length * ents.length) (fun n u => match run.work[n / ents.length]?, ents[n % ents.length]? with
    | some w, some x => if w.catchUp ∧ s.ld 8 (run.body + 8) = 0 then (u, 0x0B) else u.updEntry e run w x
    | _, _ => (u, 0))

/-- An update packet goes on. -/
def State.updRun (s : State) (e : Nat) (run : Run) : State :=
  let s := if run.prog = 0 then s.updStart e run else s
  match s.run e with
  | some r => if r.stopped || r.retired then s else s.updUnit e r
  | none => s

/-- Whether the resolution an update packet reads is there; an engine that observes the result tick first waits. -/
def State.updReady (s : State) (e : Nat) : Bool :=
  match s.nextPacket e with
  | some (p, _, _, _) => s.standby 2 p.packet.pid || s.updBit updStale ||
      (match s.upd.resolved with | some r => decide (p.step ≤ r) | none => false)
  | none => false

/-- UPDATE (R274, R275): an update packet starts once the resolution it reads is there, or goes on by one entry
(log 72). -/
def execUpdate (die i : Nat) (s : State) : Answer :=
  answer s (
    let e := engineId 3 die i
    if (s.run e).isNone && !s.updReady e then s else s.packetStep e 0x0B (fun _ => true) (fun u r => u.updRun e r))

end Sys2Proof.Machine
end

