-- ==== Sys2Proof/Machine/Snap.lean ====
section
/-!
DEFINITION. Machine/Snap.lean: mirrors, promotion, generations and exports (R286 to R304). What arrives from the fabric
comes in through Machine/Receive.lean.
-/

namespace Sys2Proof.Machine

/-! ## Mirror sends (R287) -/

/-- Whether this module is the job's coordinator (R249, R292). -/
def State.coordinator (s : State) : Bool := !s.job.bytes.isEmpty && s.resolveId (s.job.field 0x18 2) == s.ownId

/-- The verdict state as hub state bytes 24 to 63 carry it (log 50): loss scale, clean count, t, history, and the
previous step's flags, loss scale and t. -/
def State.verdictBytes (s : State) : List Byte :=
  let v := s.verdict
  leBytes 4 s.lossScale.toNat ++ leBytes 4 v.clean ++ leBytes 8 v.t.toNat ++ leBytes 8 v.history.toNat ++
    leBytes 2 v.prevFlags ++ leBytes 2 0 ++ leBytes 4 v.prevScale.toNat ++ leBytes 8 v.prevT.toNat

/-- The verdict state taken from those bytes; the previous step's factors, which they do not carry, are open (site 15). -/
def State.adoptVerdict (s : State) (b : List Byte) : State :=
  let (s, k) := s.draw 15
  { s with verdict :=
      { started := true, scale := BitVec.ofNat 32 (fieldAt b 0 4), clean := fieldAt b 4 4, t := BitVec.ofNat 64 (fieldAt b 8 8),
        history := BitVec.ofNat 64 (fieldAt b 16 8), prevFlags := fieldAt b 24 2,
        prevScale := BitVec.ofNat 32 (fieldAt b 28 4), prevT := BitVec.ofNat 64 (fieldAt b 32 8),
        prevClip := (List.range 256).map (fun i => BitVec.ofNat 32 (Config.freeValue 15 (k + i)).toNat) } }

def State.verdictOut (s : State) : List Byte := if s.coordinator then s.verdictBytes else List.replicate 40 0#8

/-- The hub state segment (R287). -/
def State.hubState (s : State) (step : Nat) : List Byte :=
  padTo 4096 (leBytes 8 (s.reg rHubUpdT) ++ leBytes 4 (s.reg rHubUpdStatus) ++ leBytes 4 0 ++ leBytes 8 step ++ s.verdictOut)

def snapStaging : Nat := 0
def snapDraining : Nat := 1
def snapExporting : Nat := 2
def snapHoldup : Nat := 3
def snapHoldupDone : Nat := 4
def snapLiveValid : Nat := 5
def snapDeposed : Nat := 6
def snapPromoted : Nat := 7
def snapLandingMissed : Nat := 8
def snapGenFailed : Nat := 9
def State.snapBit (s : State) (i : Nat) : Bool := bitOf (s.reg rSnapStatus) i

/-- Segments of the first n entries of a mirror send's body. -/
def State.mirrorCount (s : State) (body n : Nat) : Nat := ((List.range n).map (fun i => s.ld 4 (body + 16 + 16 * i + 8))).sum

/-- Segment j of a mirror send goes on the (j mod n)-th of the ports UP at its start (R287). -/
def State.stripe (s : State) (r : Run) (j : Nat) (x : TxPkt) : State :=
  match r.route.up[j % r.route.up.length]? with
  | some p => warnUnsent (s.enqueue p x)
  | none => s.warnSend

/-- Part n of a mirror send: an entry, or behind the last one the hub state segment and the END of each port. -/
def State.mirrorPart (s : State) (r : Run) (n : Nat) : State × Nat :=
  let t : TxPkt := { dst := r.bind.job.field 0x28 2, vc := 1, ptype := 5, stepTag := r.step % 65536, pid := r.pid }
  let first := s.mirrorCount r.body n
  if n < s.ld 4 r.body then
    let b := r.body + 16 + 16 * n
    untilFault (fun j u =>
      match u.load (u.ld 6 b + 4096 * j) 4096 with
      | .fault c => (u, c)
      | .ok bs => (u.stripe r (first + j) { t with index := u.ld 4 (b + 0xC) + j, payload := bs }, 0)) (List.range (s.ld 4 (b + 8))) s
  else
    let s := s.stripe r first { t with index := first, payload := s.hubState r.step }
    let sent := fun q => ((List.range (first + 1)).filter (fun j => j % r.route.up.length == q)).length
    ((List.range r.route.up.length).foldl (fun u q =>
      if sent q = 0 then u else u.stripe r q { t with ptype := 2, index := 0, aux := sent q }) s, 0)

/-- MIRROR_SEND (R287): a mirror send starts, or goes on by one part (log 72); one with no mirror, or of a deposed module, sends
nothing. -/
def execMirrorSend (s : State) : Answer :=
  answer s (s.packetStep hubEngine 0x0C (fun _ => true) (fun s r =>
    if r.prog = 0 ∧ (r.bind.job.bytes.isEmpty ∨ r.bind.job.field 0x28 2 = 0xFFFF ∨ s.snapBit snapDeposed) then
      s.modRun hubEngine (fun r => { r with status := 1, retired := true })
    else
      let r := if r.prog = 0 then { r with route := s.routeNow } else r
      (s.setRun hubEngine r).rowStep hubEngine (0, s.bodyCount r + 1) (fun n u => u.mirrorPart r n)))

/-! ## Landing and promotion (R288 to R292) -/

def State.slotSegs (s : State) : Nat := s.ld 4 (s.job.field 0x38 6)
def State.mirrorBase (s : State) : Nat := s.job.field 0x30 6

/-- What has landed in the step in force. -/
def State.landedNow (s : State) : List Nat := if s.snap.landingStep = s.stepNow then s.snap.landed else []
def State.landingDoneNow (s : State) : Bool := s.snap.landingDone && s.snap.landingStep == s.stepNow

/-- Whether a mirror segment is late (R288). -/
def State.mirrorLate (s : State) (b : List Byte) : Bool :=
  s.mirroredId == 0xFFFF || fieldAt b 2 2 != s.mirroredId || s.binding.active.isNone ||
    fieldAt b 0x18 2 != s.stepNow % 65536 || s.landingDoneNow || s.landedNow.contains (fieldAt b 0x1C 4)

/-- A mirror segment is written to the landing slot; the last one completes the landing and starts its copy. -/
def State.landSegment (s : State) (b : List Byte) : State :=
  if s.mirrorLate b then s.count rSnapCtrMIRRORLATE 1
  else
    let i := fieldAt b 0x1C 4
    let l := s.landedNow ++ [i]
    let done := (List.range s.slotSegs).all (fun k => l.contains k)
    let s := (s.store none (s.mirrorBase + 4096 * i) (b.drop 64)).count rSnapCtrMIRRORACCEPTED 1
    let s := { s with snap := { s.snap with landingStep := s.stepNow, landed := l, landingDone := done,
                                            everLanded := s.snap.everLanded || done, copying := done } }
    if done then s.count rSnapCtrLANDINGS 1 else s

/-- Whether this module may promote itself (R291). -/
def State.mayPromote (s : State) : Bool := s.snap.everLanded && s.mirroredId != 0xFFFF && !s.updBit updStale

/-- LANDING_BOUNDARY_CHECK (R291): the boundary of step s + 1 is observed; the landing of step s must have completed. An
automatic promotion that may not take place raises an alarm, also where this module mirrors nobody. -/
def execLandingBoundaryCheck (s : State) : Answer :=
  answer s (
    let cur := s.stepNow
    if s.binding.active.isNone || cur == 0 || s.snap.checkedStep == some cur || s.job.bytes.isEmpty then s
    else
      let s := { s with snap := { s.snap with checkedStep := some cur } }
      if s.snap.landingDone ∧ s.snap.landingStep = cur - 1 then s
      else
        let s := if s.mirroredId = 0xFFFF then s else s.setFlag rSnapStatus snapLandingMissed true
        if !bitOf (s.job.field 0x2E 2) 0 then s
        else if s.mayPromote then { s with snap := { s.snap with promoteAt := some (s.stepTick cur 0) } }
        else s.alarm srcHub 0x21)

/-- The promotion itself, in the order of R291. -/
def State.promote (s : State) : State :=
  let old := s.mirroredId
  let names := s.job.field 0x38 6
  let verdict := (List.range (s.ld 4 (names + 4))).any (fun i => s.ld 1 (names + 16 + 8 * i) == 1 &&
    (match s.bushelEnt (s.ld 4 (names + 20 + 8 * i)) with | some e => e.kind == kindVerdict | none => false))
  let s := { s with snap := { s.snap with activated := true, promoteAt := none } }
  let live := s.mirrorBase + 4096 * s.slotSegs
  let s := if verdict then s.adoptVerdict (s.peek (live + 4096 * (s.slotSegs - 1) + 24) 40) else s
  let t : TxPkt :=
    { dst := 0, vc := 2, ptype := 6, stepTag := s.stepNow % 65536, aux := old + 65536 * s.ownId, ext := s.stepNow }
  let all := s.job.field 0x2C 2
  let rt := s.routeNow
  let s := (s.sendAll rt s.job all t).1
  let s := if (s.jobList all).contains s.ownId then (s.sendTo rt s.ownId t).1 else s
  let s := { s with snap := { s.snap with mirrored := some 0xFFFF } }
  (s.setFlag rSnapStatus snapPromoted true).count rSnapCtrPROMOTIONS 1

/-- PROMOTION (R291): an armed promotion takes effect at its boundary; where it may not take place by then, an alarm is
raised and nothing changes (log 72). -/
def execPromotion (s : State) : Answer :=
  answerSys s (match s.snap.promoteAt with
    | none => s
    | some t =>
      if s.binding.active.isSome ∧ s.now < t then s
      else if s.mayPromote then s.promote
      else { s with snap := { s.snap with promoteAt := none } }.alarm srcHub 0x21)

/-- A promote notice is applied (R292). -/
def State.notice (s : State) (b : List Byte) : State :=
  let old := fieldAt b 0x20 2
  let new := fieldAt b 0x22 2
  if old = s.ownId then (s.setFlag rSnapStatus snapDeposed true).setFlag rHubUpdStatus updStale true
  else if 64 ≤ s.snap.ownerMap.length then s.alarm srcHub 0x22
  else { s with snap := { s.snap with ownerMap := s.snap.ownerMap ++ [(old, new)] } }

/-! ## Staging (R293, R294) -/

/-- The configuration in force: one that was set waits for the next step boundary (R293). -/
def State.takeSnapCfg (s : State) : State :=
  match s.snap.cfgNext with
  | none => s
  | some (t, c) =>
    if s.binding.active.isSome ∧ s.now < t then s
    else
      let n := s.snap
      let gone := c.discard && (c.n != n.cfg.n || c.slotBytes != n.cfg.slotBytes)
      { s with snap := { n with cfg := c, cfgGiven := true, cfgNext := none, base := c.phase,
                                gens := if gone then [] else n.gens,
                                dirty := if gone then n.dirty ++ n.gens.flatMap (fun g => g.blocks) else n.dirty } }

/-- Whether SNAP_NOW was issued before the boundary of a step was observed. -/
def State.snapAsked (s : State) (step : Nat) : Bool := s.snap.now.any (fun t => decide (t < s.stepTick step 0))

/-- Whether the boundary of a step is a snapshot's (R294). -/
def State.snapWanted (s : State) (step : Nat) : Bool :=
  s.snapAsked step || s.snap.owed ||
    (s.snap.cfg.enable && ((step : Int) - (s.snap.base : Int)) % (s.snap.cfg.k : Int) == 0)

/-- An update or mirror-send packet of an earlier step still runs (R294). -/
def State.earlierRunning (s : State) (step : Nat) : Bool :=
  s.engines.any (fun e => match e.2.run with
    | some r => (r.kind == 0x0B || r.kind == 0x0C) && decide (r.step < step)
    | none => false)

/-- The module state block (R294). -/
def State.stateBlock (s : State) (step : Nat) : List Byte :=
  let b := s.binding.active.getD {}
  let z := fun n => List.replicate n (0#8 : Byte)
  padTo 65536 (Tbl.getMany zeroByte s.rules.active 0 16384 ++ Tbl.getMany zeroByte s.rules.shadow 0 16384 ++
    Tbl.getMany zeroByte s.rules.prior 0 16384 ++ leBytes 8 (s.reg rHubUpdT) ++ leBytes 4 (s.reg rHubUpdStatus) ++ z 4 ++
    s.verdictOut ++ z 8 ++ leBytes 4 (s.act rHubVerdictCtrl) ++ leBytes 4 (s.act rHubVerdictScale) ++
    leBytes 4 (s.act rHubGlobalClip) ++ z 4 ++ leBytes 8 (s.job.field 8 8) ++ leBytes 8 (s.job.field 0x10 8) ++
    leBytes 2 (s.job.field 6 2) ++ z 6 ++ leBytes 8 b.rngBase ++ leBytes 8 b.planId ++ leBytes 8 step)

/-- The manifest (log 51): the region count, then each region in the form of R293. -/
def manifest (rs : List Region) : List Byte :=
  padTo 4096 (leBytes 8 rs.length ++ leBytes 8 0 ++ rs.flatMap (fun r => leBytes 8 r.base ++ leBytes 8 r.bytes))

/-- The number of the next generation (R295). -/
def State.nextGen (s : State) : Nat := s.snap.gens.foldl (fun m g => if m ≤ g.gen then g.gen + 1 else m) 1

/-- From the 100 µs step of hold-up on the stacks are in self-refresh and the links down (R299): nothing is staged, shipped
or answered. -/
def State.halted (s : State) : Bool := decide (3 ≤ s.halt.stage)

/-- An export is being staged. -/
def State.exportStaging (s : State) : Bool := s.snap.shipping.any (fun x => x.phase == 1)

/-- The staging of a step's generation begins. -/
def State.beginStaging (s : State) (b : Bind) (step : Nat) : State :=
  let c := s.snap.cfg
  let g := s.nextGen
  let j : GenJob :=
    { gen := g, slot := g % c.n, step := step, tick := s.now, t := s.reg rHubUpdT, planId := b.planId, rngBase := b.rngBase,
      jobId := s.job.field 8 8, ownId := s.job.field 6 2, regions := c.regions, stagingBase := c.stagingBase,
      cursorAddr := c.cursorAddr, cursorLen := c.cursorLen, bytes := s.stateBlock step }
  let s := { s with snap := { s.snap with
    staging := some j, now := none, owed := false, turn := none, base := if s.snap.owed then step else s.snap.base } }
  let s := if c.cursorLen = 0 then s else { s with host := { s.host with reads := s.host.reads ++ [.cursor] } }
  s.setFlag rSnapStatus snapStaging true

/-- STAGING_BEGIN (R294): the boundary of a step at which a snapshot falls due is judged, once; or a staging that waited for
packets of earlier steps begins when the last of them has ended (log 72: a step's boundary that comes meanwhile is not
judged apart). -/
def execStagingBegin (s : State) : Answer :=
  answerNoMem s (
    let s := s.takeSnapCfg
    match s.binding.active, s.snap.turn with
    | none, _ => s
    | some b, some step => if s.halted || s.earlierRunning step then s else s.beginStaging b step
    | some b, none =>
      let cur := s.stepNow
      if s.halted || !s.tick.taken || decide (s.now < b.first) || s.snap.considered == some cur || !s.snap.cfgGiven || !s.snapWanted cur then s
      else
        let s := { s with snap := { s.snap with considered := some cur } }
        if s.snap.staging.isSome || s.snap.drain.isSome || s.exportStaging || s.updBit updPending || s.updBit updStale then
          { s with snap := { s.snap with owed := true } }.count rSnapCtrDEFERRED 1
        else if s.earlierRunning cur then { s with snap := { s.snap with turn := some cur } }
        else s.beginStaging b cur)

/-- Held writes take effect once nothing holds them (R294). -/
def State.releaseHeld (s : State) : State :=
  let hs := s.snap.held
  hs.foldl (fun (t : State) h =>
    match h.accumulate with
    | 0 => t.store h.engine h.addr h.bytes
    | k => (t.accumulate h.engine (k == 2) h.addr (wordsOf h.bytes)).1) { s with snap := { s.snap with held := [] } }

/-- STAGING ends for the status register when neither a generation nor an export is being staged. -/
def State.stagingBit (s : State) : State :=
  s.setFlag rSnapStatus snapStaging (s.snap.staging.isSome || s.exportStaging)

def slotBlocks : Nat := 238418

/-- Free blocks (R302): those in the count and the spares taken, neither retired nor in use. -/
def State.freeBlocks (s : State) : List Nat :=
  let used := s.snap.gens.flatMap (fun g => g.blocks) ++ (match s.snap.drain with | some d => d.blocks | none => [])
  ((List.range (slotBlocks + s.snap.sparesUsed)).filter (fun b => !s.snap.retired.contains b)).filter (fun b => !used.contains b)

def State.erases (s : State) (b : Nat) : Nat := Tbl.get (fun _ => 0) s.snap.erase b

/-- The n free blocks with the lowest erase counts. -/
def State.pickBlocks (s : State) : Nat → List Nat → List Nat
  | 0, _ => []
  | n + 1, free =>
    match free with
    | [] => []
    | f :: fs =>
      let b := fs.foldl (fun m x => if s.erases x < s.erases m then x else m) f
      b :: State.pickBlocks s n (free.filter (fun x => x != b))

/-- Blocks are erased: their counts and the wear registers (R302, R304). -/
def State.eraseBlocks (s : State) (bs : List Nat) : State :=
  let s := bs.foldl (fun (t : State) b =>
    { t with snap := { t.snap with erase := Tbl.set (fun _ => 0) t.snap.erase b (t.erases b + 1) } }) s
  let top := s.snap.erase.foldl (fun m e => if m < e.2 then e.2 else m) (s.reg rSnapCtrERASEMAX)
  let total := s.snap.erase.foldl (fun m e => m + e.2) 0
  (s.setReg rSnapCtrERASEMAX top).setReg rSnapCtrLIFEUSED (total * 10000 / (3000 * slotBlocks))

/-- How far a drain had programmed its pages when it stopped is open (site 22): the bytes count (R304), and its blocks have
to be erased before they are used again (R302). -/
def State.dropDrain (s : State) : State :=
  match s.snap.drain with
  | none => s
  | some j =>
    let (s, k) := s.draw 22
    { s with snap := { s.snap with drain := none, dirty := s.snap.dirty ++ j.blocks } }.count rSnapCtrFLASHBYTES
      (k % (j.bytes.length + 1))

/-- A generation fails and stays invalid (R302, R429). -/
def State.genFail (s : State) : State :=
  let s := s.dropDrain
  (({ s with snap := { s.snap with staging := none } }).stagingBit.setFlag rSnapStatus snapDraining false).setFlag
    rSnapStatus snapGenFailed true

/-- Free blocks are taken for a generation; those that still hold pages are erased first. -/
def State.takeBlocks (s : State) (n : Nat) : State × List Nat :=
  let bs := s.pickBlocks n s.freeBlocks
  let s := s.eraseBlocks (bs.filter (fun b => s.snap.dirty.contains b))
  ({ s with snap := { s.snap with dirty := s.snap.dirty.filter (fun b => !bs.contains b) } }, bs)

/-- STAGING_END (R294, R295): every region and the cursor are copied; held writes are released, the slot is erased and
the drain begins. `heldCycles`: HCLK cycles in which a write was held. -/
def execStagingEnd (heldCycles : Nat) (s : State) : Answer :=
  answer s (match s.snap.staging with
    | none => s
    | some j =>
      if s.halted || (j.cursorLen != 0 && j.cursor.isNone && !j.failed) then s
      else
        let s := s.count rSnapCtrHELDWRITECYCLES heldCycles
        if j.failed || bitOf (s.reg rPwrRailOff) 14 then s.genFail.releaseHeld
        else if j.regions.any (fun r => s.badRange r.base r.bytes) then (s.memBad).genFail.releaseHeld
        else
          let body := manifest j.regions ++ j.bytes ++ j.regions.flatMap (fun r => s.peek r.base r.bytes) ++ j.cursor.getD []
          let body := padTo (alignUp body.length 4096) body
          let old := s.snap.gens.filter (fun g => g.slot == j.slot)
          let s := s.eraseBlocks (old.flatMap (fun g => g.blocks))
          let s := { s with snap := { s.snap with staging := none, gens := s.snap.gens.filter (fun g => g.slot != j.slot) } }
          let s := s.releaseHeld.store none j.stagingBase body
          let (s, blocks) := s.takeBlocks (ceilDiv body.length 0x4000000)
          let s := { s with snap := { s.snap with drain := some { j with bytes := body, blocks := blocks } } }
          (s.stagingBit).setFlag rSnapStatus snapDraining true)

/-! ## Commit, wear and failures (R295 to R297, R302) -/

/-- A 256-byte record laid out as R296 states, up to its signature. -/
def commitHead (magic : Nat) (word6 job gen step t plan tick size own regions cursor rng : Nat) (digest : List Byte) :
    List Byte :=
  leBytes 4 magic ++ leBytes 2 1 ++ leBytes 2 word6 ++ leBytes 8 job ++ leBytes 8 gen ++ leBytes 8 step ++ leBytes 8 t ++
    leBytes 8 plan ++ leBytes 8 tick ++ leBytes 8 size ++ leBytes 2 own ++ leBytes 2 regions ++ leBytes 4 cursor ++
    leBytes 8 rng ++ digest ++ List.replicate 80 0#8

/-- A record signed with the identity key. -/
def State.signRecord (s : State) (head : List Byte) : State × List Byte :=
  let (s, k) := s.draw 1
  (s, head ++ ecdsaSign s.nvm.idKey k (sha256 head))

/-- GENERATION_COMMIT (R295, R296): every data page has been programmed; the signed commit record is programmed. In
hold-up a program that has begun still completes, until the flash stops (R299); without its rail the flash fails (R390). -/
def execGenerationCommit (s : State) : Answer :=
  answerNoMem s (match s.snap.drain with
    | none => s
    | some j =>
      if 4 ≤ s.halt.stage then s
      else if bitOf (s.reg rPwrRailOff) 14 then s.genFail
      else
        let (s, rec) := s.signRecord (commitHead 0x43474E48 j.slot j.jobId j.gen j.step j.t j.planId j.tick j.bytes.length
          j.ownId j.regions.length j.cursorLen j.rngBase (sha256 j.bytes))
        let g : Gen := { slot := j.slot, gen := j.gen, blocks := j.blocks, bytes := j.bytes, commit := rec }
        let s := { s with snap := { s.snap with drain := none, gens := s.snap.gens ++ [g] } }
        ((s.count rSnapCtrGENCOMMITTED 1).count rSnapCtrFLASHBYTES (j.bytes.length + rec.length)).setFlag rSnapStatus
          snapDraining false)

/-- A block is retired and a spare takes its place, if one is left: the spare's number (R302, R352). -/
def State.retireBlock (s : State) (b : Nat) : State × Option Nat :=
  let left := s.reg rSnapCtrSPARESLEFT
  let s := ({ s with snap := { s.snap with retired := s.snap.retired ++ [b] } }).count rSnapCtrBLOCKSRETIRED 1
  if left = 0 then (s, none)
  else
    let n := slotBlocks + s.snap.sparesUsed
    (({ s with snap := { s.snap with sparesUsed := s.snap.sparesUsed + 1 } }).setReg rSnapCtrSPARESLEFT (left - 1), some n)

/-- A drain that uses a retired block: the generation is rewritten from the staging area, with a spare in the block's place, if
the area still holds it; its other blocks are erased for that, and what had been programmed counts (R302, R304, R369). -/
def State.moveDrain (s : State) (b : Nat) (spare : Option Nat) : State :=
  match s.snap.drain with
  | none => s
  | some j =>
    if !j.blocks.contains b then s
    else match spare with
      | some n =>
        if s.badRange j.stagingBase j.bytes.length || s.peek j.stagingBase j.bytes.length != j.bytes then s.genFail
        else
          let s := s.dropDrain
          let mine := j.blocks.filter (fun x => x != b)
          let s := { s with snap := { s.snap with
            dirty := s.snap.dirty.filter (fun x => !j.blocks.contains x),
            drain := some { j with blocks := j.blocks.map (fun x => if x = b then n else x) } } }
          s.eraseBlocks mine
      | none => s.genFail

/-- FLASH_FAILURE (R302): a program or an erase of a block fails. -/
def execFlashFailure (block : Nat) (s : State) : Answer :=
  answerNoMem s (
    if s.snap.retired.contains block || decide (slotBlocks + s.snap.sparesUsed ≤ block) then s
    else
      let r := s.retireBlock block
      r.1.moveDrain block r.2)

/-! ## Exports (R298) -/

/-- The element format of a source region, which no field names: FP32 or BF16 (site 17). -/
def regionFmt (r : Region) : Fmt := if (Config.freeValue 17 r.base).toNat % 2 = 0 then .fp32 else .bf16

/-- Element bytes and scale bytes of each region, converted. -/
def State.exportPlanes (s : State) (x : ExportJob) : List (List Byte × List Byte) :=
  let c := (Cvt.ofByte x.cvt).getD ⟨.fp32, false, false⟩
  let places := x.regions.foldl (fun (a : List (Nat × Region) × Nat) r => (a.1 ++ [(a.2, r)], a.2 + r.bytes)) ([], x.stagingBase)
  places.1.map (fun p =>
    let f := regionFmt p.2
    let vs := decodePlains f (p.2.bytes / (f.elemBits / 8)) (s.peek p.1 p.2.bytes)
    if c.fmt.scaled then encodeBlocks c.fmt c.ovfNan x.tau .first (fun _ => .rne) vs
    else (encodePlains c.fmt c.ovfNan (fun _ => .rne) vs, []))

/-- A stream to a window of another module, in chunks with their offsets, the header last: chunk j goes on the (j mod n)-th
port (R287, R298). -/
def State.shipFabric (s : State) (x : ExportJob) (up : List Nat) (body header : List Byte) : State :=
  let chunks := ((indexed (chunksOf 4096 (body.length + 1) (padTo (alignUp body.length 64) body))).map
    (fun ic => (256 + 4096 * ic.1, false, ic.2))) ++ [(0, true, header)]
  let tag := s.stepNow % 65536
  (indexed chunks).foldl (fun u (ic : Nat × Nat × Bool × List Byte) =>
    let t : TxPkt := { dst := x.dst, vc := 3, ptype := 7, stepTag := tag, aux := x.limit % 65536 + 65536 * b2n ic.2.2.1,
                       ext := ic.2.1, payload := ic.2.2.2 }
    match up[ic.1 % up.length]? with
    | some p => (u.enqueue p t).1
    | none => u) s

/-- Conversion and shipping: planes first, the header last. An export over the fabric with no port UP ships nothing. -/
def State.ship (s : State) (x : ExportJob) : State :=
  let ps := s.exportPlanes x
  let body := ps.flatMap (fun p => p.1) ++ ps.flatMap (fun p => p.2)
  let (s, gen) := s.draw 16
  let c := (Cvt.ofByte x.cvt).getD ⟨.fp32, false, false⟩
  let (s, header) := s.signRecord (commitHead 0x58454E48 c.fmt.code (s.job.field 8 8) gen x.step x.t x.planId
    x.tick body.length (s.job.field 6 2) x.regions.length 0 x.rngBase (sha256 body))
  let up := s.upPorts
  if x.fabric && up.isEmpty then s
  else
    let s := if x.fabric then s.shipFabric x up body header else (s.hostWrite (x.dst + 256) body).hostWrite x.dst header
    s.count rSnapCtrEXPORTBYTES (body.length + header.length)

/-- EXPORT_STAGING (R298): the next phase of the export in hand: staging begins at its boundary, ends, and the staged
copy is converted and shipped. -/
def execExportStaging (heldCycles : Nat) (s : State) : Answer :=
  answer s (
    let s := s.takeSnapCfg
    match s.snap.shipping with
    | none => s
    | some x =>
      let cur := s.stepNow
      if s.halted then s
      else match x.phase with
      | 0 =>
        if s.binding.active.isNone || decide (s.now < x.atTick) || s.earlierRunning cur || s.snap.staging.isSome ||
            s.snap.turn.isSome || (s.snap.cfgGiven && s.snapWanted cur && s.snap.considered != some cur) then s
        else if s.updBit updPending || s.updBit updStale then
          ({ s with snap := { s.snap with shipping := some { x with atTick := s.stepTick (cur + 1) 0 } } }).count rSnapCtrDEFERRED 1
        else
          let b := s.binding.active.getD {}
          let x := { x with phase := 1, tick := s.now, step := cur, t := s.reg rHubUpdT, planId := b.planId, rngBase := b.rngBase }
          ({ s with snap := { s.snap with shipping := some x } }).stagingBit
      | 1 =>
        let bad := x.regions.any (fun r => s.badRange r.base r.bytes)
        let body := x.regions.flatMap (fun r => s.peek r.base r.bytes)
        let s := ({ s with snap := { s.snap with shipping := if bad then none else some { x with phase := 2 } } }).stagingBit
        let s := (s.count rSnapCtrHELDWRITECYCLES heldCycles).releaseHeld
        if bad then s.memBad else (s.store none x.stagingBase body).setFlag rSnapStatus snapExporting true
      | _ =>
        let s := s.ship x
        ({ s with snap := { s.snap with shipping := none } }).setFlag rSnapStatus snapExporting false)

/-- A window takes an export packet (R298): what exceeds the window is discarded; the header waits until as many bytes of the
planes have come as it names, and is written to the window's start last. -/
def State.exportIn (s : State) (b : List Byte) : State :=
  let aux := fieldAt b 0x20 4
  let data := b.drop 64
  match s.snap.windows.find? (fun w => w.window == aux % 65536 && w.source == fieldAt b 2 2) with
  | none => s
  | some w =>
    let put := fun (u : State) (off : Nat) (bs : List Byte) => if w.bytes ≤ off then u else u.store none (w.base + off) (bs.take (w.bytes - off))
    let s := if bitOf aux 16 then s else put s (fieldAt b 0x24 8) data
    let w := if bitOf aux 16 then { w with header := some data } else { w with got := w.got + data.length }
    let done := match w.header with
      | some h => decide (fieldAt h 0x38 8 ≤ w.got)
      | none => false
    let s := match w.header with
      | some h => if done then put s 0 h else s
      | none => s
    let w := if done then { w with got := 0, header := none } else w
    { s with snap := { s.snap with windows := s.snap.windows.map (fun x => if x.window = w.window then w else x) } }

/-! ## The standby list's legal values (R290) -/

def State.standbyOk (s : State) (a : Nat) : Bool :=
  let n := s.ld 4 (a + 4)
  inStack a 16 && decide (2 ≤ s.ld 4 a) && decide (s.ld 4 a ≤ 1048576) && decide (n ≤ 4096) && s.ld 8 (a + 8) == 0 && inStack a (16 + 8 * n) &&
    (List.range n).all (fun i =>
      let k := s.ld 1 (a + 16 + 8 * i)
      (k == 1 || k == 2) && s.ld 3 (a + 17 + 8 * i) == 0)

end Sys2Proof.Machine
end

