-- ==== Sys2Proof/Machine/Receive.lean ====
section
/-!
DEFINITION. Machine/Receive.lean: packets that arrive from a port or by the local path (R256, R288, R308 to R313), what
their consumers do with them, and the rows that let waiting packets go on. A command carries the port (4: the head of
the local path), the packet's bytes as they arrived, and how many of the FEC codewords that they overlap were corrected
and how many are uncorrectable (R320).
-/

namespace Sys2Proof.Machine

/-- Whether VC and length of a SEGMENT or a reduction END are those of its bushel (R246, R309), where the plan in force
names it. -/
def State.fitsBushel (s : State) (b : List Byte) : Bool :=
  let ty := fieldAt b 5 1
  if (ty ≠ 1 ∧ ty ≠ 2) ∨ mirrorEnd b then true
  else match (findN s.bushelCount (fun i => (s.bushelEnt i).any (fun e => e.id == fieldAt b 0x1A 2))).bind s.bushelEnt with
    | none => true
    | some e => fieldAt b 4 1 % 4 == b2n (e.kind == kindBroadcast) &&
        (ty == 2 || fieldAt b 6 2 == (if e.bf16 then 2048 else 4096))

/-- The judgement of a packet in the cycle in which it arrives: whether it passes to its consumer. -/
def State.judgePkt (s : State) (path : Nat) (b : List Byte) : State × Bool :=
  let ty := fieldAt b 5 1
  if ty ≤ 4 then (if mirrorEnd b then (s, true) else s.judgeRed path b)
  else if ty = 5 then
    let s := s.count rSnapCtrMIRRORRX 1
    if s.mirrorLate b then (s.count rSnapCtrMIRRORLATE 1, false) else (s, true)
  else (s, true)

/-- A packet goes to its consumer; none where the consumer cannot take it: a full RAU queue, a mirror copy running. -/
def State.takePkt (s : State) (path : Nat) (b : List Byte) : Option State :=
  let ty := fieldAt b 5 1
  if ty ≤ 4 then (if mirrorEnd b then some s else s.takeRed path b)
  else if ty = 5 then (if s.snap.copying then none else some (s.landSegment b))
  else if ty = 6 then some (s.notice b)
  else some (s.exportIn b)

/-- Packets of a receive buffer go on in the order of their VC; one that cannot holds back those behind it (R312). -/
def State.drainBuf (s : State) (p : Nat) : State :=
  let buf := (s.port p).rxBuf
  let s := s.modPort p (fun q => { q with rxBuf := [] })
  (buf.foldl (fun (a : State × List Nat) x =>
    let keep := a.1.modPort p (fun q => { q with rxBuf := q.rxBuf ++ [x] })
    if a.2.contains x.vc then (keep, a.2)
    else match a.1.takePkt p x.bytes with
      | some u => (u.leave p x, a.2)
      | none => (keep, x.vc :: a.2)) (s, [])).1

def State.drainBufs (s : State) : State := forN 4 s (fun p t => t.drainBuf p)

/-- A packet arrives; `row` says which types the command names. -/
def State.arrive (s : State) (row : Nat → Bool) (port : Nat) (pkt : List Byte) (fixed bad : Nat) : State :=
  if port = 4 then
    match s.localQ with
    | [] => s
    | t :: rest =>
      let b := t.bytes s.ownId (List.replicate 16 0#8)
      if !row t.ptype then s
      else
        let r := { s with localQ := rest }.judgePkt 4 b
        if r.2 then (r.1.takePkt 4 b).getD s else r.1
  else if 4 < port then s
  else
    let r := s.linkIn port pkt fixed bad
    if !r.2 then r.1
    else
      let x : RxPkt := { vc := fieldAt pkt 4 1 % 4, units := pkt.length / 64, bytes := pkt, old := !(r.1.port port).carries }
      match r.1.pktCheck pkt with
      | 1 => (r.1.count (rFabCtrCRCDROPS port) 1).leave port x
      | 2 => (r.1.count (rFabCtrMISROUTED port) 1).leave port x
      | _ =>
        if !row (fieldAt pkt 5 1) then s
        else if !r.1.fitsBushel pkt then (r.1.count (rFabCtrMISROUTED port) 1).leave port x
        else
          let j := r.1.judgePkt port pkt
          if !j.2 then j.1.leave port x
          else
            let keep := j.1.modPort port (fun q => { q with rxBuf := q.rxBuf ++ [x] })
            if (j.1.port port).rxBuf.any (fun y => y.vc == x.vc) then keep
            else match j.1.takePkt port pkt with
              | some u => u.leave port x
              | none => keep

/-- SEGMENT (R254, R256). -/
def execSegment (port : Nat) (pkt : List Byte) (fec : Fec) (s : State) : Answer :=
  answer s (s.arrive (fun t => t == 1) port pkt fec.fixed fec.bad)
/-- END_PACKET (R260, R287). -/
def execEndPacket (port : Nat) (pkt : List Byte) (fec : Fec) (s : State) : Answer :=
  answer s (s.arrive (fun t => t == 2) port pkt fec.fixed fec.bad)
/-- RESULT (R261). -/
def execResult (port : Nat) (pkt : List Byte) (fec : Fec) (s : State) : Answer :=
  answer s (s.arrive (fun t => t == 3) port pkt fec.fixed fec.bad)
/-- VERDICT_RECORD (R262). -/
def execVerdictRecord (port : Nat) (pkt : List Byte) (fec : Fec) (s : State) : Answer :=
  answer s (s.arrive (fun t => t == 4) port pkt fec.fixed fec.bad)
/-- MIRROR (R288). -/
def execMirror (port : Nat) (pkt : List Byte) (fec : Fec) (s : State) : Answer :=
  answer s (s.arrive (fun t => t == 5) port pkt fec.fixed fec.bad)
/-- PROMOTE_NOTICE (R292). -/
def execPromoteNotice (port : Nat) (pkt : List Byte) (fec : Fec) (s : State) : Answer :=
  answer s (s.arrive (fun t => t == 6) port pkt fec.fixed fec.bad)
/-- EXPORT (R298). -/
def execExportPacket (port : Nat) (pkt : List Byte) (fec : Fec) (s : State) : Answer :=
  answer s (s.arrive (fun t => t == 7) port pkt fec.fixed fec.bad)

/-- IDLE (R309): acknowledgements and credits; it is consumed at the hop. Its link field, which e2e_crc does not cover, is
taken before the checks of R313. -/
def execIdle (port : Nat) (pkt : List Byte) (fec : Fec) (s : State) : Answer :=
  answerNoMem s (
    if 4 ≤ port ∨ (s.port port).state ≠ 2 then s
    else
      let s := s.fecSeen port fec.fixed fec.bad
      if fec.bad ≠ 0 then s
      else if pkt.length < 64 then s.count (rFabCtrCRCDROPS port) 1
      else if fieldAt pkt 5 1 ≠ 0 then s
      else
        let s := (s.linkCredits port pkt).linkAck port pkt
        if !crcRight pkt then s.count (rFabCtrCRCDROPS port) 1
        else if !pktLegal pkt then s.count (rFabCtrMISROUTED port) 1
        else s)

/-- RAU_ADD (R257): a RAU handles the oldest request of its queue; ENDs that waited are counted, and packets held back
for want of a place go on. -/
def execRauAdd (stack pc : Nat) (s : State) : Answer :=
  answer s (
    let q := 32 * stack + pc
    match s.rauAt q with
    | [] => s
    | r :: rest =>
      let s := { s with rauQ := Tbl.set (fun _ => []) s.rauQ q rest }
      ((s.rauDo r).countEnds).drainBufs)

/-- LANDING_COPY_END (R288): the live slot holds the landing, and mirror segments held back go on. -/
def execLandingCopyEnd (s : State) : Answer :=
  answer s (
    if !s.snap.copying then s
    else
      let n := 4096 * s.slotSegs
      let s := s.store none (s.mirrorBase + n) (s.peek s.mirrorBase n)
      let s := { s with snap := { s.snap with copying := false } }
      (s.setFlag rSnapStatus snapLiveValid true).drainBufs)

end Sys2Proof.Machine
end

