-- ==== Sys2Proof/Machine/Secured.lean ====
section
/-!
DEFINITION. Machine/Secured.lean: AES-256-GCM and the records that carry the messages of an SPDM session over the mailbox
(R327, R411). The spec names the algorithm and the data object type; the cipher, the record and the use of the keys are those
of the public standards (PRESUMED, log 9).
-/

namespace Sys2Proof.Machine

/-! ## AES-256 -/

/-- The substitution table: sixteen rows of sixteen bytes, the lowest byte first. -/
def aesTable : List Nat :=
  [0x76ABD7FE2B670130C56F6BF27B777C63, 0xC072A49CAFA2D4ADF04759FA7DC982CA, 0x1531D871F1E5A534CCF73F362693FDB7,
   0x75B227EBE28012079A059618C323C704, 0x842FE329B3D63B52A05A6E1B1A2C8309, 0xCF584C4A39BECB6A5BB1FC20ED00D153,
   0xA89F3C507F02F94585334D43FBAAEFD0, 0xD2F3FF1021DAB6BCF5389D928F40A351, 0x73195D643D7EA7C41744975FEC130CCD,
   0xDB0B5EDE14B8EE4688902A22DC4F8160, 0x79E4959162ACD3C25C2406490A3A32E0, 0x08AE7A65EAF4566CA94ED58D6D37C8E7,
   0x8A8BBD4B1F74DDE8C6B4A61C2E2578BA, 0x9E1DC186B95735610EF6034866B53E70, 0xDF2855CEE9871E9B948ED9691198F8E1,
   0x16BB54B00F2D99416842E6BF0D89A18C]

/-- The substitution of one byte. -/
def aesSub (x : Nat) : Nat := listGet 0 aesTable (x / 16) >>> (8 * (x % 16)) % 256

/-- Twice a byte in the cipher's field. -/
def gf8Twice (x : Nat) : Nat := if 128 ≤ x then (2 * x) ^^^ 0x11B else 2 * x

def xorBytes (a b : List Nat) : List Nat := (a.zip b).map (fun p => p.1 ^^^ p.2)

/-- `n` further words of the key schedule, latest first. -/
def aesSchedule : Nat → List (List Nat) → List (List Nat)
  | 0, ws => ws
  | n + 1, ws =>
    let i := ws.length
    let t := listGet [] ws 0
    let t := if i % 8 = 0 then xorBytes ((t.drop 1 ++ t.take 1).map aesSub) [2 ^ (i / 8 - 1), 0, 0, 0]
      else if i % 8 = 4 then t.map aesSub else t
    aesSchedule n (xorBytes (listGet [] ws 7) t :: ws)

/-- The fifteen round keys of a key of 32 bytes. -/
def aesRounds (key : List Byte) : List (List Nat) :=
  chunksOf 16 16 (aesSchedule 52 (chunksOf 4 9 (key.map BitVec.toNat)).reverse).reverse.flatten

def aesColumn (c : List Nat) : List Nat :=
  [0, 1, 2, 3].map (fun r =>
    let at_ := fun k => listGet 0 c ((r + k) % 4)
    gf8Twice (at_ 0) ^^^ gf8Twice (at_ 1) ^^^ at_ 1 ^^^ at_ 2 ^^^ at_ 3)

def aesShift (b : List Nat) : List Nat := (List.range 16).map (fun i => listGet 0 b ((i + 4 * (i % 4)) % 16))

/-- One block encrypted under round keys. -/
def aesBlock (keys : List (List Nat)) (block : List Nat) : List Nat :=
  let start := xorBytes block (listGet [] keys 0)
  let b := ((keys.drop 1).take 13).foldl (fun b k =>
    xorBytes ((chunksOf 4 5 (aesShift (b.map aesSub))).flatMap aesColumn) k) start
  xorBytes (aesShift (b.map aesSub)) (listGet [] keys 14)

/-! ## Galois/counter mode -/

/-- Product in the 128-bit field, bit 127 first: bits of `x` left, the multiple of the other, the sum. -/
def gcmMul : Nat → Nat → Nat → Nat → Nat
  | 0, _, _, z => z
  | n + 1, x, v, z =>
    gcmMul n x (if v % 2 = 1 then (v / 2) ^^^ (0xE1 * 2 ^ 120) else v / 2) (if bitOf x n then z ^^^ v else z)

def gcmHash (h : Nat) (bs : List Byte) : Nat :=
  (chunksOf 16 (bs.length + 1) bs).foldl (fun y c => gcmMul 128 (y ^^^ beNat c) h 0) 0

/-- Bytes filled with zeros to whole blocks. -/
def padBlocks (bs : List Byte) : List Byte := bs ++ List.replicate ((16 - bs.length % 16) % 16) 0#8

/-- The counter-mode text of a nonce of 12 bytes. -/
def gcmText (keys : List (List Nat)) (nonce text : List Byte) : List Byte :=
  (indexed (chunksOf 16 (text.length + 1) text)).flatMap (fun p =>
    (xorBytes (p.2.map BitVec.toNat) (aesBlock keys ((nonce ++ beBytes 4 (p.1 + 2)).map BitVec.toNat))).map (BitVec.ofNat 8))

def gcmTag (keys : List (List Nat)) (nonce aad cipher : List Byte) : List Byte :=
  let h := aesBlock keys (List.replicate 16 0)
  let y := gcmHash (beNat (h.map (BitVec.ofNat 8)))
    (padBlocks aad ++ padBlocks cipher ++ beBytes 8 (8 * aad.length) ++ beBytes 8 (8 * cipher.length))
  let m := aesBlock keys ((nonce ++ beBytes 4 1).map BitVec.toNat)
  beBytes 16 (y ^^^ beNat (m.map (BitVec.ofNat 8)))

/-- Text and tag of a message. -/
def gcmSeal (key nonce aad text : List Byte) : List Byte :=
  let keys := aesRounds key
  let c := gcmText keys nonce text
  c ++ gcmTag keys nonce aad c

/-- The message of a sealed text, if its tag is right. -/
def gcmOpen (key nonce aad sealed : List Byte) : Option (List Byte) :=
  let keys := aesRounds key
  let c := sealed.take (sealed.length - 16)
  if 16 ≤ sealed.length ∧ gcmTag keys nonce aad c = sealed.drop (sealed.length - 16) then some (gcmText keys nonce c) else none

/-! ## Keys and records of a session -/

/-- HMAC with SHA-256. -/
def hmac256 (key msg : List Byte) : List Byte :=
  let k := if 64 < key.length then sha256 key else key
  let k := k ++ List.replicate (64 - k.length) 0#8
  sha256 (k.map (fun b => b ^^^ 0x5C#8) ++ sha256 (k.map (fun b => b ^^^ 0x36#8) ++ msg))

/-- ASCII text as bytes. -/
def ascii (t : String) : List Byte := t.toList.map (fun c => BitVec.ofNat 8 c.toNat)

/-- `n` bytes, at most 32, expanded from a secret under a label and a context. -/
def spdmExpandTo (n v : Nat) (secret : List Byte) (label : String) (context : List Byte) : List Byte :=
  (hmac256 secret (leBytes 2 n ++ ascii (if v = 0x12 then "spdm1.2 " else "spdm1.3 ") ++ ascii label ++ context ++ [1#8])).take n

/-- A secret of 32 bytes expanded from another under a label and a context. -/
def spdmExpand (v : Nat) (secret : List Byte) (label : String) (context : List Byte) : List Byte :=
  spdmExpandTo 32 v secret label context

/-- The nonce of a record: the secret's initial vector with the number of the record in its first 8 bytes. -/
def recordNonce (v : Nat) (secret : List Byte) (seq : Nat) : List Byte :=
  ((spdmExpandTo 12 v secret "iv" []).zip (leBytes 12 seq)).map (fun p => p.1 ^^^ p.2)

/-- What a record begins with: the session's identifier, and the length of what follows. -/
def recordHead (id n : Nat) : List Byte := leBytes 4 id ++ leBytes 2 n

/-- The record of a message. -/
def Spdm.sealRecord (p : Spdm) (v : Nat) (msg : List Byte) : List Byte :=
  let head := recordHead (p.session.getD 0) (msg.length + 18)
  head ++ gcmSeal (spdmExpand v p.rspKey "key" []) (recordNonce v p.rspKey p.rspSeq) head (leBytes 2 msg.length ++ msg)

/-- The message that a record of the session carries. -/
def Spdm.openRecord (p : Spdm) (v : Nat) (bs : List Byte) : Option (List Byte) :=
  let n := leNat ((bs.drop 4).take 2)
  let head := bs.take 6
  if head ≠ recordHead (p.session.getD 0) n ∨ bs.length < n + 6 then none
  else match gcmOpen (spdmExpand v p.reqKey "key" []) (recordNonce v p.reqKey p.reqSeq) head ((bs.drop 6).take n) with
    | none => none
    | some t => if leNat (t.take 2) + 2 ≤ t.length then some ((t.drop 2).take (leNat (t.take 2))) else none

/-- The version byte that answers use. -/
def State.spdmV (s : State) : Nat := s.spdm.version.getD 0x10

/-- The mailbox answers with a message: as it is, or in a session as its record. -/
def State.doeSay (s : State) (secured : Bool) (bs : List Byte) : State :=
  if secured && s.spdm.session.isSome then
    { s with pcie := { s.pcie with doe := [], doeReply := bs, doeWire := s.spdm.sealRecord s.spdmV bs },
             spdm := { s.spdm with rspSeq := s.spdm.rspSeq + 1 } }
  else { s with pcie := { s.pcie with doe := [], doeReply := bs, doeWire := bs } }

end Sys2Proof.Machine
end

