-- ==== Sys2Proof/Machine/HostIf.lean ====
section
/-!
DEFINITION. Machine/HostIf.lean: the PCIe endpoint and the command rings (R321 to R339): polls, fetches, checks, locks
and replies. The bodies of the commands are in Machine/Commands*.lean and the files beside them.
-/

namespace Sys2Proof.Machine

/-! ## Commands (R329, R341) -/

def Cmd.num (c : Cmd) (o n : Nat) : Nat := fieldAt c.header o n
def Cmd.op (c : Cmd) : Nat := c.num 0 2
def Cmd.role (c : Cmd) : Nat := c.num 2 1
def Cmd.noWait (c : Cmd) : Bool := bitOf (c.num 3 1) 0
def Cmd.sequence (c : Cmd) : Nat := c.num 4 4
def Cmd.len (c : Cmd) : Nat := c.num 8 2
/-- The byte offset of parameter word `i`. -/
def pOff (i : Nat) : Nat := 0x10 + 8 * i
def Cmd.p (c : Cmd) (i : Nat) : Nat := c.num (pOff i) 8
/-- A field of the payload. -/
def Cmd.pay (c : Cmd) (o n : Nat) : Nat := fieldAt c.payload o n

/-- What a command's own checks and effects answer: the status code and the reply words (R334, R335). -/
structure Reply where
  code : Nat := 0
  r0 : Nat := 0
  r1 : Nat := 0
  r2 : Nat := 0
  deriving DecidableEq, Repr

def badParam (off : Nat) : Reply := { code := 0x11, r0 := off }
def badState : Reply := { code := 0x12 }
def noResource : Reply := { code := 0x30 }
def doneEmpty : Reply := { code := 1 }
def deniedSig : Reply := { code := 0x22 }

/-- The body of a command: its own checks, and its effects where they pass. -/
abbrev Body := Nat → Cmd → State → State × Reply

/-- The opcodes and the roles they require (R343 to R358). -/
def opRoles : List (Nat × Nat) :=
  [(0x0101, 0), (0x0102, 0), (0x0103, 0), (0x0110, 0), (0x0111, 0), (0x0112, 0), (0x0201, 0), (0x0301, 0), (0x0310, 0),
   (0x0311, 0), (0x0312, 0), (0x0401, 0), (0x0402, 0), (0x0501, 0), (0x0502, 0), (0x0503, 0), (0x0601, 0), (0x0602, 0),
   (0x0603, 0), (0x0604, 0), (0x0605, 0), (0x0606, 0), (0x0607, 0), (0x0608, 0), (0x0701, 0), (0x0702, 0), (0x0703, 0)] ++
  [(0x0801, 1), (0x0802, 1), (0x0803, 1), (0x0804, 1), (0x0805, 1), (0x0810, 1), (0x0811, 1), (0x0812, 1), (0x0813, 1),
   (0x0820, 0), (0x0821, 1), (0x0901, 0), (0x0902, 0), (0x0903, 0), (0x0904, 0), (0x0A01, 1), (0x0A02, 0), (0x0A10, 2),
   (0x0A11, 2), (0x0A12, 2), (0x0B01, 0), (0x0B02, 1), (0x0B03, 1)]

def roleOf (op : Nat) : Option Nat := (opRoles.find? (fun x => x.1 == op)).map (fun x => x.2)

/-- The own check that comes first (R341): a non-zero parameter word from `params` on, or a payload where the command has
none. -/
def Cmd.reserved (c : Cmd) (params : Nat) (payload : Bool) : Option Reply :=
  match (List.range 6).find? (fun i => decide (params ≤ i) && c.p i != 0) with
  | some i => some (badParam (pOff i))
  | none => if !payload && c.len != 0 then some (badParam 8) else none

/-- Run `k` where the reserved parts are zero. -/
def Cmd.guard (c : Cmd) (params : Nat) (payload : Bool) (s : State) (k : State × Reply) : State × Reply :=
  match c.reserved params payload with
  | some r => (s, r)
  | none => k

/-- Whether any of `n` payload bytes from `o` is not zero. -/
def Cmd.dirty (c : Cmd) (o n : Nat) : Bool := ((c.payload.drop o).take n).any (fun b => b != 0#8)

/-! ## Locks (R332, R342) -/

/-- The locks a command takes: 0 to 6 the configuration sets, 7 the job table, 8 the snapshot engine, 9 the KV region
table, 10 and 11 the Yo-yos, 12 the security block. -/
def Cmd.locks (c : Cmd) : List Nat :=
  match c.op / 256 with
  | 1 => if c.op < 0x0110 then [0] else [9]
  | 2 => [2]
  | 3 => if c.op = 0x0301 ∧ c.p 0 ≤ 1 then [10 + c.p 0] else [10, 11]
  | 4 => [7]
  | 5 => [1]
  | 6 => [8]
  | 9 => (List.range 7).filter (fun i => bitOf (c.p 0) i)
  | 10 => [12]
  | 11 => if c.op = 0x0B03 then [6] else [5]
  | _ => []

/-- The target of a 0x08xx command (R342, R352). -/
def Cmd.target (c : Cmd) : Nat × Nat × Nat :=
  if c.op ≤ 0x0805 then (0, c.p 0, c.p 1)
  else if c.op = 0x0812 then (c.op, c.p 0, c.p 1)
  else if 0x0820 ≤ c.op then (0x0820, c.p 2, 0)
  else (c.op, c.p 0, 0)

def State.frontCmd (s : State) (r : Nat) : Option Cmd := (s.ring r).fetched.head?

/-- The next lock a ring's command has still to take. -/
def State.nextLock (s : State) (r : Nat) : Option Nat :=
  match s.frontCmd r with
  | none => none
  | some c => c.locks.find? (fun l => !s.host.locks.contains (l, r))

/-- Whether a ring may take a lock: nobody holds it, and nobody began to wait for it earlier. -/
def State.lockFree (s : State) (l r : Nat) : Bool :=
  !s.host.locks.any (fun h => h.1 == l) &&
    !((List.range 4).any (fun q => q != r && (match (s.ring q).waitFrom with
      | none => false
      | some w => s.nextLock q == some l && (match (s.ring r).waitFrom with
        | none => true
        | some v => decide (w < v)))))

/-- Take locks in ascending order until one is held (R342); `n` bounds their number. The answer says whether all are
taken. -/
def State.takeLocks (s : State) (r : Nat) : Nat → State × Bool
  | 0 => (s, (s.nextLock r).isNone)
  | n + 1 =>
    match s.nextLock r with
    | none => (s, true)
    | some l =>
      if s.lockFree l r then
        State.takeLocks { s with host := { s.host with locks := s.host.locks ++ [(l, r)] } } r n
      else (s, false)

def State.freeLocks (s : State) (r : Nat) : State :=
  { s with host := { s.host with locks := s.host.locks.filter (fun h => h.2 != r) } }

/-- Another 0x08xx command with the same target is in progress (R342). -/
def State.targetBusy (s : State) (r : Nat) (c : Cmd) : Bool :=
  c.op / 256 == 8 && (List.range 4).any (fun q => q != r && (s.ring q).holding &&
    (match s.frontCmd q with
      | some d => d.op / 256 == 8 && d.target == c.target
      | none => false))

/-! ## Replies (R335, R336) and the audit log (R414) -/

/-- The audit entry of a command that ends with a code: one with role 1 or 2, or one that fails check 3. -/
def State.auditCmd (s : State) (c : Cmd) (code : Nat) : State :=
  let kind := if c.role = 1 ∨ c.role = 2 then c.role else if code = 0x20 then (roleOf c.op).getD 0 else 0
  if kind = 0 then s else s.audit kind code c.role c.op ((c.header.drop 0x10).take 32)

/-- The 32 bytes of a reply. -/
def replyBytes (c : Cmd) (tick : Nat) (waited : Bool) (a : Reply) : List Byte :=
  leBytes 4 c.sequence ++ leBytes 2 c.op ++ leBytes 1 a.code ++ leBytes 1 0 ++ leBytes 8 tick ++ leBytes 4 a.r0 ++
    leBytes 4 a.r1 ++ leBytes 4 a.r2 ++ leBytes 3 0 ++ leBytes 1 (1 - c.index / c.slots % 2 + 2 * b2n waited)

/-- A command completes: its audit entry, its reply as two posted writes, and the BAR0 mirrors. -/
def State.reply1 (s : State) (r : Nat) (c : Cmd) (a : Reply) : State :=
  let s := s.freeLocks r
  let s := s.auditCmd c a.code
  let s := if a.code = 0x20 then s.count rSecCtrROLEDENIED 1
    else if a.code = 0x21 then s.count rSecCtrPRESENCEDENIED 1
    else if a.code = 0x22 then (s.count rSecCtrSIGFAILS 1).setFlag rSecStatus 6 true
    else s
  let b := replyBytes c s.now (s.ring r).waited a
  let at' := c.status + 32 * (c.index % c.slots)
  let s := (s.hostWrite at' (b.take 31)).hostWrite (at' + 31) (b.drop 31)
  let s := s.count (rCmdDONE r) 1
  let s := if a.code = 1 ∨ a.code = 2 then s.count (rCmdWARN r) 1
    else if 0x10 ≤ a.code then s.count (rCmdERRORS r) 1 else s
  let s := s.setReg (rCmdLAST r) (c.sequence + a.code * 2 ^ 32)
  s.setRing r { s.ring r with fetched := (s.ring r).fetched.drop 1, holding := false, waitFrom := none, waited := false }

/-- Check 1 (R333): the offset of the failing header field. -/
def Cmd.headerBad (c : Cmd) : Option Nat :=
  if c.num 3 1 / 2 ≠ 0 then some 3
  else if c.num 0x0A 6 ≠ 0 then some 0x0A
  else if 2 < c.role then some 2
  else if 4032 < c.len ∨ c.len % 8 ≠ 0 then some 8
  else none

/-- Checks 1 to 4 (R333): the reply of the first that fails. -/
def State.cmdChecks (s : State) (c : Cmd) : Option Reply :=
  match c.headerBad with
  | some o => some (badParam o)
  | none =>
    match roleOf c.op with
    | none => some { code := 0x10 }
    | some need =>
      if c.role < need then some { code := 0x20 }
      else if (c.role = 1 ∧ !s.presence) ∨ (c.role = 2 ∧ !s.nvm.sealFuse) then some { code := 0x21 }
      else none

/-- A command at the front whose opcode is not defined has no row of its own: it completes as soon as it is reached. -/
def State.settleRing (s : State) (r : Nat) : Nat → State
  | 0 => s
  | n + 1 =>
    match s.frontCmd r with
    | none => s
    | some c =>
      if (roleOf c.op).isSome then s
      else State.settleRing (s.reply1 r c ((s.cmdChecks c).getD { code := 0x10 })) r n

/-- A command completes, and the ring goes on to the next. -/
def State.reply (s : State) (r : Nat) (c : Cmd) (a : Reply) : State :=
  (s.reply1 r c a).settleRing r ((s.ring r).fetched.length + 1)

/-- A command whose locks are taken executes and completes. -/
def State.finishCmd (s : State) (r : Nat) (c : Cmd) (body : Body) : State :=
  let (t, a) := body r c s
  t.reply r c a

/-- Execution of the command at the front of a ring (R332, R333), if it is the row's: the checks, the locks, then its
body. With `hold` it stops once its locks are taken and stays BUSY until its row comes again. A command that waits on a
lock goes on by LOCK_GRANT. -/
def State.runCmd (s : State) (r : Nat) (mine : Cmd → Bool) (hold : Bool) (body : Body) : State :=
  if 4 ≤ r ∨ s.field rHubReady 3 0 = 7 ∨ s.halted then s
  else match s.frontCmd r with
    | none => s
    | some c =>
      if !mine c || (s.ring r).waitFrom.isSome then s
      else if (s.ring r).holding then s.finishCmd r c body
      else match s.cmdChecks c with
        | some a => s.reply r c a
        | none =>
          let (t, all) := s.takeLocks r (c.locks.length)
          if all then
            (if t.targetBusy r c then t.reply r c badState
              else if hold then t.setRing r { t.ring r with holding := true } else t.finishCmd r c body)
          else if c.noWait then t.reply r c { code := 0x40 }
          else
            let t := t.setRing r { t.ring r with waitFrom := some t.host.waits }
            { t with host := { t.host with waits := t.host.waits + 1 } }

/-- The row of an opcode. -/
def State.command (s : State) (r op : Nat) (hold : Bool) (body : Body) : State := s.runCmd r (fun c => c.op == op) hold body

/-! ## Polls and fetches (R328, R330, R331, R323) -/

def State.windowRing (s : State) (r : Nat) : Bool := bitOf (s.reg (rCmdCFG r)) 1
def State.ringSlots (s : State) (r : Nat) : Nat := if s.windowRing r then 1024 else 2 ^ bitsOf (s.reg (rCmdCFG r)) 6 2

/-- A ring that fetches: enabled, and not halted. -/
def State.ringRuns (s : State) (r : Nat) : Bool :=
  bitOf (s.reg (rCmdCFG r)) 0 && !bitOf (s.reg (rCmdSTATUS r)) 0 && !bitOf (s.reg (rCmdSTATUS r)) 1

/-- Bytes of a ring's slots, relative to its base. -/
def State.ringSlot (s : State) (r o n : Nat) : List Byte :=
  if s.windowRing r then Tbl.getMany hostDefault s.host.bar4 (0x400000 * r + o) n else s.hostPeek (s.reg (rCmdBASE r) + o) n

/-- One slot is read: 64 + length bytes; the tail advances. -/
def State.fetchSlot (s : State) (r : Nat) : State :=
  let i := s.reg (rCmdTAIL r)
  let slots := s.ringSlots r
  let o := 4096 * (i % slots)
  let h := s.ringSlot r o 64
  let len := fieldAt h 8 2
  let body := if len ≤ 4032 then s.ringSlot r (o + 64) len else []
  let c : Cmd := { index := i, header := h, payload := body, slots := slots, status := s.reg (rCmdSTATUSBASE r) }
  let s := if s.windowRing r then s else s.rx (64 + body.length)
  (s.setReg (rCmdTAIL r) ((i + 1) % 2 ^ 32)).setRing r { s.ring r with fetched := (s.ring r).fetched ++ [c] }

/-- Whether rings are fetched at all (R299, R321, R395). -/
def State.fetching (s : State) : Bool :=
  s.field rHubReady 3 0 != 7 && !bitOf (s.reg rPcieStatus) 9 && s.halt.stage == 0

/-- Commands placed and not yet fetched. -/
def State.behind (s : State) (r : Nat) : Nat := (s.reg (rCmdHEAD r) + 2 ^ 32 - s.reg (rCmdTAIL r)) % 2 ^ 32

/-- The next slot of a host ring is read, if one waits and rings are fetched; a ring that is to stop begins no further
read. -/
def State.askSlot (s : State) (r : Nat) : State :=
  if s.behind r == 0 || !s.fetching || !s.ringRuns r || (s.ring r).stopping then s
  else { s with host := { s.host with reads := s.host.reads ++ [HostRead.slots r] } }

/-- A head is known: the slots from the tail to it are fetched, of a window ring at once; a head too far ahead, or behind,
halts the ring with RING_ERR (R331). -/
def State.headKnown (s : State) (r : Nat) : State :=
  let n := s.behind r
  if s.ringSlots r < n then s.setFlag (rCmdSTATUS r) 0 true
  else if s.windowRing r then (forN n s (fun _ t => t.fetchSlot r)).settleRing r ((s.ring r).fetched.length + n + 1)
  else s.askSlot r

/-- One ring at a poll: a clearing of ENABLE takes effect; a window ring fetches; a host ring's head is read. -/
def State.pollRing (s : State) (r : Nat) : State :=
  if (s.ring r).stopping then
    let s := s.setRing r { s.ring r with stopping := false }
    { s with host := { s.host with reads := s.host.reads.filter (fun x => x != HostRead.ring r) } }
  else if !s.ringRuns r || !s.fetching then s
  else if s.windowRing r then s.headKnown r
  else if s.host.reads.contains (HostRead.ring r) || s.host.reads.contains (HostRead.slots r) then s
  else if (s.ring r).slotRetry then (s.setRing r { s.ring r with slotRetry := false }).askSlot r
  else { s with host := { s.host with reads := s.host.reads ++ [HostRead.ring r] } }

/-- Host writes into BAR4 (R324). -/
def State.bar4Write (s : State) (w : Nat × List Byte) : State :=
  if 0x1000000 < w.1 + w.2.length then s
  else ({ s with host := { s.host with bar4 := Tbl.setMany hostDefault s.host.bar4 w.1 w.2 } }).rx w.2.length

/-- A control core fails a firmware self-check (R334): the command at the front of its ring completes with INTERNAL, and an alarm
is raised. -/
def State.selfCheck (s : State) (r : Nat) : State :=
  if 4 ≤ r ∨ s.halted then s
  else match s.frontCmd r with
    | some c => (s.alarm srcHub 0x2A).reply r c { code := 0xFF }
    | none => s

/-- COMMAND_POLL (R330): the four rings are polled. Since the last poll the host has written `writes` through BAR4, and the control
cores of the rings `failed` have failed a self-check (log 1). -/
def execCommandPoll (poll : Poll) (s : State) : Answer :=
  answer s (forN 4 (poll.failed.foldl State.selfCheck (poll.writes.foldl State.bar4Write s)) (fun r t => t.pollRing r))

/-- A ring's read, of its head or of a slot, ends in error or timeout (R323). -/
def State.fetchFailed (s : State) (r : Nat) (slot : Bool) : State :=
  if (s.ring r).fetchFail = 0 then
    (s.count rPcieCtrFETCHRETRIES 1).setRing r { s.ring r with fetchFail := 1, slotRetry := slot }
  else (s.setFlag (rCmdSTATUS r) 1 true).setRing r { s.ring r with fetchFail := 0 }

/-- A read of a head word is answered. -/
def State.ringData (s : State) (r : Nat) : State :=
  let head := leNat (s.hostPeek (s.reg (rCmdHEADADDR r)) 4)
  (((s.rx 8).setReg (rCmdHEAD r) head).setRing r { s.ring r with fetchFail := 0 }).headKnown r

/-- A read of a slot is answered. -/
def State.slotData (s : State) (r : Nat) : State :=
  let n := (s.ring r).fetched.length
  let s := (s.setRing r { s.ring r with fetchFail := 0 }).fetchSlot r
  (s.settleRing r (n + 2)).askSlot r

/-- A module read ends, by kind (R323): with data, or without. -/
def State.readEnds (s : State) (x : HostRead) (ok : Bool) : State :=
  match x with
  | .ring r => if ok then s.ringData r else s.fetchFailed r false
  | .slots r => if ok then s.slotData r else s.fetchFailed r true
  | .pool g a n =>
    if ok then s.poolData g a n
    else (s.count rPcieCtrPOOLREADERRORS 1).modXfer g (fun t => { t with failed := true })
  | .cursor =>
    match s.snap.staging with
    | none => s
    | some j =>
      let j := if ok then { j with cursor := some (s.hostPeek j.cursorAddr j.cursorLen) } else { j with failed := true }
      let s := { s with snap := { s.snap with staging := some j } }
      if ok then s.rx j.cursorLen else s

/-- A read that has ended is no longer outstanding. -/
def State.endRead (s : State) (i : Nat) (ok : Bool) : State :=
  match s.host.reads[i]? with
  | none => s
  | some x => ({ s with host := { s.host with reads := s.host.reads.eraseIdx i } }).readEnds x ok

/-- HOST_COMPLETION (R323): the completion of outstanding read `i`, in error or not. `writes`: what the host has written
in its own memory before it answered (log 1). -/
def execHostCompletion (i : Nat) (error : Bool) (writes : List (Nat × List Byte)) (s : State) : Answer :=
  answer s ((writes.foldl (fun t w => t.hostPoke w.1 w.2) s).endRead i (!error))

/-- COMPLETION_TIMEOUT (R323): outstanding read `i` reaches the completion timeout. -/
def execCompletionTimeout (i : Nat) (s : State) : Answer := answer s (s.endRead i false)

/-- LOCK_WAIT_TIMEOUT (R332): a command that has waited longer than WAIT_LIMIT (in 100 ms) completes with TIMEOUT. -/
def execLockWaitTimeout (r waited : Nat) (s : State) : Answer :=
  answerNoMem s (match s.frontCmd r, (s.ring r).waitFrom with
    | some c, some _ =>
      if waited ≤ s.field rCmdCtrl 15 8 * 100000 then s
      else
        let s := (s.count rCmdLockWaitUs waited).setRing r { s.ring r with waited := true }
        s.reply r c { code := 0x40 }
    | _, _ => s)

/-! ## The endpoint -/

/-- BAR2_READ (R326, R429): the bytes, or 0 outside stack and shared memory; an uncorrectable word gives a Completer
Abort, which carries no bytes. -/
def execBar2Read (off n : Nat) (s : State) : Answer :=
  answerNoMem s (
    if n = 0 ∨ 2 ^ s.pcie.bar2Log2 < off + n then s
    else
      let a := s.reg rPcieBar2Base + off
      if !inMem a n then
        { (s.count rPcieCtrBAR2OUTSIDE 1).tx n with readBytes := List.replicate n 0#8 }
      else if s.badRange a n then { s.memBad with readBytes := [] }
      else { s.tx n with readBytes := s.peek a n })

/-- BAR2_WRITE (R321, R326, R429): a poisoned request is discarded; a write outside is dropped and counted; one that
covers part of an uncorrectable word is dropped; one into a region being staged is held. -/
def execBar2Write (off : Nat) (bs : List Byte) (poisoned : Bool) (s : State) : Answer :=
  answer s (
    if bs.isEmpty || decide (2 ^ s.pcie.bar2Log2 < off + bs.length) || poisoned then s
    else
      let a := s.reg rPcieBar2Base + off
      let s := s.rx bs.length
      if !inMem a bs.length then s.count rPcieCtrBAR2OUTSIDE 1
      else if s.partialBad a bs.length ≠ [] then s.memBad
      else s.store none a bs)

/-- PM_STATE_CHANGE (R321): the function enters or leaves D3hot. -/
def execPmStateChange (d3hot : Bool) (s : State) : Answer := answerNoMem s (s.setFlag rPcieStatus 9 d3hot)

/-- Whether configuration requests are answered without retry status (R396). -/
def State.configReady (s : State) : Bool :=
  !s.pcie.perst && (s.field rHubReady 3 0 == 6 || s.field rHubReady 3 0 == 7)

/-- The DOE Discovery response (log 9): vendor 1 types 0 discovery, 1 CMA/SPDM, 2 Secured CMA/SPDM, with the next index. -/
def doeDiscovery (bs : List Byte) : List Byte :=
  let i := fieldAt bs 0 1
  if 2 < i then [] else leBytes 2 1 ++ leBytes 1 i ++ leBytes 1 ((i + 1) % 3)

/-- The SPDM requests the responder answers (R411, log 9). -/
def spdmRequests : List Nat := [0x84, 0xE1, 0xE3, 0x81, 0x82, 0x83, 0xE0, 0xE4, 0xE5, 0xE8, 0xE9, 0xEC]

/-- An SPDM request in hand. One that is none of R411's gets the error UnsupportedRequest. -/
def State.doeTake (s : State) (type : Nat) (q : List Byte) : State :=
  if spdmRequests.contains (fieldAt q 1 1) then { s with pcie := { s.pcie with doe := q, doeType := type, doeReply := [], doeWire := [] } }
  else s.doeSay (type == 2) (q.take 1 ++ [0x7F#8, 7#8, 0#8])

/-- DOE_OBJECT (R327, R411): a whole object of a type: 0 discovery, 1 SPDM, 2 secured SPDM, a record of the session. One
longer than 64 KiB is discarded and sets the DOE Error bit; one object is handled at a time. A record without a session gets
the error InvalidSession, one that the session's key does not open the error DecryptError (log 9). -/
def execDoeObject (type : Nat) (bs : List Byte) (s : State) : Answer :=
  answerSysNoMem s (
    if !s.configReady || !s.pcie.doe.isEmpty then s
    else if 65536 < bs.length then { s with pcie := { s.pcie with doeError := true } }
    else match type with
      | 0 => s.doeSay false (doeDiscovery bs)
      | 1 => s.doeTake 1 bs
      | 2 =>
        if s.spdm.session.isNone then s.doeSay false (leBytes 1 s.spdmV ++ [0x7F#8, 2#8, 0#8])
        else match s.spdm.openRecord s.spdmV bs with
          | some q => ({ s with spdm := { s.spdm with reqSeq := s.spdm.reqSeq + 1 } }).doeTake 2 q
          | none => s.doeSay false (leBytes 1 s.spdmV ++ [0x7F#8, 6#8, 0#8])
      | _ => s)

/-- DOE_ABORT (R327): the object in progress is discarded. -/
def execDoeAbort (s : State) : Answer :=
  answerSysNoMem s (if s.configReady then
    { s with pcie := { s.pcie with doe := [], doeReply := [], doeWire := [], doeError := false } } else s)

end Sys2Proof.Machine
end

