-- ==== Sys2Proof/Machine/LoadCheck.lean ====
section
/-!
DEFINITION. Machine/LoadCheck.lean: the load checks of the core packets (binding check 11 of R51): drain chains (R122),
matrix sequences (R107), attention bodies (R165), convolutions (R179) and Winograd transforms (R181).
-/

namespace Sys2Proof.Machine

/-! ## Checks: the first that fails gives the reply -/

/-- The outcome of a check: nothing, or the reply it fails with. -/
abbrev Bad := Option Reply

/-- A check that must hold: BAD_PARAM with the offset of its field where it does not. -/
def must (ok : Bool) (off : Nat) : Bad := if ok then none else some (badParam off)

/-- A check that must hold, with another status. -/
def mustElse (code : Nat) (ok : Bool) (off : Nat) : Bad := if ok then none else some { code := code, r0 := off }

/-- The first failure of a list of checks. -/
def firstBad (l : List Bad) : Bad := l.findSome? id

/-- The first failure over a list. -/
def badIn {α : Type} (l : List α) (f : α → Bad) : Bad := l.findSome? f

/-- `n` reserved bytes at an address are zero (R7); the field that fails lies at offset `off`. -/
def State.zeros (s : State) (a n off : Nat) : Bad := must ((s.peek a n).all (fun b => b == 0#8)) off

/-- A packet of the image to be checked: its engine, its header, and the offset of its body in the image. -/
structure PackAt where
  engine : Nat
  pk : Packet
  off : Nat
  deriving DecidableEq, Repr

/-- The packets of a work list. -/
def State.listPacks (s : State) (img : Nat) (l : Section) : List PackAt :=
  (List.range l.count).map (fun i =>
    let a := s.packetAddr l.base i
    { engine := l.target, pk := s.packetAt a, off := a + 64 - img })

/-- Every packet of the image, lists in section-table order. -/
def State.packs (s : State) (img : Nat) : List PackAt :=
  ((s.sections img).filter (fun x => x.type == 2)).flatMap (s.listPacks img)

/-- Dimensions that a packet's shape words supply (R48). -/
def State.dimsUsedOf (s : State) (img bound : Nat) : Nat :=
  if bound = 0xFFFF then 0
  else match s.tableOf img 6 with
    | some t => s.ld 2 (t.base + 32 * bound + 24)
    | none => 0

/-- A run for evaluating a body at the smallest non-empty shapes `least` (R107). -/
def State.leastRun (s : State) (img : Nat) (p : PackAt) (least : List Nat) : Run :=
  let used := s.dimsUsedOf img p.pk.bound
  { pid := p.pk.pid, kind := p.pk.kind, body := p.pk.body, bodyLen := p.pk.bodyLen,
    shapes := if p.pk.bound = 0xFFFF then [] else least, dimsUsed := used }

/-- Header fields that shape words supply are zero (R90): `flds` gives each word's offset and bytes. -/
def State.suppliedZero (s : State) (img : Nat) (p : PackAt) (flds : List (Nat × Nat)) : Bad :=
  badIn (flds.take (s.dimsUsedOf img p.pk.bound)) (fun f => must (s.ld f.2 (p.pk.body + f.1) == 0) (p.off + f.1))

/-! ## Chains (R111, R116, R119 to R122) -/

/-- The bits of a step that may be set (R111). -/
def stepLegal (w : W64) : Nat :=
  let ctl := fun (m : Nat) => 0xFF + m * 2 ^ 8
  let addr := 0xFFFFFFFFFFFF * 2 ^ 16
  match stepOp w with
  | 0x01 => ctl 0 + 0xFFFFFFFF * 2 ^ 32
  | 0x02 | 0x03 => ctl 0xF1 + addr
  | 0x04 => ctl 0x0F + addr
  | 0x05 => ctl 0x0F
  | 0x06 => ctl 0xFF + (if bitOf (stepCtl w) 4 then 0xFFFFF * 2 ^ 16 else addr)
  | 0x07 => ctl 0x03 + 0xFFFFFFFF * 2 ^ 32
  | 0x08 => ctl 0x07 + 0xFFFFFFFF * 2 ^ 32
  | 0x09 => ctl 0x1F + addr
  | 0x0A => ctl 0 + addr
  | 0x0B => ctl 0x03 + 0x3F * 2 ^ 16 + 0xFF * 2 ^ 32
  | 0x0C => ctl 0x0F + 0x3F * 2 ^ 16 + (if bitOf (stepCtl w) 0 then 0xFFFF * 2 ^ 24 else 0xFFFFFFFFFF * 2 ^ 24)
  | 0x0D => ctl 0x01 + (if bitOf (stepCtl w) 0 then 0 else 0x3F * 2 ^ 16) + 0xFFFFF * 2 ^ 24
  | 0x10 | 0x11 => ctl 0
  | _ => 0

/-- Where the fields of a step begin (R111). -/
def stepFields (w : W64) : List Nat :=
  match stepOp w with
  | 0x01 | 0x07 | 0x08 => [6, 4, 2, 1, 0]
  | 0x0B => [5, 4, 3, 2, 1, 0]
  | 0x0C => if bitOf (stepCtl w) 0 then [5, 3, 2, 1, 0] else [3, 2, 1, 0]
  | 0x0D => [6, 3, 2, 1, 0]
  | _ => [2, 1, 0]

/-- The field of a step that holds a bit which must be zero. -/
def stepStray (w : W64) : Option Nat :=
  (findN 64 (fun i => bitOf w.toNat i && !bitOf (stepLegal w) i)).map (fun i =>
    ((stepFields w).find? (fun f => decide (f ≤ i / 8))).getD 0)

/-- What a chain's checks need of its packet: whether ARGMAX is allowed (R118), whether item-scope ROWSTAT is (R177),
ldc, the operand-buffer range, and the ranges its loads and MMAs touch. -/
structure ChainEnv where
  kind : Nat
  argmax : Bool
  itemStat : Bool := true
  ldc : Nat
  lo : Nat
  hi : Nat
  used : List (Nat × Nat) := []
  deriving DecidableEq, Repr

/-- FP32, BF16 or FP16. -/
def isWide (c : Nat) : Bool := decide (c ≤ 2)

/-- The draw slot of a step that draws (R116). -/
def stepDraw (w : W64) : Option Nat :=
  let sr := bitOf (stepCvt w) 5
  match stepOp w with
  | 0x08 => some (bitsOf (stepCtl w) 1 0)
  | 0x0B => if sr then some (bitsOf (stepCtl w) 1 0) else none
  | 0x0C => if sr then some (bitsOf (stepCtl w) 3 2) else none
  | _ => none

/-- Bytes of an operand region of 128 rows with K elements (R99). -/
def regionBytes (f : Fmt) (k : Nat) : Nat :=
  alignUp (128 * k * f.elemBits / 8 + (if f.scaled then 128 * k / f.block * f.scaleBytes else 0)) 256

/-- The checks of one step; `quant` is the format of a QUANT before it. -/
def stepBad (e : ChainEnv) (earlier : List W64) (w : W64) (o : Nat) : Bad :=
  let op := stepOp w
  let ctl := stepCtl w
  let quant := ((earlier.find? (fun x => stepOp x == 0x0B)).bind (fun x => Cvt.ofByte (stepCvt x))).map (fun c => c.fmt)
  let cvt := Cvt.ofByte (stepCvt w)
  let out := fun (p : Cvt → Bool) => match cvt with
    | some c => c.fmt.isOutput && p c
    | none => false
  firstBad (
    [must (stepLegal w != 0 && (decide (op < 0x10) || e.kind == 2)) o,
     match stepStray w with
      | some f => some (badParam (o + f))
      | none => none,
     must (quant.isNone || op == 0x0C || op == 0x0D) o] ++
    (match op with
    | 0x02 | 0x03 => match Fmt.ofCode (bitsOf ctl 7 4) with
      | some f => [must (isWide f.code) (o + 1), must (stepAddr w % (f.elemBits / 8) == 0) (o + 2)]
      | none => [some (badParam (o + 1))]
    | 0x04 => [must (isWide ctl) (o + 1), must (stepOff w % 64 == 0) (o + 2)]
    | 0x05 => [must (decide (ctl ≤ 8)) (o + 1)]
    | 0x06 =>
      [must (decide (bitsOf ctl 3 0 ≤ 8) && decide (bitsOf ctl 7 5 ≤ 3) && (bitsOf ctl 7 5 != 3 || bitsOf ctl 3 0 == 1)) (o + 1),
       must (bitOf ctl 4 || stepOff w % 64 == 0) (o + 2)]
    | 0x07 =>
      let lo := decodeFloat parBf16 (bitsOf w.toNat 47 32)
      let hi := decodeFloat parBf16 (bitsOf w.toNat 63 48)
      [must (ctl != 3 || Fp.le lo hi) (o + 4)]
    | 0x08 => [must (!(bitOf ctl 2 && bitsOf w.toNat 63 32 == 0)) (o + 4)]
    | 0x09 =>
      [must (bitsOf ctl 2 0 != 0 && !(bitOf ctl 2 && bitOf ctl 4) && (e.itemStat || !bitOf ctl 3)) (o + 1),
       must (stepAddr w % 16 == 0) (o + 2)]
    | 0x0A => [must (e.argmax && !earlier.any (fun x => stepOp x == 0x0A)) o, must (stepAddr w % 8 == 0) (o + 2)]
    | 0x0B =>
      [must (out (fun c => c.sr || bitsOf ctl 1 0 == 0)) (if out (fun _ => true) then o + 1 else o + 2),
       must (tauOk (out (fun c => c.fmt == .hb4)) (bitsOf w.toNat 39 32)) (o + 4)]
    | 0x0C =>
      [must (out (fun c => match quant with | some q => c.fmt == q | none => !c.fmt.scaled)) (o + 2),
       must (out (fun c => c.sr || bitsOf ctl 3 2 == 0)) (o + 1),
       must (!bitOf ctl 1 || (!bitOf ctl 0 && out (fun c => (c.fmt == .fp32 || c.fmt == .bf16) && !c.sr && !c.ovfNan))) (o + 1),
       must (out (fun c => e.ldc % c.fmt.block == 0)) (o + 2)] ++
      (if bitOf ctl 0 then
        match cvt with
        | some c =>
          let a := 256 * bitsOf w.toNat 39 24
          let b := a + regionBytes c.fmt 128
          [must c.fmt.isMatrix (o + 2),
           must (decide (e.lo ≤ a) && decide (b ≤ e.hi) && !e.used.any (fun r => decide (r.1 < b) && decide (a < r.1 + r.2))) (o + 3)]
        | none => []
      else [])
    | 0x0D =>
      if bitOf ctl 0 then [must quant.isNone (o + 2)]
      else [must (match cvt with
        | some c => decide (c.fmt.code ≤ 4) && !c.sr && (match quant with | some q => c.fmt == q | none => true)
        | none => false) (o + 2)]
    | _ => []))

/-- The first failure over the steps of a chain, each with the steps before it. -/
def stepsBad (e : ChainEnv) (o : Nat) : List W64 → List W64 → Bad
  | _, [] => none
  | earlier, w :: ws =>
    match stepBad e earlier w (o + 8 * earlier.length) with
    | some r => some r
    | none => stepsBad e o (earlier ++ [w]) ws

/-- Steps whose draw slot an earlier step uses (R116). -/
def drawClash : List W64 → List Nat → Nat → Option Nat
  | [], _, _ => none
  | w :: ws, used, i =>
    match stepDraw w with
    | none => drawClash ws used (i + 1)
    | some d => if used.contains d then some i else drawClash ws (d :: used) (i + 1)

/-- A chain against R122; `must1` are the opcodes of which it must hold one. -/
def chainBad (e : ChainEnv) (must1 : List Nat) (steps : List W64) (o : Nat) : Bad :=
  firstBad [stepsBad e o [] steps,
    must (steps.any (fun w => must1.contains (stepOp w))) o,
    match drawClash steps [] 0 with
    | some i => some (badParam (o + 8 * i + 1))
    | none => none]

/-- The slots of a chain area past its steps are zero (R89). -/
def State.slotsZero (s : State) (a steps o : Nat) : Bad :=
  badIn ((List.range 16).filter (fun i => decide (steps ≤ i))) (fun i => s.zeros (a + 8 * i) 8 (o + 8 * i))

/-! ## Matrix sequences (R107) -/

/-- The item a load check evaluates: every tile valid, at the header's formats. -/
def Seq.checkItem (q : Seq) (gnEff : Nat) : Item :=
  { q := { q with gn := gnEff },
    ent := { aBase := 0, bBase := 0, cBase := 0, mEff := 128 * q.gm, nEff := 128 * gnEff, fmtA := q.fmtA, fmtB := q.fmtB,
             tau := 0, hb4 := false, reserved := false }, b := 0, mg := 0, ng := 0 }

/-- gn_eff at the load check (R107). -/
def Seq.gnCheck (q : Seq) : Nat := if q.gn = 0 then (if q.n = 0 then 1 else ceilDiv q.n 128) else q.gn

/-- The positions inside a repeat range, by the index of the REPEAT_N that covers them. -/
def repeatOver (l : List Ins) (i : Nat) : Option Ins :=
  l.find? (fun x => x.op == 4 && decide (x.idx < i) && decide (i ≤ x.idx + x.len))

/-- One instruction against R96 and R97; `o` is its offset. -/
def State.insBad (s : State) (body : Nat) (q : Seq) (l : List Ins) (x : Ins) (o : Nat) : Bad :=
  let inside := (repeatOver l x.idx).isSome
  let a := body + 192 + 32 * x.idx
  let ur := bitOf x.flags 2
  firstBad [must (decide (1 ≤ x.op) && decide (x.op ≤ 4)) o,
    must ((!bitOf x.flags 1 || x.op == 1 || x.op == 2) && (!ur || inside)) (o + 1),
    must (decide (x.gi < q.gm)) (o + 2),
    must (if ur then x.gj == 0 else decide (x.gj ≤ 15) && (q.gn == 0 || decide (x.gj < q.gn))) (o + 3),
    must (x.obA % 256 == 0) (o + 4),
    must (if x.op = 3 then x.obB % 256 == 0 else x.obB == 0) (o + 8),
    must (x.stride % 256 == 0 && (x.op == 4 || x.stride == 0)) (o + 0x0C),
    must (if x.op = 4 then !inside && decide (1 ≤ x.len) && decide (x.len ≤ 8) && decide (x.idx + x.len < l.length)
      else x.len == 0) (o + 0x10),
    s.zeros (a + 0x11) 15 (o + 0x11)]

/-- Each tile of an item with `gn` N tiles is named by exactly one MMA (R97). -/
def tilesOnce (q : Seq) (l : List Ins) (gn : Nat) : Bool :=
  let ms := (expandIns gn (l.length + 1) l).filter (fun x => x.op == 3)
  (List.range q.gm).all (fun gi => (List.range gn).all (fun gj =>
    (ms.filter (fun x => x.gi == gi && x.gj == gj)).length == 1))

/-- The final-chunk MMAs naming each gi take ascending gj (R118). -/
def gjAscends : List Ins → Bool
  | [] => true
  | x :: xs => (x.op != 3 || xs.all (fun y => y.op != 3 || y.gi != x.gi || decide (x.gj < y.gj))) && gjAscends xs

/-- The ranges a list touches, PING alternates included (R99). -/
def Item.touched (it : Item) (l : List Ins) : List (Nat × Nat) :=
  l.flatMap (fun x => (it.regions x).flatMap (fun r =>
    if bitOf x.flags 0 then [r, (r.1 + it.q.ping * 256, r.2)] else [r]))

/-- No holdings overlap with a packet on the other stream of the same core whose window overlaps (R102, R107). -/
def State.holdsBad (s : State) (img : Nat) (p : PackAt) (off : Nat) : Bad :=
  let other := engineId (3 - engClass p.engine) (engDie p.engine) (engInst p.engine)
  let w := s.windowAt img p.pk.window
  match s.listOf img other, s.holdAt p.pk.kind p.pk.body with
  | some l, some h => mustElse 0x30 (!(s.listPacks img l).any (fun o =>
      let v := s.windowAt img o.pk.window
      decide (w.1 < v.2.1) && decide (v.1 < w.2.1) && (match s.holdAt o.pk.kind o.pk.body with
        | some k => h.clash k
        | none => false))) off
  | _, _ => none

/-- The claim and holding fields that bodies of kinds 1 to 3 share, by their offsets. -/
def State.itemFields (s : State) (b o : Nat) (claim : Bool) (counter use first step : Nat) : Bad :=
  firstBad [must (claim || s.ld 1 (b + counter) == 0) (o + counter), must (claim || s.ld 1 (b + use) == 0) (o + use),
    must (!claim || s.ld 4 (b + first) == 0) (o + first),
    must (if claim then s.ld 4 (b + step) == 0 else s.ld 4 (b + step) != 0) (o + step)]

def State.holdFields (s : State) (b o ob size acc units share : Nat) : Bad :=
  firstBad [must (s.ld 1 (b + share) == 2 || s.ld 1 (b + share) == 4) (o + share),
    must (decide (s.ld 1 (b + acc) ≤ 31)) (o + acc),
    must (decide (s.ld 1 (b + acc) + s.ld 1 (b + units) ≤ 32)) (o + units),
    must (decide (s.ld 2 (b + ob) ≤ 8191)) (o + ob),
    must (decide (1 ≤ s.ld 2 (b + size)) && decide (s.ld 2 (b + ob) + s.ld 2 (b + size) ≤ 8192)) (o + size)]

/-- Operand formats legal in their role and as a pair (R53, R100). -/
def pairOk (a b : Nat) (a16 : Bool) : Bool :=
  match Fmt.ofCode a, Fmt.ofCode b with
  | some f, some g => f.isMatrix && g.isMatrix && (pairWidth f g a16).isSome
  | _, _ => false

def codeScaled (c : Nat) : Bool := match Fmt.ofCode c with | some f => f.scaled | none => false

/-- The regions of an instruction against R99: where one does not fit, the offset is that of the field that names it. -/
def regionsBad (it : Item) (x : Ins) (o : Nat) : Bad :=
  firstBad [mustElse 0x30 (it.regionsOk [{ x with op := if x.op = 3 then 1 else x.op }]) (o + 4),
    mustElse 0x30 (x.op != 3 || it.regionsOk [{ x with op := 2, obA := x.obB }]) (o + 8)]

/-- A matrix sequence against R107. Where a check reads several fields, the field reported is the model's choice (DESIGN
CHOICE, log 72): the first instruction's opcode where the MMAs do not name each tile once, the first instruction's flags where
LOADs of one operand differ in TRANSPOSE, batch_count for too many items, group_m for the accumulators and reg_share for the
holdings. -/
def State.matrixBad (s : State) (img : Nat) (p : PackAt) : Bad :=
  let b := p.pk.body
  let o := p.off
  let n := s.ld 1 (b + 9)
  let q := s.seqOf (s.leastRun img p [1, 1, 32, 1, 0, 0])
  let l := (List.range n).map (s.insAt b)
  let trA := transposes l 1
  let trB := transposes l 2
  let ge := q.gnCheck
  let it := q.checkItem ge
  let ex := expandIns ge (l.length + 1) l
  let ldOk := fun (x need : Nat) (fmt : Nat) => decide (need ≤ x) && (!codeScaled fmt || x % 32 == 0)
  firstBad [
    must (p.pk.bodyLen == 192 + 32 * n && decide (224 ≤ p.pk.bodyLen) && decide (p.pk.bodyLen ≤ 2240)) (o - 0x34),
    must (decide (s.ld 1 (b + 1) < 32)) (o + 1), must (decide (s.ld 1 (b + 2) < 16)) (o + 2),
    s.slotsZero (b + 64) q.steps (o + 64),
    badIn l (fun x => must (decide (1 ≤ x.op) && decide (x.op ≤ 4)) (o + 192 + 32 * x.idx)),
    badIn l (fun x => must (decide (x.flags < 8)) (o + 193 + 32 * x.idx)),
    badIn l (fun x => s.zeros (b + 192 + 32 * x.idx + 0x11) 15 (o + 192 + 32 * x.idx + 0x11)),
    s.suppliedZero img p [(0x10, 4), (0x14, 4), (0x18, 4), (0x1C, 4)],
    must (decide (bitsOf (s.ld 1 (b + 1)) 2 1 ≤ 1)) (o + 1),
    must (if q.load then isWide q.cFmt else q.cFmt == 0) (o + 2),
    must (decide (1 ≤ q.steps) && decide (q.steps ≤ 16)) (o + 3),
    must (decide (1 ≤ q.gm) && decide (q.gm ≤ 4)) (o + 4), must (decide (q.gn ≤ 16)) (o + 5),
    s.holdFields b o 0x3C 0x3E 7 8 6,
    must (decide (1 ≤ n) && decide (n ≤ 64)) (o + 9),
    must (decide (32 ≤ q.kChunk) && decide (q.kChunk ≤ 8192)) (o + 0x0C), must (decide (q.ping ≤ 4095)) (o + 0x0E),
    must (decide (q.batch ≤ 65536)) (o + 0x1C),
    must (q.ptr % 32 == 0 && inMem q.ptr (32 * q.batch)) (o + 0x20),
    s.itemFields b o q.claim 0x0A 0x0B 0x34 0x38,
    badIn l (fun x => s.insBad b q l x (o + 192 + 32 * x.idx)),
    must (l.all (fun x => x.op != 1 || bitOf x.flags 1 == trA) && l.all (fun x => x.op != 2 || bitOf x.flags 1 == trB)) (o + 193),
    must ((if q.gn = 0 then List.range' 1 17 else [q.gn]).all (fun g => tilesOnce q l g)) (o + 192),
    must (pairOk q.fmtA q.fmtB q.a16) o,
    must (q.k % 32 == 0) (o + 0x18), must (q.kChunk % 32 == 0) (o + 0x0C),
    must (ldOk q.lda (if trA then q.m else q.k) q.fmtA) (o + 0x28), must (ldOk q.ldb (if trB then q.n else q.k) q.fmtB) (o + 0x2C),
    must (decide (q.n ≤ q.ldc)) (o + 0x30),
    must (decide (q.items < 2 ^ 32)) (o + 0x1C),
    badIn ex (fun x => regionsBad it x (o + 192 + 32 * x.idx)),
    mustElse 0x30 (decide (q.gm * ge ≤ q.capacity)) (o + 4),
    s.holdsBad img p (o + 6),
    chainBad { kind := 1, argmax := q.gn == 0 && gjAscends ex, ldc := q.ldc, lo := 256 * q.obBase,
               hi := 256 * (q.obBase + q.obSize), used := it.touched ex }
      [0x09, 0x0A, 0x0C, 0x0D] (s.chainAt (b + 64) q.steps) (o + 64)]

/-! ## Attention (R165) -/

/-- Q and P formats, and those of tensors, in attention (R145). -/
def attFmt (c : Nat) : Bool := c == 1 || c == 3 || c == 5

/-- A positive finite FP32 value. -/
def f32Positive (x : Nat) : Bool := f32IsFinite (BitVec.ofNat 32 x) && f32Lt 0#32 (BitVec.ofNat 32 x)

/-- An attention body against R165. For KV regions, whose formats are known at start only, the holdings are checked for
the operand formats' own class. -/
def State.attentionBad (s : State) (img : Nat) (p : PackAt) : Bad :=
  let b := p.pk.body
  let o := p.off
  let m := s.ld 1 b
  let back := bitsOf m 1 0 == 1
  let kv := bitOf m 2
  let claim := bitOf m 3
  let qf := s.ld 1 (b + 1) % 16
  let pf := s.ld 1 (b + 1) / 16
  let kf := s.ld 1 (b + 2) % 16
  let vf := s.ld 1 (b + 2) / 16
  let hd := s.ld 1 (b + 3)
  let d := 32 * hd
  let qh := s.ld 2 (b + 4)
  let kh := s.ld 2 (b + 6)
  let used := s.dimsUsedOf img p.pk.bound
  let seqs := if used = 0 then s.ld 4 (b + 8) else 1
  let steps := s.ld 1 (b + 0x0C)
  let terms := s.ld 1 (b + 64)
  let chain := s.chainAt (b + 128) steps
  let fm := fun c => (Fmt.ofCode c).getD .bf16
  let lead := (chain.takeWhile (fun w => decide (0x10 ≤ stepOp w))).length
  firstBad [
    must (p.pk.bodyLen == 256) (o - 0x34),
    must (decide (m < 16)) o, s.zeros (b + 0x33) 1 (o + 0x33), must (decide (terms < 32)) (o + 64),
    s.zeros (b + 65) 1 (o + 65), s.zeros (b + 64 + 0x1C) 36 (o + 64 + 0x1C), s.slotsZero (b + 128) steps (o + 128),
    must (decide (bitsOf m 1 0 ≤ 1) && !(back && kv)) o,
    must (if back then qf == 1 else attFmt qf) (o + 1), must (pf == 1 || pf == 3) (o + 1),
    must (if kv then kf == 0 && vf == 0 else if back then kf == 1 && vf == 1 else attFmt kf && attFmt vf) (o + 2),
    must ([2, 3, 4, 6, 8].contains hd) (o + 3),
    must (decide (1 ≤ qh) && decide (qh ≤ 1024)) (o + 4), must (decide (1 ≤ kh) && decide (kh ≤ qh) && qh % kh == 0) (o + 6),
    must (decide (seqs ≤ 65536)) (o + 8),
    must (if back then steps == 0 else decide (1 ≤ steps) && decide (steps ≤ 16)) (o + 0x0C),
    must (if back then s.ld 1 (b + 0x0F) ≤ 1 else s.ld 1 (b + 0x0F) = 0) (o + 0x0F),
    must (s.ld 8 (b + 0x10) % 64 == 0) (o + 0x10), must (s.ld 8 (b + 0x18) % 16 == 0) (o + 0x18),
    must (f32Positive (s.ld 4 (b + 0x20))) (o + 0x20),
    s.itemFields b o claim 0x0D 0x0E 0x24 0x28, s.holdFields b o 0x2C 0x2E 0x30 0x31 0x32,
    must (back || s.ld 4 (b + 0x34) == 0) (o + 0x34), must (back || s.ld 4 (b + 0x38) == 0) (o + 0x38),
    must (back || s.ld 4 (b + 0x3C) == 0) (o + 0x3C),
    must (if bitOf terms 2 then s.ld 2 (b + 66) != 0 else s.ld 2 (b + 66) == 0) (o + 66),
    must (if bitsOf terms 3 1 != 0 then decide (1 ≤ s.ld 4 (b + 68)) && decide (s.ld 4 (b + 68) ≤ 1048576)
      else s.ld 4 (b + 68) == 0) (o + 68),
    must (if bitOf terms 4 then s.ld 8 (b + 80) % 8 == 0 else s.ld 8 (b + 80) == 0) (o + 80),
    must (bitOf terms 4 || s.ld 4 (b + 88) == 0) (o + 88),
    badIn (List.range seqs) (fun i =>
      let e := s.ld 8 (b + 0x10) + 64 * i
      must ([0x06, 0x0E, 0x16, 0x1E, 0x26].all (fun x => s.ld 2 (e + x) == 0) && s.ld 8 (e + 0x38) == 0) (o + 0x10)),
    badIn (List.range steps) (fun i =>
      must (!(decide (0x10 ≤ stepOp (listGet 0 chain i)) && decide (lead ≤ i))) (o + 128 + 8 * i)),
    must (kv || !chain.any (fun w => stepOp w == 0x11)) (o + 128),
    if back then none
    else chainBad { kind := 2, argmax := false, ldc := qh * d, lo := 256 * s.ld 2 (b + 0x2C),
                    hi := 256 * (s.ld 2 (b + 0x2C) + s.ld 2 (b + 0x2E)) } [0x0C, 0x0D] chain (o + 128),
    mustElse 0x30 (decide (attNeed back d (fm qf) (fm pf) (if kv then fm qf else (fedAs (fm qf) (fm kf)).1)
      (if kv then fm pf else (fedAs (fm pf) (fm vf)).1) ≤ 256 * s.ld 2 (b + 0x2E))) (o + 0x2E),
    mustElse 0x30 (decide ((if back then 4 else 2) * ceilDiv d 128 ≤ s.ld 1 (b + 0x31))) (o + 0x31),
    s.holdsBad img p (o + 0x32)]

/-! ## Geometry, convolutions and Winograd transforms (R170, R179, R181) -/

/-- One axis record (R170); an extent that a shape word supplies is not read. -/
def State.axisBad (s : State) (a o : Nat) (supplied : Bool) : Bad :=
  firstBad [must (supplied || (decide (1 ≤ s.ld 4 a) && decide (s.ld 4 a ≤ 16777215))) o,
    must (decide (1 ≤ s.ld 1 (a + 4)) && decide (s.ld 1 (a + 4) ≤ 15)) (o + 4),
    must (decide (1 ≤ s.ld 1 (a + 5)) && decide (s.ld 1 (a + 5) ≤ 16)) (o + 5),
    must (decide (1 ≤ s.ld 1 (a + 6)) && decide (s.ld 1 (a + 6) ≤ 64)) (o + 6),
    must (decide (s.ld 1 (a + 7) ≤ 64)) (o + 7), must (decide (s.ld 1 (a + 8) ≤ 64)) (o + 8),
    must (decide (s.ld 1 (a + 9) ≤ 3)) (o + 9), s.zeros (a + 0xA) 2 (o + 0xA)]

/-- A geometry descriptor at `a`; `used` is the number of shape words the packet has (word 0 is no extent), and
`addresses` says whether the address fields may be non-zero. -/
def State.geoBad (s : State) (a o used : Nat) (addresses : Bool) : Bad :=
  firstBad [s.axisBad a o (decide (1 < used)), s.axisBad (a + 0xC) (o + 0xC) (decide (2 < used)),
    s.axisBad (a + 0x18) (o + 0x18) (decide (3 < used)),
    if addresses then firstBad [s.zeros (a + 0x2A) 2 (o + 0x2A), s.zeros (a + 0x32) 2 (o + 0x32), s.zeros (a + 0x3A) 6 (o + 0x3A)]
    else firstBad [s.zeros (a + 0x24) 6 (o + 0x24), s.zeros (a + 0x2A) 2 (o + 0x2A), s.zeros (a + 0x2C) 6 (o + 0x2C),
      s.zeros (a + 0x32) 2 (o + 0x32), s.zeros (a + 0x34) 6 (o + 0x34), s.zeros (a + 0x3A) 6 (o + 0x3A)]]

/-- A tensor exponent field of 4 bytes (R59): legal under HB4, else 0. -/
def State.tauBad (s : State) (a o code : Nat) : Bad :=
  must (if code = 11 then tauOk true (s.ld 1 a) && s.ld 3 (a + 1) == 0 else s.ld 4 a == 0) o

/-- A convolution against R179. -/
def State.convBad (s : State) (img : Nat) (p : PackAt) : Bad :=
  let b := p.pk.body
  let o := p.off
  let used := s.dimsUsedOf img p.pk.bound
  let c := s.convOf (s.leastRun img p [1, 1, 1, 1, 0, 0])
  let m := s.ld 1 (b + 1)
  let fa := s.ld 1 b % 16
  let fb := s.ld 1 b / 16
  let chans := fun (x : Nat) => decide (32 ≤ x) && decide (x ≤ 1048576) && x / c.groups % 32 == 0 && x % c.groups == 0
  let chain := s.chainAt (b + 128) c.steps
  let ge := if c.gn = 0 then c.nTiles else c.gn
  let ldc := match c.op with
    | 0 => c.cout
    | 1 => c.cin
    | _ => c.geo.taps * c.cinG
  firstBad [must (p.pk.bodyLen == 256) (o - 0x34),
    must (m &&& 0xC6 == 0) (o + 1), s.zeros (b + 0x2C) 20 (o + 0x2C), s.slotsZero (b + 128) c.steps (o + 128),
    must (c.op != 3) (o + 1), must (decide (1 ≤ c.steps) && decide (c.steps ≤ 16)) (o + 2), must (c.ndim == 2 || c.ndim == 3) (o + 3),
    must (c.groups != 0 && c.cin % c.groups == 0 && c.cout % c.groups == 0) (o + 4),
    s.holdFields b o 0x18 0x1A 7 8 6,
    must (decide (1 ≤ c.gm) && decide (c.gm ≤ 4) && decide (c.gn ≤ 4)) (o + 0xB),
    must (decide (c.batch ≤ 65536)) (o + 0xC), must (chans c.cin) (o + 0x10), must (chans c.cout) (o + 0x14),
    s.itemFields b o c.claim 9 0xA 0x1C 0x20,
    s.tauBad (b + 0x24) (o + 0x24) fa, s.tauBad (b + 0x28) (o + 0x28) fb,
    s.geoBad (b + 64) (o + 64) used true,
    must (c.ndim == 3 || (c.geo.t.i == 1 && c.geo.t.k == 1 && c.geo.t.s == 1 && c.geo.t.dil == 1 && c.geo.t.lo == 0 &&
      c.geo.t.hi == 0 && c.geo.t.mode == 0)) (o + 64),
    chainBad { kind := 3, argmax := c.gn == 0 && c.groups == 1, itemStat := c.groups == 1, ldc := ldc,
               lo := 256 * s.ld 2 (b + 0x18), hi := 256 * (s.ld 2 (b + 0x18) + c.obSize) }
      [0x09, 0x0A, 0x0C, 0x0D] chain (o + 128),
    must (pairOk fa fb c.a16) o,
    mustElse 0x30 (decide (2 * (c.gm * c.region c.fmtA + ge * c.region c.fmtB) ≤ 256 * c.obSize)) (o + 0x1A),
    mustElse 0x30 (decide (c.gm * ge ≤ c.capacity)) (o + 0xB),
    s.holdsBad img p (o + 6)]

/-- A plain target of a conversion control byte. -/
def plainCvt (b : Nat) : Bool := match Cvt.ofByte b with
  | some c => c.fmt.isOutput && !c.fmt.scaled && !c.sr
  | none => false

/-- A Winograd transform against R180 and R181. -/
def State.winogradBad (s : State) (img : Nat) (p : PackAt) : Bad :=
  let b := p.pk.body
  let o := p.off
  let used := s.dimsUsedOf img p.pk.bound
  let op := s.ld 1 b
  let out := op == 3
  let f := s.ld 1 (b + 2)
  let w := s.wtuOf (s.leastRun img p [1, 1, 1, 1, 0, 0])
  let chans := fun (x : Nat) => decide (32 ≤ x) && decide (x ≤ 1048576) && x % 32 == 0
  firstBad [must (p.pk.bodyLen == 128) (o - 0x34),
    must (decide (1 ≤ op) && decide (op ≤ 3)) o, must (w.variant == 1 || w.variant == 2) (o + 1),
    must (if out then f == 0 else (match Fmt.ofCode f with
      | some g => g.isMatrix && (w.variant == 1 || g == .bf16)
      | none => false)) (o + 2),
    must (if out then plainCvt w.cvt else w.cvt == 0) (o + 3),
    must (if out then decide (s.ld 1 (b + 4) ≤ 8) else s.ld 1 (b + 4) == 0) (o + 4),
    must (decide (s.ld 1 (b + 5) ≤ (if out then 1 else 0))) (o + 5), s.zeros (b + 6) 2 (o + 6),
    must (decide (w.batch ≤ 65536)) (o + 8), must (chans w.cin) (o + 0xC), must (chans w.cout) (o + 0x10),
    s.tauBad (b + 0x14) (o + 0x14) (if out then 0 else f),
    s.zeros (b + 0x1E) 2 (o + 0x1E), s.zeros (b + 0x26) 2 (o + 0x26),
    must (w.withBias || w.bias == 0) (o + 0x28), s.zeros (b + 0x2E) 2 (o + 0x2E),
    must (decide (w.part < w.parts)) (o + 0x30), must (w.parts != 0) (o + 0x32), s.zeros (b + 0x34) 12 (o + 0x34),
    s.geoBad (b + 64) (o + 64) used false,
    must (w.geo.t.s == 1 && w.geo.t.dil == 1) (o + 64 + 5),
    must (w.geo.h.k == 3 && w.geo.h.s == 1 && w.geo.h.dil == 1) (o + 64 + 0xC + 4),
    must (w.geo.w.k == 3 && w.geo.w.s == 1 && w.geo.w.dil == 1) (o + 64 + 0x18 + 4)]

end Sys2Proof.Machine
end

