-- ==== Sys2Proof/Machine/LoadCheck2.lean ====
section
/-!
DEFINITION. Machine/LoadCheck2.lean: the load checks of the other packets and of the plan's tables (binding check 11 of
R51): movers (R183), vector programs (R238), codec jobs (R229), KV appends (R160), residency (R210, R216), bushels and
sends (R264), updates (R276) and mirror sends (R287).
-/

namespace Sys2Proof.Machine

/-! ## Movers, vector programs, codec jobs, KV appends -/

/-- A mover transfer against R183 and R185. -/
def State.moverBad (s : State) (img : Nat) (p : PackAt) : Bad :=
  let b := p.pk.body
  let o := p.off
  let used := s.dimsUsedOf img p.pk.bound
  let m := s.movOf (s.leastRun img p [1, 1, 1, 1, 0, 0])
  let row := m.op == 1 || m.op == 2
  let sd := m.op == 3 || m.op == 4
  let zero := fun (off n : Nat) => s.zeros (b + off) n (o + off)
  let one := fun (a : Axis) => a.k == 1 && a.s == 1 && a.dil == 1 && a.lo == 0 && a.hi == 0 && a.mode == 0
  firstBad ([must (p.pk.bodyLen == (if row then 64 else 128)) (o - 0x34),
    must (decide (1 ≤ m.op) && decide (m.op ≤ 9)) o,
    must (if row then s.ld 1 (b + 1) == 0 else decide (s.ld 1 (b + 1) ≤ 4)) (o + 1),
    must (if decide (5 ≤ m.op) then plainCvt (s.ld 1 (b + 2)) else s.ld 1 (b + 2) == 0) (o + 2),
    must (decide (s.ld 1 (b + 3) < 4)) (o + 3),
    must (if sd then decide (1 ≤ m.ft) && decide (m.ft ≤ 8) else m.ft == 0) (o + 4),
    must (if sd then decide (1 ≤ m.fh) && decide (m.fh ≤ 32) else m.fh == 0) (o + 5),
    must (if sd then decide (1 ≤ m.fw) && decide (m.fw ≤ 32) else m.fw == 0) (o + 6),
    zero 7 1, must (decide (m.batch ≤ 65536)) (o + 8),
    must (if row then m.ch == 0 else decide (1 ≤ m.ch) && decide (m.ch ≤ 1048576)) (o + 0xC),
    zero 0x16 2, zero 0x1E 2, must (m.op == 2 || m.op == 6 || m.op == 8 || m.aux == 0) (o + 0x20), zero 0x26 2] ++
   (if row then [must (decide (1 ≤ m.run) && decide (m.run ≤ 16777216)) (o + 0x2C)]
    else [zero 0x28 4, zero 0x2C 4, zero 0x30 4, zero 0x34 4]) ++
   [must (m.op == 2 || m.srcRows == 0) (o + 0x38), must (decide (m.part < m.parts)) (o + 0x3C), must (m.parts != 0) (o + 0x3E)] ++
   (if row then []
    else [s.geoBad (b + 64) (o + 64) used false,
      must (!sd || (one m.geo.t && one m.geo.h && one m.geo.w)) (o + 64 + 4)]))

/-- One vector instruction against R233, R234 and R238. -/
def vinsBad (w o : Nat) : Bad :=
  let x := vinsOf w
  let cvt := Cvt.ofByte x.cvt
  let scalar := decide (0x20 ≤ x.op) && decide (x.op ≤ 0x22) || x.op == 0x30 || x.op == 0x31
  let known := [0x01, 0x02, 0x03, 0x04, 0x05, 0x06, 0x07, 0x08, 0x09, 0x0A, 0x0B, 0x10, 0x11, 0x12, 0x13, 0x14, 0x18, 0x20,
    0x21, 0x22, 0x28, 0x29, 0x30, 0x31]
  let sub := match x.op with
    | 0x06 => decide (x.sub ≤ 5)
    | 0x07 => decide (x.sub ≤ 8)
    | 0x08 => decide (x.sub ≤ 3)
    | 0x0A => decide (x.sub ≤ 2)
    | 0x10 => decide (x.sub ≤ 4)
    | 0x11 => x.sub % 4 == 0
    | 0x12 => decide (5 ≤ x.sub) && decide (x.sub ≤ 12)
    | 0x13 => x.sub / 2 % 2 == 0 && (x.sub % 2 == 0 || (match cvt with | some c => c.fmt == .q8m | none => false))
    | 0x14 => decide (x.sub ≤ 1)
    | 0x18 => decide (x.sub ≤ 2)
    | _ => x.sub == 0
  firstBad [must (known.contains x.op) o,
    must (bitsOf w 47 45 == 0) (o + 5), must (!scalar || x.vd < 16) (o + 1), must (x.op != 0x08 || x.vd < 8) (o + 1),
    must sub (o + 4),
    must (x.op != 0x07 || decide (x.vb ≤ 1)) (o + 2), must (x.op != 0x09 || !x.masked) (o + 4),
    must (x.op != 0x11 || (match cvt with | some c => c.fmt.isOutput && !c.fmt.scaled | none => false)) (o + 2),
    must (x.op != 0x13 || (match cvt with | some c => c.fmt.scaled | none => false)) (o + 2),
    must (x.op != 0x13 || !x.masked) (o + 4),
    must (!(x.op == 0x12 || x.op == 0x13) || x.xs != 15) (o + 5),
    must (!(x.op == 0x11 || x.op == 0x13) || !bitOf x.cvt 5 || decide (x.xs ≤ 13)) (o + 5)]

/-- The loops of a program: `open'` holds the last instruction of each loop that is open, innermost first. -/
def loopsBad (n o : Nat) : List Nat → List VIns → Nat → Bad
  | _, [], _ => none
  | open', x :: xs, i =>
    let open1 := open'.filter (fun e => decide (i ≤ e))
    if x.op = 0x28 then
      let e := (i : Int) + x.imm
      if x.imm < 0 ∨ (n : Int) ≤ e then some (badParam (o + 8 * i + 6))
      else if open1.any (fun q => decide ((q : Int) < e)) then some (badParam (o + 8 * i + 6))
      else if 4 ≤ open1.length then some (badParam (o + 8 * i))
      else loopsBad n o (e.toNat :: open1) xs (i + 1)
    else loopsBad n o open1 xs (i + 1)

/-- A vector program against R237 and R238. -/
def State.vectorBad (s : State) (p : PackAt) : Bad :=
  let b := p.pk.body
  let o := p.off
  let n := s.ld 4 b
  let ws := (List.range n).map (fun i => s.ld 8 (b + 16 + 8 * i))
  firstBad [must (p.pk.bodyLen == 16 + 8 * n) (o - 0x34), must (decide (1 ≤ n) && decide (n ≤ 65536)) o,
    s.zeros (b + 4) 4 (o + 4), must (s.ld 8 (b + 8) % 8 == 0) (o + 8),
    badIn (indexed ws) (fun w => vinsBad w.2 (o + 16 + 8 * w.1)),
    must ((ws.getLast?.map (fun w => w % 256)) == some 0x29) (o + 16 + 8 * (n - 1)),
    loopsBad n (o + 16) [] (ws.map vinsOf) 0]

/-- A codec job against R229. -/
def State.codecBad (s : State) (p : PackAt) : Bad :=
  let b := p.pk.body
  let o := p.off
  let enc := s.ld 1 b == 1
  let raw := s.ld 4 (b + 0x28)
  let prof := profileOf (s.peek (b + 8) 16)
  firstBad [must (p.pk.bodyLen == 64) (o - 0x34), must (p.pk.bound == 0xFFFF) (o - 0x30),
    must (enc || s.ld 1 b == 2) o, s.zeros (b + 1) 7 (o + 1),
    if enc then must prof.isSome (o + 8) else s.zeros (b + 8) 16 (o + 8),
    s.zeros (b + 0x1E) 2 (o + 0x1E), must (s.ld 6 (b + 0x20) % 64 == 0) (o + 0x20), s.zeros (b + 0x26) 2 (o + 0x26),
    must (match enc, prof with
      | true, some q => decide (1 ≤ raw) && decide (raw ≤ 2 ^ 26) && raw % q.elemBytes == 0
      | _, _ => raw == 0) (o + 0x28),
    must (decide (64 ≤ s.ld 4 (b + 0x2C)) && decide (s.ld 4 (b + 0x2C) ≤ 2 ^ 27)) (o + 0x2C),
    must (s.ld 6 (b + 0x30) % 16 == 0) (o + 0x30), s.zeros (b + 0x36) 10 (o + 0x36)]

/-- A KV append against R160. -/
def State.kvAppendBad (s : State) (p : PackAt) : Bad :=
  let b := p.pk.body
  let o := p.off
  let n := s.ld 4 b
  firstBad [must (p.pk.bodyLen == 32 + 32 * n) (o - 0x34), must (decide (1 ≤ n) && decide (n ≤ 65536)) o,
    must (decide (s.ld 1 (b + 4) ≤ 2)) (o + 4), s.zeros (b + 5) 3 (o + 5), s.zeros (b + 0x10) 16 (o + 0x10),
    badIn (List.range n) (fun i =>
      let e := 32 + 32 * i
      firstBad [s.zeros (b + e + 2) 2 (o + e + 2), s.zeros (b + e + 0x1C) 4 (o + e + 0x1C)])]

/-! ## Residency (R195, R203, R208, R210, R216) -/

/-- The copy of the residency policy set that checks use: the shadow or the active. -/
def State.policyReg (s : State) (shadow : Bool) (off : Nat) : Nat := if shadow then s.reg off else s.act off

/-- A profile of the policy set (R216, R230). -/
def State.profileIn (s : State) (shadow : Bool) (d i : Nat) : Option Profile :=
  profileOf (leBytes 4 (s.policyReg shadow (rYoyoProfileW0 d i)) ++ leBytes 4 (s.policyReg shadow (rYoyoProfileW1 d i)) ++
    leBytes 4 (s.policyReg shadow (rYoyoProfileW2 d i)) ++ leBytes 4 (s.policyReg shadow (rYoyoProfileW3 d i)))

/-- The chain a core packet's body carries. -/
def State.bodyChain (s : State) (pk : Packet) : List W64 :=
  match pk.kind with
  | 1 => s.chainAt (pk.body + 64) (s.ld 1 (pk.body + 3))
  | 2 => s.chainAt (pk.body + 128) (s.ld 1 (pk.body + 0x0C))
  | 3 => s.chainAt (pk.body + 128) (s.ld 1 (pk.body + 2))
  | _ => []

/-- Whether a range lies in the stack half of a die. -/
def inHalf (d a n : Nat) : Bool := inStack a n && dieOf a == d && dieOf (a + n - 1) == d

/-- The bytes a grain's stored form may take: raw, or R225's bound. -/
def storedRoom (prof : Option Profile) (fill : Nat) : Nat :=
  match prof with
  | some q => codecBound q (fill / q.elemBytes)
  | none => fill

/-- The step period of an image. -/
def State.stepPeriod (s : State) (img : Nat) : Nat := s.ld 4 (img + 0x1C)

/-- One grain policy entry against R210 and R216. -/
def State.grainBad (s : State) (img : Nat) (shadow : Bool) (all : List PackAt) (t : Section) (i : Nat) : Bad :=
  let a := t.base + 64 * i
  let o := a - img
  let g := s.ld 4 a
  let d := grainDie g
  let z := s.ld 1 (a + 4)
  let pol := s.ld 1 (a + 5)
  let pf := s.ld 1 (a + 6)
  let coded := pol == 1 || pol == 3
  let hosted := pol == 2 || pol == 3
  let adopt := bitOf (s.ld 1 (a + 7)) 0
  let raw := s.ld 6 (a + 8)
  let rep := s.ld 2 (a + 0x0E)
  let store := s.ld 6 (a + 0x10)
  let fill := s.ld 4 (a + 0x18)
  let cs := (List.range 6).map (fun k => s.ld 4 (a + 0x20 + 4 * k))
  let n := s.ld 1 (a + 0x38)
  let prof := if coded then s.profileIn shadow d (pf % 16) else none
  let room := storedRoom prof fill
  let strings := ((s.tableOf img 5).map (fun x => x.count)).getD 0
  let segs := match s.tableOf img 5 with
    | some x =>
      let r := x.base + 128 * rep
      (List.range (s.ld 1 (r + 0x70))).map (fun k => s.ld 4 (r + 16 * k))
    | none => []
  let find := fun (id : Nat) => all.find? (fun p => p.pk.pid == id)
  let uses := fun (p : PackAt) => cs.take n |>.contains p.pk.pid
  firstBad [must (decide (g < 2 ^ 20) && !(List.range i).any (fun j => s.ld 4 (t.base + 64 * j) == g)) o,
    must (decide (16 ≤ z) && decide (z ≤ 26)) (o + 4), must (decide (pol ≤ 4)) (o + 5),
    must (if coded then decide (pf < 16) else pf == 0) (o + 6), must (decide (s.ld 1 (a + 7) < 4)) (o + 7),
    must (if pol = 4 then decide (rep < strings) else rep == 0xFFFF) (o + 0x0E),
    must (decide (1 ≤ fill) && decide (fill ≤ 2 ^ z)) (o + 0x18),
    must (decide (n ≤ 6) && (cs.drop n).all (fun c => c == 0xFFFFFFFF) && !(cs.take n).contains 0xFFFFFFFF) (o + 0x38),
    s.zeros (a + 0x39) 7 (o + 0x39),
    must (raw % 2 ^ z == 0 && inHalf d raw (2 ^ z)) (o + 8),
    must (if pol = 1 then store % 64 == 0 && inHalf d store room
      else if hosted then store % 4096 == 0 && inSpace .pool store room else store == 0) (o + 0x10),
    must (decide (s.ld 4 (a + 0x1C) < s.stepPeriod img)) (o + 0x1C),
    badIn (indexed (cs.take n)) (fun c => must (find c.2).isSome (o + 0x20 + 4 * c.1)),
    must (pol != 4 || adopt || segs.any (fun id => match find id with
      | some p => (s.bodyChain p.pk).any (fun w => stepOp w == 0x0D && stepGrain w == g)
      | none => false)) (o + 0x0E),
    must (pol != 4 || !all.any (fun p => engClass p.engine == 2 &&
      bitOf (s.policyReg shadow (rYoyoReplayCores (engDie p.engine))) (engInst p.engine) &&
      (uses p || (chainGrains (s.bodyChain p.pk)).contains g))) o,
    mustElse 0x30 (s.yoyo d).table.isSome o,
    mustElse 0x30 (!hosted || s.poolOk store room) (o + 0x10),
    mustElse 0x12 (!coded || (s.policyReg shadow (rYoyoCodecMask d) != 0 && !(s.sections img).any (fun l => l.type == 2 &&
      engClass l.target == 6 && engDie l.target == d && bitOf (s.policyReg shadow (rYoyoCodecMask d)) (engInst l.target)))) (o + 5),
    mustElse 0x12 (pol != 4 || s.policyReg shadow (rYoyoReplayCores d) != 0) (o + 5),
    mustElse 0x12 (!hosted || s.policyReg shadow rPciePoolShare != 0) (o + 5),
    mustElse 0x12 (!coded || prof.isSome) (o + 6),
    mustElse 0x12 (match prof with | some q => fill % q.elemBytes == 0 | none => true) (o + 0x18)]

/-- Whether a segment may name a packet of a kind (R203): stream F of a core, forward; or a vector program. -/
def State.segmentKind (s : State) (p : PackAt) : Bool :=
  match p.pk.kind with
  | 1 => engClass p.engine == 1
  | 2 => engClass p.engine == 1 && bitsOf (s.ld 1 p.pk.body) 1 0 == 0
  | 3 => engClass p.engine == 1 && bitsOf (s.ld 1 (p.pk.body + 1)) 5 4 == 0
  | 4 => true
  | _ => false

/-- One replay string against R203 and R210. -/
def State.stringBad (s : State) (img : Nat) (all : List PackAt) (t : Section) (i : Nat) : Bad :=
  let a := t.base + 128 * i
  let o := a - img
  let n := s.ld 1 (a + 0x70)
  let m := s.ld 1 (a + 0x71)
  let find := fun (id : Nat) => all.find? (fun p => p.pk.pid == id)
  firstBad [badIn (List.range 4) (fun k => s.zeros (a + 16 * k + 12) 4 (o + 16 * k + 12)),
    badIn ((List.range 4).filter (fun k => decide (n ≤ k))) (fun k => s.zeros (a + 16 * k) 12 (o + 16 * k)),
    badIn (List.range 12) (fun k =>
      let x := s.ld 4 (a + 0x40 + 4 * k)
      must (if k < m then decide (x < 2 ^ 20) else x == 0xFFFFFFFF) (o + 0x40 + 4 * k)),
    must (decide (1 ≤ n) && decide (n ≤ 4)) (o + 0x70), must (decide (m ≤ 12)) (o + 0x71), s.zeros (a + 0x72) 2 (o + 0x72),
    s.zeros (a + 0x78) 8 (o + 0x78),
    badIn (List.range n) (fun k => match find (s.ld 4 (a + 16 * k)) with
      | some p => must (s.segmentKind p && (p.pk.kind != 4 || s.ld 8 (a + 16 * k + 4) == 0)) (o + 16 * k)
      | none => some (badParam (o + 16 * k)))]

/-- A residency directive body against R208 and R209. -/
def State.directivesBad (s : State) (p : PackAt) : Bad :=
  let b := p.pk.body
  let o := p.off
  let n := s.ld 4 b
  firstBad [must (p.pk.bodyLen == 16 + 8 * n) (o - 0x34), must (decide (1 ≤ n) && decide (n ≤ 65536)) o,
    s.zeros (b + 4) 12 (o + 4),
    badIn (List.range n) (fun i =>
      let a := b + 16 + 8 * i
      let e := o + 16 + 8 * i
      let op := s.ld 1 a
      firstBad [must (decide (1 ≤ op) && decide (op ≤ 6)) e,
        must (if op = 4 then decide (1 ≤ s.ld 1 (a + 1)) && decide (s.ld 1 (a + 1) ≤ 4) else s.ld 1 (a + 1) == 0) (e + 1),
        s.zeros (a + 2) 2 (e + 2), must (decide (s.ld 4 (a + 4) < 2 ^ 20)) (e + 4)])]

/-- The conditions of R210 and R216 that a plan's tables must meet under a copy of the policy set: those that a swap of the
set is validated against. -/
def State.residencyBad (s : State) (img : Nat) (shadow : Bool) : Bad :=
  let all := s.packs img
  badIn (s.sections img) (fun t =>
    if t.type = 3 then badIn (List.range t.count) (s.grainBad img shadow all t)
    else if t.type = 5 then badIn (List.range t.count) (s.stringBad img all t)
    else none)

/-! ## Bushels, sends, updates and mirror sends (R264, R276, R287) -/

/-- The length of list `i` of a job table. -/
def JobTable.listLen (j : JobTable) (i : Nat) : Option Nat := (j.lists[i]?).map List.length

/-- Segments a role holds (R250). -/
def BushelEnt.heldMost (e : BushelEnt) : Nat :=
  let o := if e.owner then (e.held 0).2 else 0
  let r := if e.receive then (e.held 1).2 else 0
  if o < r then r else o

/-- A range aligned, in stack memory and in one die half. -/
def halfRange (a n align : Nat) : Bool := a % align == 0 && inStack a n && (n == 0 || dieOf a == dieOf (a + n - 1))

/-- Ticks between which an entry is open (R264). -/
def BushelEnt.openSpan (e : BushelEnt) : Nat × Nat :=
  let d := if e.owner then e.deadlineOff else 0
  let r := if e.receive then e.resultOff else 0
  (e.openOff, if d < r then r else d)

/-- One bushel entry against R247, R248 and R264. -/
def State.bushelBad (s : State) (img : Nat) (job : JobTable) (t : Section) (i : Nat) : Bad :=
  let a := t.base + 64 * i
  let o := a - img
  let e := s.bushelAt a
  let period := s.stepPeriod img
  let kd := s.ld 1 (a + 2)
  let need := e.owner || e.receive
  let sends := e.contrib || (e.owner && e.kind == kindBroadcast)
  let range := match e.kind with
    | 0 => decide (4096 ≤ e.segs) && decide (e.segs ≤ 1048576)
    | 1 => decide (1 ≤ e.segs) && decide (e.segs ≤ 16384)
    | 2 => e.segs == 1
    | _ => decide (1 ≤ e.segs) && decide (e.segs ≤ 1048576)
  let whole := e.kind == kindReplicated || e.kind == kindVerdict
  let pecks := if e.k = 0 then 0 else ceilDiv e.segs e.k
  let held := e.heldMost
  let span := if e.kind = kindBroadcast then (e.held 0).2 else e.segs
  let k768 := 768 * 1024
  let inside := fun (x : BushelEnt) => decide ((x.openSpan).1 ≤ e.openOff) && decide (e.openOff < (x.openSpan).2)
  firstBad [must (decide (e.id ≤ 65534) && !(List.range i).any (fun j => s.ld 2 (t.base + 64 * j) == e.id)) o,
    must (decide (kd % 16 ≤ 3) && (kd / 16 == 0 || (kd / 16 == 1 && decide (e.kind ≤ 1)))) (o + 2),
    must (decide (1 ≤ s.ld 1 (a + 3)) && decide (s.ld 1 (a + 3) ≤ 7)) (o + 3), must range (o + 8),
    must (decide (1 ≤ e.k) && decide (e.k ≤ e.segs) && (!whole || e.k == e.segs)) (o + 0xC),
    must (sends || e.src == 0) (o + 0x10),
    must (need || e.buf == 0) (o + 0x18), s.zeros (a + 0x1E) 2 (o + 0x1E), must (need || e.side == 0) (o + 0x20),
    s.zeros (a + 0x26) 2 (o + 0x26), must (decide (e.openOff < period)) (o + 0x28),
    must (decide (e.openOff < e.deadlineOff) && decide (e.deadlineOff ≤ period)) (o + 0x2C),
    must (if e.kind = kindOrdinary then e.resultOff == 0 else decide (e.deadlineOff ≤ e.resultOff) && decide (e.resultOff ≤ period))
      (o + 0x30),
    must (if need then e.status % 64 == 0 else e.status == 0) (o + 0x34), s.zeros (a + 0x3A) 6 (o + 0x3A),
    must (!need || halfRange e.buf (4096 * held) k768) (o + 0x18),
    must (!need || (halfRange e.side (k768 * ceilDiv held 98304) k768 && dieOf e.side == dieOf e.buf)) (o + 0x20),
    must (!sends || (e.src % 4096 == 0 && inStack e.src (4096 * span))) (o + 0x10),
    must (match job.listLen e.ownerList with
      | some n => decide (pecks ≤ n)
      | none => true) (o + 6),
    must (e.peck == 0xFFFF || decide (e.peck < pecks)) (o + 0x16),
    mustElse 0x30 (!job.bytes.isEmpty) o,
    mustElse 0x30 (job.listLen e.contribList).isSome (o + 4), mustElse 0x30 (job.listLen e.ownerList).isSome (o + 6),
    mustElse 0x30 (!need || decide (((List.range t.count).filter (fun j =>
      let x := s.bushelAt (t.base + 64 * j)
      (x.owner || x.receive) && inside x)).length ≤ 256)) o]

/-- The entries of a body that name bushels: a bushel index every `size` bytes from `from'`, at `at'` within each. -/
def State.namedBushels (s : State) (img b n from' size at' : Nat) : List (Nat × Option BushelEnt) :=
  (List.range n).map (fun i => (from' + size * i, s.bushelIn img (s.ld 4 (b + from' + size * i + at'))))

/-- A bushel send or a parameter broadcast against R252 and R264. -/
def State.sendBad (s : State) (img : Nat) (p : PackAt) : Bad :=
  let b := p.pk.body
  let o := p.off
  let n := s.ld 4 b
  let cast := p.pk.kind == 13
  let es := s.namedBushels img b n 16 8 0
  let start := (s.windowAt img p.pk.window).1
  firstBad [must (p.pk.bodyLen == 16 + 8 * n) (o - 0x34), must (decide (1 ≤ n) && decide (n ≤ 4096)) o, s.zeros (b + 4) 4 (o + 4),
    must (!cast || s.ld 8 (b + 8) == 0) (o + 8),
    badIn es (fun e => firstBad [s.zeros (b + e.1 + 4) 4 (o + e.1 + 4), must (match e.2 with
      | some x => if cast then x.kind == kindBroadcast && x.peck != 0xFFFF else x.kind != kindBroadcast && x.contrib
      | none => false) (o + e.1)]),
    badIn es (fun e => must (match e.2 with | some x => decide (x.openOff + 1 ≤ start) | none => false) (o - 0x3C))]

/-- An update body against R274 and R276. -/
def State.updateBad (s : State) (img : Nat) (p : PackAt) : Bad :=
  let b := p.pk.body
  let o := p.off
  let n := s.ld 4 b
  let start := (s.windowAt img p.pk.window).1
  let v := s.bushelIn img (s.ld 4 (b + 4))
  let hold := s.ld 8 (b + 8)
  firstBad [must (p.pk.bodyLen == 32 + 64 * n) (o - 0x34), must (decide (1 ≤ n) && decide (n ≤ 4096)) o,
    must (hold % 64 == 0 && inStack hold 0) (o + 8), s.zeros (b + 0x10) 16 (o + 0x10),
    must (match v with | some x => x.kind == kindVerdict && x.receive | none => false) (o + 4),
    badIn (s.namedBushels img b n 32 64 4) (fun e =>
      let a := b + e.1
      let q := o + e.1
      let cnt := s.ld 4 (a + 0xC)
      let role := match e.2 with
        | some x => if x.kind = kindOrdinary ∧ x.owner then some (x.held 0).2
          else if x.kind = kindReplicated ∧ x.receive then some (x.held 1).2 else none
        | none => none
      firstBad [s.zeros (a + 1) 3 (q + 1), must role.isSome (q + 4),
        must (cnt % 32 == 0 && decide (32 ≤ cnt) && decide (cnt ≤ 2 ^ 30) &&
          decide (s.ld 4 (a + 8) * 1024 + cnt ≤ (role.getD 0) * 1024)) (q + 0xC),
        must (s.ld 6 (a + 0x10) % 64 == 0) (q + 0x10),
        badIn [0x16, 0x1E, 0x26, 0x2E, 0x36, 0x3E] (fun x => s.zeros (a + x) 2 (q + x))]),
    must (match v with | some x => decide (x.resultOff ≤ start) | none => false) (o - 0x3C),
    badIn (s.namedBushels img b n 32 64 4) (fun e => must (match e.2 with
      | some x => if x.kind = kindOrdinary then decide (x.deadlineOff + 1 ≤ start) else decide (x.resultOff ≤ start)
      | none => false) (o - 0x3C))]

/-- A mirror send against R287. -/
def State.mirrorBad (s : State) (p : PackAt) : Bad :=
  let b := p.pk.body
  let o := p.off
  let n := s.ld 4 b
  firstBad [must (p.pk.bodyLen == 16 + 16 * n) (o - 0x34), must (decide (1 ≤ n) && decide (n ≤ 64)) o, s.zeros (b + 4) 12 (o + 4),
    badIn (List.range n) (fun i =>
      let a := b + 16 + 16 * i
      let q := o + 16 + 16 * i
      firstBad [must (s.ld 6 a % 4096 == 0 && inStack (s.ld 6 a) (4096 * s.ld 4 (a + 8))) q, s.zeros (a + 6) 2 (q + 6),
        must (s.ld 4 (a + 8) != 0) (q + 8)])]

end Sys2Proof.Machine
end

