-- ==== Sys2Proof/Machine/PlanCheck.lean ====
section
/-!
DEFINITION. Machine/PlanCheck.lean: the binding checks of a plan image, in the order of R51. Offsets are those of the
failing field from the first byte of the image.
-/

namespace Sys2Proof.Machine

/-! ## What is in force at a tick (R360) -/

/-- Whether a set's armed shadow is the copy in force at a tick. -/
def State.shadowAt (s : State) (i tick : Nat) : Bool := s.swapArmed i && decide (s.swapTick i ≤ tick)

/-- The period and mode of the tick configuration in force at a tick. -/
def State.tickCfgAt (s : State) (tick : Nat) : TickMode × Nat :=
  if s.shadowAt 2 tick then (s.tick.shMode, s.tick.shPeriod) else (s.tick.mode, s.tick.period)

/-- Whether an engine is unavailable to a binding (R51, check 8). -/
def State.unavailable (s : State) (e : Nat) : Bool :=
  let d := engDie e
  let c := s.core (coreKey d (engInst e))
  (engClass e == 1 || engClass e == 2) && (c.fenced || c.fenceReq) && !c.substituted ||
    decide (d < 2) && (bitOf (s.reg rPwrRailOff) d || listGet false s.dieReset d)

/-! ## Checks 1 to 10 -/

/-- Uncorrectable errors that a read of a range meets (R20, R429). -/
def State.badCount (s : State) (a n : Nat) : Nat :=
  if s.badRange a n then
    let k := (s.badWords.filter (fun w => decide (w < a + n) && decide (a < w + 32))).length
    if k = 0 then 1 else k
  else 0

/-- The entry size of a section type (R43); a work list has 0. -/
def entrySize (t : Nat) : Option Nat :=
  match t with
  | 1 => some 16
  | 2 => some 0
  | 3 => some 64
  | 4 => some 64
  | 5 => some 128
  | 6 => some 32
  | _ => none

/-- Classes a descriptor kind runs on (R47). -/
def kindClasses (k : Nat) : List Nat :=
  match k with
  | 1 | 2 | 3 => [1, 2]
  | 4 | 11 => [3]
  | 5 => [4]
  | 6 => [5]
  | 7 => [6]
  | 8 => [7]
  | 9 => [8]
  | 10 | 12 | 13 => [9]
  | _ => []

/-- The packets of a list from address `a`: legal lengths, and all within the section, which ends at `stop` (R46). Packets
that run past it are reported at `off`, the size of the section's entry (DESIGN CHOICE, log 72: R51 names no field). -/
def State.walkBad (s : State) (img stop off : Nat) : Nat → Nat → Bad
  | 0, _ => none
  | n + 1, a =>
    if stop < a + 64 then some (badParam off)
    else
      let len := s.ld 4 (a + 12)
      if len % 8 ≠ 0 ∨ len < 8 ∨ 16777216 < len then some (badParam (a - img + 0x0C))
      else if stop < a + 64 + alignUp len 64 then some (badParam off)
      else s.walkBad img stop off n (a + 64 + alignUp len 64)

/-- Two ranges share a byte. -/
def meets (a n b m : Nat) : Bool := n != 0 && m != 0 && decide (a < b + m) && decide (b < a + n)

/-- Sections with their places in the order R51 reports failures in: the tables, then the work lists. -/
def inOrder (secs : List Section) : List (Nat × Section) :=
  (indexed secs).filter (fun x => x.2.type != 2) ++ (indexed secs).filter (fun x => x.2.type == 2)

/-- Check 4. A missing window table, and an image without a work list, are reported at section_count (DESIGN CHOICE, log 72:
R51 names no field). -/
def State.sectionsBad (s : State) (img size : Nat) : Bad :=
  let n := s.ld 2 (img + 0x0A)
  let sto := s.ld 4 (img + 0x0C)
  let secs := inOrder (s.sections img)
  let at' := fun (i : Nat) => sto + 32 * i
  firstBad [must (decide (1 ≤ n) && decide (n ≤ 1024)) 0x0A,
    must (sto % 64 == 0 && decide (256 ≤ sto) && decide (sto + 32 * n ≤ size)) 0x0C,
    badIn (indexed secs) (fun ix =>
      let x := ix.2
      let t := x.2
      let o := t.base - img
      let others := (secs.take ix.1).map (fun y => y.2)
      firstBad [must (o % 64 == 0 && decide (o + t.size ≤ size)) (at' x.1 + 8),
        match entrySize t.type with
        | none => none
        | some w => firstBad [must (t.entry == w) (at' x.1 + 2), must (t.type == 2 || t.size == t.count * w) (at' x.1 + 0x10),
            must (if t.type = 2 then decide ((others.filter (fun y => y.type == 2)).length < 1000)
              else !others.any (fun y => y.type == t.type)) (at' x.1),
            must (t.type != 2 || !others.any (fun y => y.type == 2 && y.target == t.target)) (at' x.1 + 0x18)],
        must (!meets o t.size 0 256 && !meets o t.size sto (32 * n) &&
          !others.any (fun y => meets o t.size (y.base - img) y.size)) (at' x.1 + 8),
        if t.type = 2 then s.walkBad img (t.base + t.size) (at' x.1 + 0x10) t.count t.base else none]),
    must ((secs.filter (fun x => x.2.type == 1)).length == 1 && secs.any (fun x => x.2.type == 2)) 0x0A]

/-- Reserved fields, kind, flags and padding of a packet (R46, R47). -/
def State.packetReserved (s : State) (p : PackAt) : Bad :=
  let a := p.pk.body - 64
  let o := p.off - 64
  firstBad [must (decide (1 ≤ p.pk.kind) && decide (p.pk.kind ≤ 13)) (o + 8), must (decide (s.ld 2 (a + 0x0A) ≤ 1)) (o + 0x0A),
    s.zeros (a + 0x12) 2 (o + 0x12), s.zeros (a + 0x28) 24 (o + 0x28),
    s.zeros (p.pk.body + p.pk.bodyLen) (alignUp p.pk.bodyLen 64 - p.pk.bodyLen) (p.off + p.pk.bodyLen)]

/-- Check 5. -/
def State.reservedBad (s : State) (img : Nat) : Bad :=
  let sto := s.ld 4 (img + 0x0C)
  let secs := inOrder (s.sections img)
  let ramp := s.ld 2 (img + 0x28)
  let tick := s.ld 4 (img + 0x18)
  firstBad [must (decide (100 ≤ tick) && decide (tick ≤ 2000000)) 0x18, must (s.stepPeriod img != 0) 0x1C,
    must (ramp == 16 || ramp == 32 || ramp == 64) 0x28, must (decide (s.ld 2 (img + 0x2A) ≤ 1)) 0x2A,
    s.zeros (img + 0x2C) 4 0x2C, s.zeros (img + 0x90) 112 0x90,
    badIn secs (fun x =>
      let o := sto + 32 * x.1
      let t := x.2
      firstBad [must (entrySize t.type).isSome o, must (t.type == 2 || t.target == 0) (o + 0x18),
        s.zeros (img + o + 0x1C) 4 (o + 0x1C),
        match t.type with
        | 1 => badIn (List.range t.count) (fun i => s.zeros (t.base + 16 * i + 0xC) 4 (t.base - img + 16 * i + 0xC))
        | 6 => badIn (List.range t.count) (fun i => s.zeros (t.base + 32 * i + 0x1A) 6 (t.base - img + 32 * i + 0x1A))
        | 2 => badIn (s.listPacks img t) s.packetReserved
        | _ => none])]

/-- A packet's window index, shape bound and shape words (R46), and the window order in its list, which is reported at the
later packet's window_index (DESIGN CHOICE, log 72: R51 names no field). -/
def State.packBad (s : State) (img windows bounds : Nat) (prev : Option PackAt) (p : PackAt) : Bad :=
  let o := p.off - 64
  firstBad [must (decide (p.pk.window < windows)) (o + 4),
    must (match prev with
      | some q => q.engine != p.engine || decide ((s.windowAt img q.pk.window).1 ≤ (s.windowAt img p.pk.window).1)
      | none => true) (o + 4),
    must (p.pk.bound == 0xFFFF || decide (p.pk.bound < bounds)) (o + 0x10),
    must (if p.pk.bound = 0xFFFF then p.pk.shapes == 0
      else p.pk.shapes != 0 && p.pk.shapes % 4 == 0 && inMem p.pk.shapes 24) (o + 0x20)]

/-- Check 6. -/
def State.windowsBad (s : State) (img : Nat) : Bad :=
  let period := s.stepPeriod img
  let secs := s.sections img
  let all := s.packs img
  let count := fun (t : Nat) => ((s.tableOf img t).map (fun x => x.count)).getD 0
  firstBad [
    badIn secs (fun t =>
      let o := t.base - img
      if t.type = 1 then badIn (List.range t.count) (fun i =>
        let a := t.base + 16 * i
        firstBad [must (decide (s.ld 4 a < period)) (o + 16 * i),
          must (decide (s.ld 4 a < s.ld 4 (a + 4)) && decide (s.ld 4 (a + 4) ≤ period)) (o + 16 * i + 4)])
      else if t.type = 6 then badIn (List.range t.count) (fun i =>
        let a := t.base + 32 * i
        let used := s.ld 2 (a + 24)
        firstBad [must (decide (1 ≤ used) && decide (used ≤ 6)) (o + 32 * i + 24),
          badIn ((List.range 6).filter (fun k => decide (used ≤ k))) (fun k => must (s.ld 4 (a + 4 * k) == 0) (o + 32 * i + 4 * k))])
      else none),
    badIn (indexed all) (fun x =>
      firstBad [must (!(all.take x.1).any (fun q => q.pk.pid == x.2.pk.pid)) (x.2.off - 64),
        s.packBad img (count 1) (count 6) (if x.1 = 0 then none else all[x.1 - 1]?) x.2])]

/-- Check 11 for one body. -/
def State.bodyBad (s : State) (img : Nat) (p : PackAt) : Bad :=
  match p.pk.kind with
  | 1 => s.matrixBad img p
  | 2 => s.attentionBad img p
  | 3 => s.convBad img p
  | 4 => s.vectorBad p
  | 5 => s.moverBad img p
  | 6 => s.winogradBad img p
  | 7 => s.codecBad p
  | 8 => s.kvAppendBad p
  | 9 => s.directivesBad p
  | 10 | 13 => s.sendBad img p
  | 11 => s.updateBad img p
  | 12 => s.mirrorBad p
  | _ => none

/-- Check 11 for the plan's tables, under the policy set in force at the binding's tick. -/
def State.tablesBad (s : State) (img fst : Nat) (job : JobTable) : Bad :=
  let all := s.packs img
  badIn (s.sections img) (fun t =>
    match t.type with
    | 3 => badIn (List.range t.count) (s.grainBad img (s.shadowAt 3 fst) all t)
    | 4 => badIn (List.range t.count) (s.bushelBad img job t)
    | 5 => badIn (List.range t.count) (s.stringBad img all t)
    | _ => none)

/-- Checks 1 to 11 on a header that can be read; check 3's reads beyond it are judged by `unreadable`. -/
def State.imageBad (s : State) (img fst : Nat) (job : JobTable) : Bad :=
  let size := s.ld 8 (img + 0x10)
  let sto := s.ld 4 (img + 0x0C)
  let lists := (indexed (s.sections img)).filter (fun x => x.2.type == 2)
  match firstBad [must (s.ld 4 img == 0x4C504E48) 0, must (s.ld 2 (img + 4) == 1) 4, must (s.ld 2 (img + 6) == 0) 6,
      must (s.ld 2 (img + 8) == 256) 8,
      must (size % 4096 == 0 && decide (4096 ≤ size) && decide (size ≤ 2 ^ 31) && inStack img size) 0x10] with
  | some r => some r
  | none =>
    if s.badRange (img + 256) (size - 256) then some (badParam 0x30)
    else firstBad [
      must (sha256 (s.peek img 0x30 ++ List.replicate 32 0#8 ++ s.peek (img + 0x50) (size - 0x50)) == s.peek (img + 0x30) 32) 0x30,
      s.sectionsBad img size, s.reservedBad img, s.windowsBad img,
      badIn lists (fun x => firstBad [must (isEngine x.2.target) (sto + 32 * x.1 + 0x18),
        badIn (s.listPacks img x.2) (fun p => must ((kindClasses p.pk.kind).contains (engClass p.engine)) (p.off - 56))]),
      badIn lists (fun x => mustElse 0x30 (!s.unavailable x.2.target) (sto + 32 * x.1 + 0x18)),
      mustElse 0x12 (s.ld 4 (img + 0x18) == (s.tickCfgAt fst).2) 0x18,
      mustElse 0x12 (!bitOf (s.ld 2 (img + 0x2A)) 0 || (s.tickCfgAt fst).1 == .fabric) 0x2A,
      mustElse 0x12 (decide (rampLength (if s.shadowAt 5 fst then s.reg rPwrRampCfg else s.act rPwrRampCfg) ≤ s.ld 2 (img + 0x28))) 0x28,
      s.tablesBad img fst job,
      badIn (s.packs img) (s.bodyBad img)]

/-- R51 on an image: the reply it fails with, if any, and the errors counted on the way. -/
def State.checkPlan (s : State) (img fst : Nat) (job : JobTable) : State × Bad :=
  if !inStack img 256 then (s, some (badParam 0x10))
  else if s.badRange img 256 then (s.count rTelCtrMEMUNCORRECTABLE (s.badCount img 256), some (badParam 0x10))
  else
    let size := s.ld 8 (img + 0x10)
    match s.imageBad img fst job with
    | none => (s, none)
    | some r =>
      if r.r0 = 0x30 ∧ r.code = 0x11 ∧ s.badRange (img + 256) (size - 256) then
        (s.count rTelCtrMEMUNCORRECTABLE (s.badCount (img + 256) (size - 256)), some r)
      else (s, some r)

end Sys2Proof.Machine
end

