-- ==== Sys2Proof/Machine/CfgCheck.lean ====
section
/-!
DEFINITION. Machine/CfgCheck.lean: the validation of configuration sets (R270, R354, R360): what makes a shadow fail, and
the value it is reported with.
-/

namespace Sys2Proof.Machine

/-- FP32 values as R270 bounds them. -/
def f32Finite (x : W32) : Bool := f32IsFinite x
def f32NonNeg (x : W32) : Bool := f32IsFinite x && !f32Lt x 0#32
def f32Unit (x : W32) (open' : Bool) : Bool := f32NonNeg x && (f32Lt x f32One || (!open' && Fp.eq (ofF32 x) Fp.one))

/-- Whether an entry of a rule table is legal (R270). -/
def ruleLegal (m : Mem) (g : Nat) : Bool :=
  let b := Tbl.getMany zeroByte m (64 * g) 64
  let r := ruleOf m g
  let f := fun (i : Nat) => Fmt.ofCode (bitsOf r.formats (4 * i + 3) (4 * i))
  let is := fun (x : Option Fmt) (p : Fmt → Bool) => match x with
    | some y => p y
    | none => false
  if !r.valid then b.all (fun x => x == 0#8)
  else
    decide (r.flags < 2048) && r.den != 3 && r.clip != 3 && decide (r.formats < 4096) && is (f 0) Fmt.isMaster &&
      is (f 1) Fmt.isMoment && is (f 2) Fmt.isMoment && f32Unit r.a1 r.bias && f32Finite r.b1 && f32Unit r.a2 r.bias &&
      f32NonNeg r.b2 && f32Finite r.p1 && f32Finite r.p2 && f32NonNeg r.eps && f32NonNeg r.eta && f32NonNeg r.lam &&
      f32Positive r.gscale.toNat && (if r.clip = 2 then f32Positive r.clipMax.toNat else r.clipMax == 0#32) &&
      (match Cvt.ofByte r.cvt with | some c => decide (1 ≤ c.fmt.code) && decide (c.fmt.code ≤ 10) | none => false) &&
      ((b.drop 0x31).take 7).all (fun x => x == 0#8) && !(r.bias && !r.s1 && !r.s2)

/-- Legal sources of a PLL (R372). -/
def pllSources (n : Nat) : List Nat :=
  match n with
  | 7 => [0]
  | 8 => [0, 2]
  | _ => [0, 1]

/-- The plans a check compares a set with (R360): any armed binding, and the active plan unless it is replaced or unbound
by the swap tick; with no tick (CFG_VALIDATE) the active plan always. -/
def State.plansFor (s : State) (tick : Option Nat) : List Bind :=
  let gone := match tick with
    | none => false
    | some t => (s.binding.armed.isSome && decide (s.binding.armedTick ≤ t)) ||
        (match s.binding.unbindAt with | some u => decide (u ≤ t) | none => false)
  s.binding.armed.toList ++ (if gone then [] else s.binding.active.toList)

/-- The job table in force at a swap tick (R360). -/
def State.jobFor (s : State) (tick : Option Nat) : Option JobTable :=
  let armed := s.binding.armed.isSome && (match tick with | none => true | some t => decide (s.binding.armedTick ≤ t))
  if armed then s.binding.armedJob
  else match s.binding.active with
    | some _ => s.binding.activeJob
    | none => s.binding.registered

/-- The first entry of the multicast map that names a list absent from a job table. -/
def State.mcastBad (s : State) (job : Option JobTable) : Option Nat :=
  findN 64 (fun i =>
    let e := s.reg (rHubMcastMap i)
    e / 65536 % 65536 != 0xFFFF && decide ((match job with | some j => j.lists.length | none => 0) ≤ e % 65536))

/-- The first of some register conditions that fails: r1 is the register's offset (R354). -/
def firstOff (l : List (Bool × Nat)) : Option Nat := (l.find? (fun x => !x.1)).map (fun x => x.2)

/-- The register a residency failure is reported for: those that a condition of R210 or R216 reads. -/
def residencyReg (s : State) (img : Nat) (r : Reply) : Nat :=
  let t := (s.sections img).find? (fun x => x.type == 3)
  match t with
  | none => rPciePoolShare
  | some t =>
    let i := (r.r0 - (t.base - img)) / 64
    let a := t.base + 64 * i
    let d := grainDie (s.ld 4 a)
    match r.code with
    | 0x12 =>
      let o := (r.r0 - (t.base - img)) % 64
      if o = 6 ∨ o = 0x18 then rYoyoProfileW0 d (s.ld 1 (a + 6) % 16)
      else match s.ld 1 (a + 5) with
        | 4 => rYoyoReplayCores d
        | 2 => rPciePoolShare
        | _ => rYoyoCodecMask d
    | _ => if s.ld 1 (a + 5) = 4 then rYoyoReplayCores d else if s.ld 1 (a + 5) = 2 then rPciePoolShare else rYoyoProfileW0 d (s.ld 1 (a + 6) % 16)

/-- Validation of the shadow of a set (R360): the r1 of its failure. `dead`: the clock sources that show no edge, one bit
each (R371). -/
def State.setBad (s : State) (tick : Option Nat) (dead set : Nat) : Option Nat :=
  let plans := s.plansFor tick
  match set with
  | 1 =>
    match findN 256 (fun g => !ruleLegal s.rules.shadow g) with
    | some g => some g
    | none =>
      let c := s.reg rHubVerdictCtrl
      let lo := signedOf 8 (bitsOf c 23 16)
      let hi := signedOf 8 (bitsOf c 31 24)
      let e := signedOf 8 (s.reg rHubVerdictScale)
      firstOff [(c % 65536 != 0 && decide (-126 ≤ lo) && decide (lo ≤ hi), rHubVerdictCtrl),
        (decide (lo ≤ e) && decide (e ≤ hi), rHubVerdictScale)]
  | 2 =>
    let p := s.tick.shPeriod
    firstOff [(decide (100 ≤ p) && decide (p ≤ 2000000) && plans.all (fun b => s.ld 4 (b.addr + 0x18) == p), 0x18),
      (plans.all (fun b => !bitOf (s.ld 2 (b.addr + 0x2A)) 0 || s.tick.shMode == .fabric), 0x10)]
  | 3 =>
    if 64 < s.reg rPciePoolShare then some rPciePoolShare
    else plans.findSome? (fun b => (s.residencyBad b.addr true).map (residencyReg s b.addr))
  | 4 =>
    match firstOff ((s.reg rHubFabricId == s.act rHubFabricId || (s.binding.active.isNone && s.binding.armed.isNone), rHubFabricId) ::
        (List.range 4).map (fun p => (bitsOf (s.reg (rFabCtrl p)) 2 1 != 3, rFabCtrl p))) with
    | some o => some o
    | none => (s.mcastBad (s.jobFor tick)).map rHubMcastMap
  | 5 =>
    let lo := bitsOf (s.reg rPwrRange) 12 0
    let hi := bitsOf (s.reg rPwrRange) 28 16
    let cap := bitsOf (s.reg rPwrCap) 12 0
    let l := s.reg rPwrRampCfg
    firstOff [(decide (1500 ≤ lo) && decide (lo ≤ hi) && decide (hi ≤ 3800), rPwrRange),
      (decide (lo ≤ cap) && decide (cap ≤ hi), rPwrCap),
      (l % 4 != 3 && plans.all (fun b => decide (rampLength l ≤ b.ramp)), rPwrRampCfg)]
  | 6 =>
    firstOff ((List.range 9).map (fun n =>
      let c := bitsOf (s.reg rClkSrc) (2 * n + 1) (2 * n)
      ((pllSources n).contains c && !bitOf dead c, rClkSrc)))
  | _ => none

/-- The first set of a mask whose validation fails: set and r1 (R354). -/
def State.setsBad (s : State) (tick : Option Nat) (dead mask : Nat) : Option (Nat × Nat) :=
  (List.range 7).findSome? (fun i => if bitOf mask i then (s.setBad tick dead i).map (fun r => (i, r)) else none)

end Sys2Proof.Machine
end

