-- ==== Sys2Proof/Machine/CmdPlan.lean ====
section
/-!
DEFINITION. Machine/CmdPlan.lean: the commands of groups 0x01 to 0x05 and 0x07 (R343 to R348, R351): plan and KV regions,
tick, residency and host pool, job tables, rule tables, telemetry.
-/

namespace Sys2Proof.Machine

/-! ## Shared parts -/

/-- An answer that changes nothing. -/
def State.deny (s : State) (a : Reply) : State × Reply := (s, a)

/-- The result of a check, else an effect. -/
def State.unless (s : State) (b : Bad) (k : State × Reply) : State × Reply :=
  match b with
  | some r => (s, r)
  | none => k

/-- The set's bit of HUB.CFG_STATUS and its HUB.CFG_TICK (R365): for set 0 the next plan-binding swap, the unbinding
first. -/
def State.showBinding (s : State) : State :=
  let b := s.binding
  let t := match b.unbindAt with
    | some u => u
    | none => if b.armed.isSome then b.armedTick else 0
  (s.setFlag rHubCfgStatus 0 (b.armed.isSome || b.unbindAt.isSome)).setReg (rHubCfgTick 0) t

/-- A set armed for a tick, or disarmed (R355, R365). -/
def State.armSet (s : State) (i tick : Nat) : State := (s.setFlag rHubCfgStatus i true).setReg (rHubCfgTick i) tick
def State.disarmSet (s : State) (i : Nat) : State := (s.setFlag rHubCfgStatus i false).setReg (rHubCfgTick i) 0

/-- The swap of an armed set has been observed: a disarming comes too late (R343, R364). A set that stays armed after a
deferral with no plan active may still be disarmed. -/
def State.tooLate (s : State) (i : Nat) : Bool := s.swapReady i && !bitOf s.binding.stay i

/-- Whether a tick is a boundary of a binding's steps (R39). -/
def Bind.boundary (b : Bind) (t : Nat) : Bool := decide (b.first ≤ t) && (b.period == 0 || (t - b.first) % b.period == 0)

/-- The next boundary after the tick in force. -/
def State.nextBoundary (s : State) (b : Bind) : Nat :=
  if s.now < b.first then b.first else b.first + ((s.now - b.first) / b.period + 1) * b.period

/-- A job table's own ID (R249). -/
def JobTable.ownId (j : JobTable) : Nat := j.field 6 2

/-! ## Plan commands (R343) -/

/-- PLAN_BIND: the checks before R51. -/
def State.bindBad (s : State) (img tick : Nat) : Bad :=
  let still := s.binding.unbindAt.isNone
  let fid := if s.shadowAt 4 tick then s.reg rHubFabricId else s.act rHubFabricId
  firstBad [mustElse 0x12 s.binding.armed.isNone 0,
    mustElse 0x12 (match s.binding.unbindAt with | some u => decide (u < tick) | none => true) 0,
    must (img % 4096 == 0) 0x10, must (decide (s.now < tick)) 0x18,
    must (match s.binding.active with | some b => !still || b.boundary tick | none => true) 0x18,
    mustElse 0x12 (match s.binding.registered with | some j => j.ownId == fid % 65536 | none => false) 0]

def bodyPlanBind : Body := fun _ c s =>
  c.guard 3 false s (
    match s.bindBad (c.p 0) (c.p 1) with
    | some r => (s, { r with r0 := if r.code = 0x11 then r.r0 else 0 })
    | none =>
      let job := s.binding.registered.getD {}
      let (t, bad) := s.checkPlan (c.p 0) (c.p 1) job
      match bad with
      | some r => (t, r)
      | none =>
        let b : Bind := { addr := c.p 0, planId := t.ld 8 (c.p 0 + 0x20), first := c.p 1, period := t.stepPeriod (c.p 0),
                          rngBase := c.p 2, ramp := t.ld 2 (c.p 0 + 0x28), job := job }
        (State.showBinding { t with binding := { t.binding with armed := some b, armedJob := some job, armedTick := c.p 1,
                                                                stay := putBits t.binding.stay 0 0 0 } }, {}))

def bodyPlanUnbind : Body := fun _ c s =>
  c.guard 1 false s (
    match s.binding.active with
    | none => (s, doneEmpty)
    | some b =>
      if s.binding.armed.isSome || s.binding.unbindAt.isSome then (s, badState)
      else
        let t := if c.p 0 = 0 then s.nextBoundary b else c.p 0
        if t ≤ s.now ∨ !b.boundary t then (s, badParam 0x10)
        else (State.showBinding { s with binding := { s.binding with unbindAt := some t } }, {}))

/-- PLAN_CANCEL disarms what is armed and whose tick has not been observed. -/
def bodyPlanCancel : Body := fun _ c s =>
  c.guard 0 false s (
    let un := s.binding.unbindAt.isSome && (!s.unbindReady || bitOf s.binding.stay 0)
    let arm := s.binding.armed.isSome && !s.tooLate 0
    if !un && !arm then (s, doneEmpty)
    else (State.showBinding { s with binding := { s.binding with
      armed := if arm then none else s.binding.armed, armedJob := if arm then none else s.binding.armedJob,
      armedTick := if arm then 0 else s.binding.armedTick, stay := putBits s.binding.stay 0 0 0, unbindAt := if un then none else s.binding.unbindAt } }, {}))

/-- PLAN_BIND (R343). -/
def execPlanBind (ring : Nat) (hold : Bool) (s : State) : Answer := answerSysNoMem s (s.command ring 0x0101 hold bodyPlanBind)
/-- PLAN_UNBIND (R343). -/
def execPlanUnbind (ring : Nat) (hold : Bool) (s : State) : Answer := answerSysNoMem s (s.command ring 0x0102 hold bodyPlanUnbind)
/-- PLAN_CANCEL (R343). -/
def execPlanCancel (ring : Nat) (hold : Bool) (s : State) : Answer := answerSysNoMem s (s.command ring 0x0103 hold bodyPlanCancel)

/-! ## KV regions (R157 to R159, R164) -/

def bodyKvTableSet : Body := fun _ c s =>
  c.guard 1 false s (
    if s.kv.any (fun x => x.2.present) then (s, badState)
    else if c.p 0 % 64 ≠ 0 ∨ !inStack (c.p 0) (16384 * 64) then (s, badParam 0x10)
    else ({ s with kvTable := some (c.p 0), kv := [] }, {}))

/-- Reserved fields of a region descriptor (R157, R341). -/
def kvReserved (bs : List Byte) : Bad :=
  firstBad [must (decide (fieldAt bs 6 1 < 8)) 0x46, must (fieldAt bs 0xF 1 == 0) 0x4F, must (fieldAt bs 0x36 2 == 0) 0x76]

/-- Legal values of a region descriptor (R157, R159), its reserved fields first; offsets are those of the payload in the
command. -/
def kvDescBad (bs : List Byte) : Bad :=
  let f := fun o n => fieldAt bs o n
  let k := kvDescOf bs
  let frame := bitOf k.flags 0
  let d3 := bitOf k.flags 2
  let fmt := fun (x : Nat) => match Fmt.ofCode x with
    | some g => g.isKv
    | none => false
  let tau := fun (code v : Nat) => if code = 11 then tauOk true (v % 256) && v / 256 == 0 else v == 0
  let groups := ceilDiv k.sinks k.tpf + ceilDiv k.recent k.tpf + 1
  firstBad [kvReserved bs, must (k.base % 64 == 0) 0x40, must ([2, 3, 4, 6, 8].contains (f 7 1)) 0x47,
    must (decide (1 ≤ k.capacity) && decide (k.capacity ≤ 1048576) && (!frame || k.tpf == 0 || k.capacity % k.tpf == 0)) 0x48,
    must (decide (1 ≤ k.heads) && decide (k.heads ≤ 1024)) 0x4C, must (fmt k.kFmt && fmt k.vFmt) 0x4E,
    must (decide (k.sinks ≤ k.capacity)) 0x50, must (decide (k.recent ≤ k.capacity)) 0x54,
    must (decide (1 ≤ k.tpf) && decide (k.tpf ≤ 1048576)) 0x58, must (k.width != 0) 0x5C,
    must (if d3 then decide (2 * (k.split % 256) + 2 * (k.split / 256) ≤ k.d) else k.split == 0) 0x5E,
    must (f32Lt f32One k.ropeBase) 0x60, must (f32Unit k.decay false) 0x64,
    must (tau k.kFmt (f 0x28 4)) 0x68, must (tau k.vFmt (f 0x2C 4)) 0x6C,
    must (decide (k.sinks + k.recent < k.capacity)) 0x48,
    must (!frame || decide (k.tpf * groups ≤ k.capacity)) 0x48]

/-- slot_bytes (R158). -/
def KvDesc.slotSize (k : KvDesc) : Nat :=
  let h := fun (c : Nat) => headBytes ((Fmt.ofCode c).getD .bf16) k.d
  alignUp (16 + k.heads * (h k.kFmt + h k.vFmt)) 64

def bodyKvCreate : Body := fun _ c s =>
  c.guard 1 true s (s.unless (kvReserved c.payload) (
    match s.kvTable with
    | none => (s, noResource)
    | some table =>
      let i := c.p 0
      if 16384 ≤ i then (s, badParam 0x10)
      else if (s.kvUse i).present then (s, badState)
      else if c.len ≠ 64 then (s, badParam 8)
      else s.unless (kvDescBad c.payload) (
        let k := kvDescOf c.payload
        let n := k.slotSize
        if !inStack k.base (n * k.capacity + 16 * ceilDiv k.capacity 128) then (s, badParam 0x40)
        else
          let s := s.store none (table + 64 * i) (c.payload.take 0x38 ++ leBytes 4 n ++ leBytes 4 0)
          let s := forN k.capacity s (fun j t => t.store none (k.base + j * n + 8) [BitVec.ofNat 8 (t.ld 1 (k.base + j * n + 8) / 2 * 2)])
          (s.setKv i { present := true }, { r0 := n }))))

def bodyKvDestroy : Body := fun _ c s =>
  c.guard 1 false s (
    let u := s.kvUse (c.p 0)
    if !s.kvExists (c.p 0) then (s, doneEmpty)
    else if u.lock.isSome || !u.waiters.isEmpty || !u.readers.isEmpty then (s, badState)
    else (s.setKv (c.p 0) {}, {}))

/-- KV_TABLE_SET (R343). -/
def execKvTableSet (ring : Nat) (hold : Bool) (s : State) : Answer := answerSysNoMem s (s.command ring 0x0110 hold bodyKvTableSet)
/-- KV_CREATE (R157, R159, R343). -/
def execKvCreate (ring : Nat) (hold : Bool) (s : State) : Answer := answer s (s.command ring 0x0111 hold bodyKvCreate)
/-- KV_DESTROY (R164, R343). -/
def execKvDestroy (ring : Nat) (hold : Bool) (s : State) : Answer := answerNoMem s (s.command ring 0x0112 hold bodyKvDestroy)

/-! ## Tick (R344) -/

def bodyTickCfg : Body := fun _ c s =>
  c.guard 2 false s (
    if 2 ≤ c.p 0 then (s, badParam 0x10)
    else if s.setArmed 2 then (s, badState)
    else if c.p 1 < 100 ∨ 2000000 < c.p 1 then (s, badParam 0x18)
    else ({ s with tick := { s.tick with shMode := if c.p 0 = 1 then .fabric else .local, shPeriod := c.p 1 } }, {}))

/-- TICK_CFG (R344). -/
def execTickCfg (ring : Nat) (hold : Bool) (s : State) : Answer := answerSysNoMem s (s.command ring 0x0201 hold bodyTickCfg)

/-! ## Residency and host pool (R345, R192, R200) -/

def bodyYoyoTableSet : Body := fun _ c s =>
  c.guard 2 false s (
    if s.binding.active.isSome || s.binding.armed.isSome then (s, badState)
    else if 2 ≤ c.p 0 then (s, badParam 0x10)
    else if c.p 1 % 2 ^ 24 ≠ 0 ∨ !inHalf (c.p 0) (c.p 1) (2 ^ 24) then (s, badParam 0x18)
    else (s.modYoyo (c.p 0) (fun y => { y with table := some (c.p 1) }), {}))

def mib2 : Nat := 0x200000

def bodyPoolAdd : Body := fun _ c s =>
  c.guard 3 false s (
    let o := c.p 0
    let n := c.p 2
    let xs := s.host.extents
    if o % mib2 ≠ 0 ∨ poolEnd - poolBase ≤ o then (s, badParam 0x10)
    else if c.p 1 % mib2 ≠ 0 then (s, badParam 0x18)
    else if n % mib2 ≠ 0 ∨ n = 0 ∨ poolEnd - poolBase < o + n then (s, badParam 0x20)
    else if xs.any (fun x => meets o n x.offset x.bytes) then (s, badParam 0x10)
    else if 4096 ≤ xs.length ∨ poolEnd - poolBase < (xs.map (fun x => x.bytes)).sum + n then (s, noResource)
    else
      let num := (findN 4096 (fun i => !xs.any (fun x => x.num == i))).getD 0
      ({ s with host := { s.host with extents := xs ++ [{ offset := o, host := c.p 1, bytes := n, num := num }] } }, { r0 := num }))

/-- Whether an extent holds a stored form or part of a transfer (R200). -/
def State.extentUsed (s : State) (x : Extent) : Bool :=
  (s.yoyos).any (fun y => y.grains.any (fun e =>
    let g := e.2
    let f := s.xferOf e.1
    let n := match f with
      | some t => capAt (2 ^ 27) (if t.total < g.fillBytes then g.fillBytes else t.total)
      | none => g.stored
    (g.state == 3 || g.state == 4 || (match f with | some t => t.host | none => false)) &&
      meets (g.storeAddr - poolBase) n x.offset x.bytes))

/-- A removal would break a validation passed for an armed binding or residency set (R361). -/
def State.poolNeeded (s : State) : Bool :=
  (s.binding.armed.isSome || s.setArmed 3) &&
    (s.binding.armed.toList ++ (if s.setArmed 3 then s.binding.active.toList else [])).any
      (fun b => (s.residencyBad b.addr (s.setArmed 3)).isSome)

def bodyPoolRemove : Body := fun _ c s =>
  c.guard 1 false s (
    match s.host.extents.find? (fun x => x.offset == c.p 0) with
    | none => (s, badParam 0x10)
    | some x =>
      let t := { s with host := { s.host with extents := s.host.extents.filter (fun y => y.offset != c.p 0) } }
      if s.extentUsed x || t.poolNeeded then (s, badState) else (t, {}))

/-- Put records into memory, one after another. -/
def State.writeAll (s : State) (a : Nat) (bs : List Byte) : State := s.store none a bs

def bodyPoolList : Body := fun _ c s =>
  c.guard 1 false s (
    let xs := s.host.extents.mergeSort (fun a b => decide (a.num ≤ b.num))
    if c.p 0 % 16 ≠ 0 ∨ !inMem (c.p 0) (16 * xs.length) then (s, badParam 0x10)
    else (s.writeAll (c.p 0) (xs.flatMap (fun x => leBytes 8 x.offset ++ leBytes 8 x.host)), { r0 := xs.length }))

/-- YOYO_TABLE_SET (R192, R345). -/
def execYoyoTableSet (ring : Nat) (hold : Bool) (s : State) : Answer := answerNoMem s (s.command ring 0x0301 hold bodyYoyoTableSet)
/-- POOL_ADD (R200, R345). -/
def execPoolAdd (ring : Nat) (hold : Bool) (s : State) : Answer := answerNoMem s (s.command ring 0x0310 hold bodyPoolAdd)
/-- POOL_REMOVE (R200, R345, R361). -/
def execPoolRemove (ring : Nat) (hold : Bool) (s : State) : Answer := answerNoMem s (s.command ring 0x0311 hold bodyPoolRemove)
/-- POOL_LIST (R345). -/
def execPoolList (ring : Nat) (hold : Bool) (s : State) : Answer := answer s (s.command ring 0x0312 hold bodyPoolList)

/-! ## Job tables and the owner map (R249, R286, R346, R347) -/

/-- Entry `i` of a job table's directory: a list's address, its length, and whether the reserved bytes are zero. -/
def State.jobDir (s : State) (dir i : Nat) : Nat × Nat × Bool :=
  (s.ld 8 (dir + 16 * i), s.ld 4 (dir + 16 * i + 8), s.ld 4 (dir + 16 * i + 12) == 0)

/-- A list of module IDs. -/
def State.jobIds (s : State) (a n : Nat) : List Nat := (List.range n).map (fun i => s.ld 2 (a + 2 * i))

/-- R249 and R286 on the table at an address, with R290 on the standby list it names (log 72). -/
def State.jobBad (s : State) (a : Nat) : Bad :=
  let f := fun o n => s.ld n (a + o)
  let n := f 0x1C 4
  let none' := f 0x2A 2 == 0xFFFF
  if !inStack a 64 then some (badParam 0x10)
  else firstBad [must (f 0 4 == 0x544A4E48) 0, must (f 4 2 == 1) 4, must (f 6 2 != 0xFFFF) 6, must (f 0x18 2 != 0xFFFF) 0x18,
    s.zeros (a + 0x1A) 2 0x1A, must (decide (1 ≤ n) && decide (n ≤ 65536)) 0x1C,
    must (f 0x20 8 % 16 == 0 && inStack (f 0x20 8) (16 * n)) 0x20,
    badIn (List.range n) (fun i =>
      let e := s.jobDir (f 0x20 8) i
      must (inStack e.1 (2 * e.2.1) && decide (1 ≤ e.2.1) && decide (e.2.1 ≤ 65535) && e.2.2) 0x20),
    badIn (List.range n) (fun i =>
      let e := s.jobDir (f 0x20 8) i
      let ids := s.jobIds e.1 e.2.1
      must (!ids.contains 0xFFFF && ids.eraseDups.length == ids.length) 0x20),
    must (decide (f 0x2C 2 < n)) 0x2C, must (decide (f 0x2E 2 ≤ 1)) 0x2E,
    must (if none' then f 0x30 6 == 0 else f 0x30 6 % 4096 == 0 && inStack (f 0x30 6) 4096) 0x30, s.zeros (a + 0x36) 2 0x36,
    must (if none' then f 0x38 6 == 0 else f 0x38 6 % 16 == 0 && s.standbyOk (f 0x38 6)) 0x38, s.zeros (a + 0x3E) 2 0x3E]

def bodyJobTableSet : Body := fun _ c s =>
  c.guard 1 false s (
    let a := c.p 0
    if inStack a 64 && s.badRange a 64 then (s.memBad, badParam 0x10)
    else s.unless (s.jobBad a) (
      let dir := s.ld 8 (a + 0x20)
      let n := s.ld 4 (a + 0x1C)
      let lens := (List.range n).map (fun i => (s.jobDir dir i).2.1)
      if s.ld 2 (a + 6) ≠ s.act rHubFabricId % 65536 then (s, badParam 6)
      else if 4194304 < lens.sum then (s, noResource)
      else
        let j : JobTable := { bytes := s.peek a 64, lists := (List.range n).map (fun i =>
          let e := s.jobDir dir i
          s.jobIds e.1 e.2.1) }
        let t := { s with binding := { s.binding with registered := some j } }
        let at' := some (s.swapTick 4)
        if s.setArmed 4 && (s.mcastBad (s.jobFor at')).isNone && (t.mcastBad (t.jobFor at')).isSome then (s, badState)
        else (t, {})))

def bodyOwnerMapRead : Body := fun _ c s =>
  c.guard 1 false s (
    let m := s.snap.ownerMap
    if !inMem (c.p 0) (4 * m.length) then (s, badParam 0x10)
    else (s.writeAll (c.p 0) (m.flatMap (fun x => leBytes 2 x.1 ++ leBytes 2 x.2)), { r0 := m.length }))

/-- JOB_TABLE_SET (R346, R361). -/
def execJobTableSet (ring : Nat) (hold : Bool) (s : State) : Answer := answerSysNoMem s (s.command ring 0x0401 hold bodyJobTableSet)
/-- OWNER_MAP_READ (R347). -/
def execOwnerMapRead (ring : Nat) (hold : Bool) (s : State) : Answer := answer s (s.command ring 0x0402 hold bodyOwnerMapRead)

/-! ## Rule tables (R348) -/

def bodyRuleWrite : Body := fun _ c s =>
  c.guard 2 true s (
    if 255 < c.p 0 then (s, badParam 0x10)
    else if c.p 1 = 0 ∨ 63 < c.p 1 then (s, badParam 0x18)
    else if c.len ≠ 64 * c.p 1 then (s, badParam 8)
    else if 256 < c.p 0 + c.p 1 then (s, badParam 0x18)
    else if s.setArmed 1 then (s, badState)
    else ({ s with rules := { s.rules with shadow := Tbl.setMany zeroByte s.rules.shadow (64 * c.p 0) c.payload } }, {}))

def bodyRuleRead : Body := fun _ c s =>
  c.guard 2 false s (
    if 2 < c.p 0 then (s, badParam 0x10)
    else if c.p 1 % 64 ≠ 0 ∨ !inMem (c.p 1) 16384 then (s, badParam 0x18)
    else
      let m := match c.p 0 with
        | 0 => s.rules.active
        | 1 => s.rules.shadow
        | _ => s.rules.prior
      (s.writeAll (c.p 1) (Tbl.getMany zeroByte m 0 16384), {}))

def bodyRuleCopy : Body := fun _ c s =>
  c.guard 0 false s (
    if s.setArmed 1 then (s, badState) else ({ s with rules := { s.rules with shadow := s.rules.active } }, {}))

/-- RULE_WRITE (R348). -/
def execRuleWrite (ring : Nat) (hold : Bool) (s : State) : Answer := answerSysNoMem s (s.command ring 0x0501 hold bodyRuleWrite)
/-- RULE_READ (R348). -/
def execRuleRead (ring : Nat) (hold : Bool) (s : State) : Answer := answer s (s.command ring 0x0502 hold bodyRuleRead)
/-- RULE_COPY (R348). -/
def execRuleCopy (ring : Nat) (hold : Bool) (s : State) : Answer := answerSysNoMem s (s.command ring 0x0503 hold bodyRuleCopy)

/-! ## Telemetry (R351, R418, R422, R423) -/

def bodyTelRingSet : Body := fun _ c s =>
  c.guard 2 false s (
    if c.p 0 % mib2 ≠ 0 ∨ !inStack (c.p 0) 64 then (s, badParam 0x10)
    else if c.p 1 % mib2 ≠ 0 ∨ c.p 1 < 0x4000000 ∨ 0x100000000 < c.p 1 ∨ !inStack (c.p 0) (c.p 1) then (s, badParam 0x18)
    else
      let s := (s.setReg rTelRingBase (c.p 0)).setReg rTelRingBytes (c.p 1)
      ((s.setReg rTelWriteIndex 0).setReg rTelReadIndex 0, {}))

/-- Bits of the masks that name a class or a kind (R417, R422). -/
def traceBits : Nat := 0x07FFFFFE
def logBits : Nat := 0x8000000F

def bodyTelSelect : Body := fun _ c s =>
  c.guard 2 false s (
    if c.p 0 &&& traceBits ≠ c.p 0 then (s, badParam 0x10)
    else if c.p 1 &&& logBits ≠ c.p 1 then (s, badParam 0x18)
    else ({ s with tel := { s.tel with traceSel := c.p 0, logSel := c.p 1 } }, {}))

def bodyTelAlarmClear : Body := fun _ c s =>
  c.guard 1 false s (
    let x := s.src (c.p 0)
    if x.codes = 0#64 then (s, doneEmpty)
    else ((s.modSrc (c.p 0) (fun y => { y with codes := 0#64 })).emit (c.p 0) 1 2 0 (alarmBody x x.codes), {}))

/-- TEL_RING_SET (R351, R418). -/
def execTelRingSet (ring : Nat) (hold : Bool) (s : State) : Answer := answerNoMem s (s.command ring 0x0701 hold bodyTelRingSet)
/-- TEL_SELECT (R351, R422). -/
def execTelSelect (ring : Nat) (hold : Bool) (s : State) : Answer := answerNoMem s (s.command ring 0x0702 hold bodyTelSelect)
/-- TEL_ALARM_CLEAR (R351, R423). -/
def execTelAlarmClear (ring : Nat) (hold : Bool) (s : State) : Answer := answer s (s.command ring 0x0703 hold bodyTelAlarmClear)

end Sys2Proof.Machine
end

