-- ==== Sys2Proof/Machine/CmdSnap.lean ====
section
/-!
DEFINITION. Machine/CmdSnap.lean: the commands of group 0x06 (R291, R293, R297, R298, R301, R349, R350): snapshots, restore,
exports and promotion.
-/

namespace Sys2Proof.Machine

/-! ## Parts that several commands share -/

/-- Region `i` of a list of 16-byte descriptors at a payload offset (R293). -/
def Cmd.region (c : Cmd) (o i : Nat) : Region := { base := c.pay (o + 16 * i) 6, bytes := c.pay (o + 16 * i + 8) 8 }
def Cmd.regions (c : Cmd) (o n : Nat) : List Region := (List.range n).map (fun i => c.region o i)

/-- The reserved bytes of a list of regions, which are checked before anything else (R341). -/
def Cmd.regionsDirty (c : Cmd) (o n : Nat) : Bad :=
  badIn (List.range n) (fun i => must (!c.dirty (o + 16 * i + 6) 2) (0x40 + o + 16 * i + 6))

/-- The rules of R293 for a list of regions and its staging area; offsets are those of the command. -/
def Cmd.regionsBad (c : Cmd) (o n staging size : Nat) : Bad :=
  let rs := c.regions o n
  badIn (List.range n) (fun i =>
    let r := c.region o i
    let at' := 0x40 + o + 16 * i
    firstBad [must (r.base % 4096 == 0 && inStack r.base r.bytes) at',
      must (r.bytes % 4096 == 0) (at' + 8), must (!meets r.base r.bytes staging size) at',
      must (!(rs.take i).any (fun x => meets r.base r.bytes x.base x.bytes)) at'])

def Cmd.snapCfg (c : Cmd) : SnapCfg :=
  { enable := bitOf (c.pay 0 1) 0, discard := bitOf (c.pay 0 1) 1, k := c.pay 2 2, phase := c.pay 4 2, n := c.pay 6 1,
    slotBytes := c.pay 8 8, stagingBase := c.pay 0x10 8, stagingBytes := c.pay 0x18 8,
    regions := c.regions 0x30 (c.pay 7 1), cursorAddr := c.pay 0x20 8, cursorLen := c.pay 0x28 4 }

/-- Bytes of a generation (R293). -/
def SnapCfg.size (x : SnapCfg) : Nat := alignUp (4096 + 65536 + (x.regions.map (fun r => r.bytes)).sum + x.cursorLen) 4096

def flashBlock : Nat := 0x4000000

/-- The rules of R293 and R349. -/
def Cmd.snapBad (c : Cmd) : Bad :=
  let x := c.snapCfg
  let n := c.pay 7 1
  firstBad [must (c.len == 48 + 16 * n) 8, must (decide (c.pay 0 1 < 4)) 0x40, must (!c.dirty 1 1) 0x41,
    must (!c.dirty 0x2C 4) 0x6C, c.regionsDirty 0x30 n, must (x.k != 0) 0x42, must (decide (x.phase < x.k)) 0x44, must (decide (2 ≤ x.n)) 0x46,
    must (decide (1 ≤ n) && decide (n ≤ 64)) 0x47,
    must (x.slotBytes % flashBlock == 0 && decide (x.n * x.slotBytes ≤ slotBlocks * flashBlock)) 0x48,
    must (x.stagingBase % 4096 == 0 && inStack x.stagingBase x.stagingBytes) 0x50, must (x.stagingBytes % 4096 == 0) 0x58,
    must (decide (x.cursorLen ≤ 0x100000)) 0x68, c.regionsBad 0x30 n x.stagingBase x.stagingBytes,
    must (decide (x.size ≤ x.slotBytes)) 0x48, must (decide (x.size ≤ x.stagingBytes)) 0x58]

/-- The key that verifies this module's own generations (R297). -/
def State.identityPub (s : State) : List Byte := ecdsaPublic s.nvm.idKey

/-- A commit record with the right magic and version whose signature verifies (R296, R297). -/
def recordValid (pub rec : List Byte) : Bool :=
  rec.length == 256 && fieldAt rec 0 4 == 0x43474E48 && fieldAt rec 4 2 == 1 &&
    ecdsaVerify pub (sha256 (rec.take 0xC0)) (rec.drop 0xC0)

/-- The digest of the record matches the bytes read (R297). -/
def digestMatches (rec bytes : List Byte) : Bool :=
  bytes.length == fieldAt rec 0x38 8 && sha256 bytes == (rec.drop 0x50).take 32

/-- A valid generation (R297). -/
def State.genValid (s : State) (g : Gen) : Bool := recordValid s.identityPub g.commit && digestMatches g.commit g.bytes

/-- The valid generations, oldest first. -/
def State.validGens (s : State) : List Gen :=
  if bitOf (s.reg rPwrRailOff) 14 then []
  else (s.snap.gens.filter s.genValid).mergeSort (fun a b => decide (a.gen ≤ b.gen))

/-! ## Configuration and requests -/

def bodySnapCfg : Body := fun _ c s =>
  c.guard 0 true s (
    s.unless c.snapBad (
      let s := s.takeSnapCfg
      let x := c.snapCfg
      let o := s.snap.cfg
      if (x.n ≠ o.n ∨ x.slotBytes ≠ o.slotBytes) ∧ !s.validGens.isEmpty ∧ !x.discard then (s, badState)
      else
        let t := match s.binding.active with
          | some b => s.nextBoundary b
          | none => s.now
        (State.takeSnapCfg { s with snap := { s.snap with cfgNext := some (t, x) } }, {})))

def bodySnapNow : Body := fun _ c s =>
  c.guard 0 false s (
    if !s.snap.cfgGiven && s.snap.cfgNext.isNone then (s, badState)
    else if s.snap.now.isSome then (s, doneEmpty)
    else ({ s with snap := { s.snap with now := some s.now } }, {}))

/-! ## Restore (R301) -/

/-- What a restore reads: the record, the generation's bytes, and the key that must verify the record. -/
structure RestoreSrc where
  record : List Byte := []
  bytes : List Byte := []
  pub : List Byte := []

/-- The source: a flash generation by number, or the newest valid one; or an image in host memory, the generation's bytes
in flash order followed by its commit record (log 58). -/
def State.restoreSrc (s : State) (c : Cmd) : RestoreSrc :=
  if c.p 1 ≠ 0 then
    let n := c.p 2
    if n < 256 then {}
    else { record := s.hostPeek (c.p 1 + n - 256) 256, bytes := s.hostPeek (c.p 1) (n - 256), pub := c.payload }
  else
    let g := if bitOf (s.reg rPwrRailOff) 14 then none else if c.p 0 = 0 then s.validGens.getLast? else s.snap.gens.find? (fun g => g.gen == c.p 0)
    match g with
    | some g => { record := g.commit, bytes := g.bytes, pub := s.identityPub }
    | none => {}

/-- The regions the manifest of a generation names, with where each one's bytes begin (log 51, R295). -/
def RestoreSrc.places (x : RestoreSrc) : List (Region × Nat) :=
  let n := fieldAt x.record 0x42 2
  let rs := (List.range n).map (fun i =>
    ({ base := fieldAt x.bytes (16 + 16 * i) 8, bytes := fieldAt x.bytes (24 + 16 * i) 8 } : Region))
  (rs.foldl (fun (a : List (Region × Nat) × Nat) r => (a.1 ++ [(r, a.2)], a.2 + r.bytes)) ([], 4096 + 65536)).1

/-- The module state block's bytes of a generation (R294). -/
def RestoreSrc.state (x : RestoreSrc) (o n : Nat) : List Byte := (x.bytes.drop (4096 + o)).take n

/-- The module state goes back (R301): rule tables, update status, verdict settings, and the verdict state of a
coordinator. -/
def State.restoreState (s : State) (x : RestoreSrc) : State :=
  let table := fun o => Tbl.setMany zeroByte [] 0 (x.state o 16384)
  let s := { s with rules := { active := table 0, shadow := table 16384, prior := table 32768 } }
  let f := fun o n => leNat (x.state o n)
  let s := s.setReg rHubUpdStatus (f 49160 4)
  let s := ((s.setReg (rHubVerdictCtrl + 0x8000) (f 49216 4)).setReg (rHubVerdictScale + 0x8000) (f 49220 4)).setReg
    (rHubGlobalClip + 0x8000) (f 49224 4)
  match s.binding.registered with
  | some j => if j.field 0x18 2 = j.ownId then s.adoptVerdict (x.state 49168 40) else s
  | none => s

/-- STALE, PENDING and DEPOSED are cleared and HUB.UPD_T takes the record's t (R301). -/
def State.restoreMarks (s : State) (x : RestoreSrc) : State :=
  (((s.setFlag rHubUpdStatus updStale false).setFlag rHubUpdStatus updPending false).setFlag rSnapStatus snapDeposed
    false).setReg rHubUpdT (fieldAt x.record 0x20 8)

/-- Every region is written: with its bytes, or with bytes the spec leaves open (site 18). -/
def State.restoreRegions (s : State) (x : RestoreSrc) (ok : Bool) : State :=
  x.places.foldl (fun (t : State) p =>
    if ok then t.store none p.1.base ((x.bytes.drop p.2).take p.1.bytes)
    else
      let (t, k) := t.draw 18
      t.store none p.1.base ((List.range p.1.bytes).map (fun i => BitVec.ofNat 8 (Config.freeValue 18 (k + i)).toNat))) s

def bodySnapRestore : Body := fun _ c s =>
  c.guard 3 (c.p 1 != 0) s (
    if c.p 1 ≠ 0 ∧ c.len ≠ 64 then (s, badParam 8)
    else
      let bound := s.binding.active.isSome
      if (bound ∧ !s.updBit updStale) ∨ (!bound ∧ s.setArmed 1) then (s, badState)
      else
        let s := s.takeSnapCfg
        let x := s.restoreSrc c
        let s := if c.p 1 ≠ 0 then s.rx (c.p 2) else s
        if !recordValid x.pub x.record ∨ x.bytes.length < fieldAt x.record 0x38 8 then (s, deniedSig)
        else match s.binding.registered with
          | none => (s, badState)
          | some j =>
            let ok := digestMatches x.record x.bytes
            if fieldAt x.record 8 8 ≠ j.field 8 8 ∨ leNat (x.state 49240 8) ≠ j.field 0x10 8 then (s, badState)
            else match (indexed x.places).find? (fun p => !inStack p.2.1.base p.2.1.bytes) with
              | some p => (s, badParam (16 + 16 * p.1))
              | none =>
                let s := s.restoreRegions x ok
                if !ok then (s.setFlag rHubUpdStatus updStale true, deniedSig)
                else
                  let s := if bound then s else s.restoreState x
                  let g := fieldAt x.record 0x10 8
                  (s.restoreMarks x, { r0 := g % 2 ^ 32, r1 := g / 2 ^ 32, r2 := fieldAt x.record 0x18 4 }))

/-! ## Exports and windows (R298, R350) -/

/-- Bytes of the planes a region becomes. -/
def planeBytes (f : Fmt) (r : Region) : Nat :=
  let n := r.bytes / ((regionFmt r).elemBits / 8)
  ceilDiv (n * f.elemBits) 8 + (if f.scaled then ceilDiv n f.block * f.scaleBytes else 0)

/-- The legal values of R298; offsets are those of the command. -/
def State.exportBad (s : State) (c : Cmd) : Bad :=
  let n := c.pay 0x30 8
  let rs := c.regions 0x38 n
  let cv := Cvt.ofByte (c.pay 0 1)
  let fabric := c.pay 8 8 == 1
  firstBad [must (decide (1 ≤ n) && decide (n ≤ 64)) 0x70,
    must (c.len == 0x38 + 16 * n) 8,
    must (match cv with | some k => !k.sr && k.fmt != .q8m | none => false) 0x40,
    must (match cv with | some k => k.fmt != .hb4 || tauOk true (c.pay 4 1) | none => true) 0x44,
    must (decide (c.pay 8 8 ≤ 1)) 0x48, must (!fabric || decide (c.pay 0x10 8 < 0xFFFF)) 0x50,
    must (if fabric then decide (c.pay 0x18 8 ≤ 15) else match cv with
      | some k => decide (256 + (rs.map (planeBytes k.fmt)).sum ≤ c.pay 0x18 8)
      | none => true) 0x58,
    must (c.pay 0x20 8 % 4096 == 0 && inStack (c.pay 0x20 8) (c.pay 0x28 8)) 0x60, must (c.pay 0x28 8 % 4096 == 0) 0x68,
    c.regionsBad 0x38 n (c.pay 0x20 8) (c.pay 0x28 8),
    must (decide ((rs.map (fun r => r.bytes)).sum ≤ c.pay 0x28 8)) 0x68,
    must (c.p 0 == 0 || (decide (s.now < c.p 0) && (match s.binding.active with
      | some b => b.boundary (c.p 0)
      | none => true))) 0x10]

def bodySnapExport : Body := fun _ c s =>
  c.guard 1 true s (
    s.unless (firstBad [must (!c.dirty 1 3) 0x41, must (!c.dirty 5 3) 0x45, c.regionsDirty 0x38 (c.pay 0x30 8 % 65)]) (
    if s.snap.shipping.isSome then (s, badState)
    else s.unless (s.exportBad c) (
      let t := if c.p 0 ≠ 0 then c.p 0 else match s.binding.active with
        | some b => s.nextBoundary b
        | none => 0
      let x : ExportJob :=
        { regions := c.regions 0x38 (c.pay 0x30 8), cvt := c.pay 0 1, tau := signedOf 8 (c.pay 4 1), fabric := c.pay 8 8 == 1,
          dst := c.pay 0x10 8, limit := c.pay 0x18 8, stagingBase := c.pay 0x20 8, stagingBytes := c.pay 0x28 8, atTick := t }
      ({ s with snap := { s.snap with shipping := some x } }, {}))))

def bodyWindowOpen : Body := fun _ c s =>
  c.guard 4 false s (
    if s.snap.windows.any (fun w => w.window == c.p 0) then (s, badState)
    else s.unless (firstBad [must (decide (c.p 0 ≤ 15)) 0x10, must (decide (c.p 1 < 0xFFFF)) 0x18,
        must (c.p 2 % 64 == 0 && inStack (c.p 2) 1) 0x20, must (inStack (c.p 2) (c.p 3)) 0x28]) (
      let w : ExportWin := { window := c.p 0, source := c.p 1, base := c.p 2, bytes := c.p 3 }
      ({ s with snap := { s.snap with windows := s.snap.windows ++ [w] } }, {})))

def bodyWindowClose : Body := fun _ c s =>
  c.guard 1 false s (
    if !s.snap.windows.any (fun w => w.window == c.p 0) then (s, doneEmpty)
    else ({ s with snap := { s.snap with windows := s.snap.windows.filter (fun w => w.window != c.p 0) } }, {}))

/-! ## Promotion and the list of generations -/

def bodyMirrorPromote : Body := fun _ c s =>
  c.guard 0 false s (
    if !s.mayPromote then (s, badState)
    else match s.binding.active with
      | some b => ({ s with snap := { s.snap with promoteAt := some (s.nextBoundary b) } }, {})
      | none => (s.promote, {}))

def bodyGenList : Body := fun _ c s =>
  c.guard 1 false s (
    let s := s.takeSnapCfg
    let gs := s.validGens
    if c.p 0 % 64 ≠ 0 ∨ !inMem (c.p 0) (256 * gs.length) then (s, badParam 0x10)
    else (s.writeAll (c.p 0) (gs.flatMap (fun g => g.commit)), { r0 := gs.length }))

/-- SNAP_CFG (R293, R349, R350). -/
def execSnapCfg (ring : Nat) (hold : Bool) (s : State) : Answer := answerNoMem s (s.command ring 0x0601 hold bodySnapCfg)
/-- SNAP_NOW (R350). -/
def execSnapNow (ring : Nat) (hold : Bool) (s : State) : Answer := answerNoMem s (s.command ring 0x0602 hold bodySnapNow)
/-- SNAP_RESTORE (R301, R350). -/
def execSnapRestore (ring : Nat) (hold : Bool) (s : State) : Answer := answerSys s (s.command ring 0x0603 hold bodySnapRestore)
/-- SNAP_EXPORT (R298, R350). -/
def execSnapExport (ring : Nat) (hold : Bool) (s : State) : Answer := answerNoMem s (s.command ring 0x0604 hold bodySnapExport)
/-- EXPORT_WINDOW_OPEN (R298, R350). -/
def execExportWindowOpen (ring : Nat) (hold : Bool) (s : State) : Answer := answerNoMem s (s.command ring 0x0605 hold bodyWindowOpen)
/-- EXPORT_WINDOW_CLOSE (R350). -/
def execExportWindowClose (ring : Nat) (hold : Bool) (s : State) : Answer := answerNoMem s (s.command ring 0x0606 hold bodyWindowClose)
/-- MIRROR_PROMOTE (R291, R350). -/
def execMirrorPromote (ring : Nat) (hold : Bool) (s : State) : Answer := answerSysNoMem s (s.command ring 0x0607 hold bodyMirrorPromote)
/-- GEN_LIST (R350). -/
def execGenList (ring : Nat) (hold : Bool) (s : State) : Answer := answer s (s.command ring 0x0608 hold bodyGenList)

end Sys2Proof.Machine
end

