-- ==== Sys2Proof/Machine/CmdMaint.lean ====
section
/-!
DEFINITION. Machine/CmdMaint.lean: the maintenance commands of group 0x08 and what follows from them (R78, R86, R352,
R366 to R369, R407): fences, spare rows and positions, self-tests, lanes, re-locks, rows, flash blocks and firmware.
-/

namespace Sys2Proof.Machine

/-! ## Cores (R78, R81, R86, R368) -/

/-- The physical position a logical core is mapped to, and the key of a position. -/
def State.position (s : State) (d c : Nat) : Nat := s.reg (rPhysMap d c) % 128
def posKey (d p : Nat) : Nat := 128 * d + p

/-- The failing rows the latest self-test of a position found. -/
def State.rowFails (s : State) (d p : Nat) : List Nat := Tbl.get (fun _ => []) s.maint.rowFails (posKey d p)

/-- A spare map that retires the first two of some rows (R86). -/
def mapOfRows (rows : List Nat) : Nat :=
  match rows with
  | [] => 0
  | [a] => a + 256
  | a :: b :: _ => a + 256 + 65536 * (b + 256)

/-- The rows that the repair fuses, as start-up read them, retire at a position (R86, R409, log 60). -/
def State.fuseRows (s : State) (k : Nat) : List Nat :=
  if s.maint.repair.isEmpty then [] else ((Config.fuseRows s.maint.repair k).filter (fun r => decide (r < 130))).take 2

/-- A position's own spare map (R368): as recorded in service, as the repair fuses give it, or, for a spare position, as
its self-test gave it. -/
def State.positionMap (s : State) (d p : Nat) : Nat :=
  match s.inst.spareMaps.find? (fun x => x.1 == posKey d p) with
  | some x => x.2
  | none =>
    let rows := s.fuseRows (posKey d p)
    if rows.isEmpty && decide (64 ≤ p) && decide ((s.rowFails d p).length ≤ 2) then mapOfRows (s.rowFails d p)
    else mapOfRows rows

/-- The core two parameter words name, with the checks of their ranges. -/
def Cmd.coreBad (c : Cmd) : Bad := firstBad [must (decide (c.p 0 ≤ 1)) 0x10, must (decide (c.p 1 ≤ 63)) 0x18]
def Cmd.coreKey (c : Cmd) : Nat := Sys2Proof.Machine.coreKey (c.p 0) (c.p 1)

def bodyCoreFence : Body := fun _ c s =>
  c.guard 2 false s (s.unless c.coreBad (
    if (s.core c.coreKey).fenced then (s, doneEmpty)
    else (s.modCore c.coreKey (fun q => { q with fenceReq := true }), {})))

def bodyCoreUnfence : Body := fun _ c s =>
  c.guard 2 false s (s.unless c.coreBad (
    let q := s.core c.coreKey
    if !q.fenced && !q.fenceReq then (s, doneEmpty)
    else (s.modCore c.coreKey (fun q => { q with fenced := false, fenceReq := false }), {})))

/-- SPARE_MAP's layout (R86). -/
def spareMapBad (v : Nat) : Bad :=
  must (bitsOf v 15 9 == 0 && bitsOf v 63 25 == 0 && decide (bitsOf v 7 0 ≤ 0x81) && decide (bitsOf v 23 16 ≤ 0x81) &&
    (bitOf v 8 || bitsOf v 7 0 == 0) && (bitOf v 24 || bitsOf v 23 16 == 0)) 0x20

def bodyCoreSpareRow : Body := fun _ c s =>
  c.guard 3 false s (s.unless c.coreBad (
    if !(s.core c.coreKey).fenced then (s, badState)
    else s.unless (spareMapBad (c.p 2)) (
      let d := c.p 0
      let k := posKey d (s.position d (c.p 1))
      ({ s.setReg (rCoreSpareMap d (c.p 1)) (c.p 2) with
          inst := { s.inst with spareMaps := Tbl.insert k (c.p 2) s.inst.spareMaps } }, {}))))

def bodyCoreSubstitute : Body := fun _ c s =>
  c.guard 3 false s (s.unless (firstBad [c.coreBad, must (decide (c.p 2 ≤ 67)) 0x20]) (
    let d := c.p 0
    let p := c.p 2
    if !(s.core c.coreKey).fenced then (s, badState)
    else if p < 64 ∨ (List.range 64).any (fun i => s.position d i == p) ∨ 3 ≤ (s.rowFails d p).length then (s, noResource)
    else
      let map := s.positionMap d p
      let s := (s.setReg (rPhysMap d (c.p 1)) p).setReg (rCoreSpareMap d (c.p 1)) map
      let s := s.modCore c.coreKey (fun q => { q with substituted := true })
      ({ s with inst := { s.inst with physMap := Tbl.insert c.coreKey p s.inst.physMap } }, {})))

/-- The rows in use of an array with a spare map (R78). -/
def rowsInUse (map : Nat) : List Nat := ((List.range 130).filter (fun p => !(retiredRows map).contains p)).take 128

/-- CORE_TEST's effect; `fails`: the physical rows that fail. -/
def bodyCoreTest (fails : List Nat) : Body := fun _ c s =>
  c.guard 2 false s (s.unless c.coreBad (
    if !(s.core c.coreKey).fenced then (s, badState)
    else
      let d := c.p 0
      let bad := (rowsInUse (s.reg (rCoreSpareMap d (c.p 1)))).filter (fun r => fails.contains r)
      let k := posKey d (s.position d (c.p 1))
      ({ s with maint := { s.maint with rowFails := Tbl.set (fun _ => []) s.maint.rowFails k bad } },
        { r0 := match bad with
            | [] => 0
            | r :: _ => r + 1 })))

/-- CORE_FENCE (R352, R368). -/
def execCoreFence (ring : Nat) (hold : Bool) (s : State) : Answer := answerNoMem s (s.command ring 0x0801 hold bodyCoreFence)

/-- FENCE_BEGIN (R81, R368): a requested fence begins once the core is idle. -/
def execFenceBegin (die c : Nat) (s : State) : Answer :=
  answerNoMem s (
    let q := s.core (coreKey die c)
    if 2 ≤ die ∨ 64 ≤ c ∨ !q.fenceReq ∨ q.ramp.phase ≠ 0 ∨ (s.run (engineId 1 die c)).isSome ∨
        (s.run (engineId 2 die c)).isSome then s
    else s.modCore (coreKey die c) (fun q => { q with fenceReq := false, fenced := true }))

/-- CORE_UNFENCE (R352). -/
def execCoreUnfence (ring : Nat) (hold : Bool) (s : State) : Answer := answerNoMem s (s.command ring 0x0802 hold bodyCoreUnfence)
/-- CORE_SPARE_ROW (R78, R86, R352). -/
def execCoreSpareRow (ring : Nat) (hold : Bool) (s : State) : Answer := answerSysNoMem s (s.command ring 0x0803 hold bodyCoreSpareRow)
/-- CORE_SUBSTITUTE (R352, R368). -/
def execCoreSubstitute (ring : Nat) (hold : Bool) (s : State) : Answer :=
  answerSysNoMem s (s.command ring 0x0804 hold bodyCoreSubstitute)
/-- CORE_TEST (R352, R368); `fails`: the physical rows of the array that fail (log 1). -/
def execCoreTest (ring : Nat) (hold : Bool) (fails : List Nat) (s : State) : Answer :=
  answerSysNoMem s (s.command ring 0x0805 hold (bodyCoreTest fails))

/-! ## Lanes, re-locks, rows and flash blocks (R369, R302) -/

/-- LANE_RECAL's effect; `good`: the lanes that recalibration finds good. The port enters RETRAIN, from which it may come UP
wider (R307, R369); one that was DOWN begins afresh (R310), and stays DOWN where it may not train. -/
def bodyLaneRecal (good : Nat) : Body := fun _ c s =>
  c.guard 2 false s (s.unless (firstBad [must (decide (c.p 0 ≤ 3)) 0x10, must (decide (c.p 1 ≤ 15)) 0x18]) (
    let q := s.port (c.p 0)
    let used := if q.state = 2 then lanesUsed q.lanes q.width else []
    if used.any (fun l => bitOf (c.p 1) l) then (s, badParam 0x18)
    else if !(q.state == 0 || (q.state == 2 && decide (q.width < 3))) then (s, badState)
    else
      let lanes := (List.range 4).map (fun l => if bitOf (c.p 1) l then bitOf good l else listGet false q.lanes l)
      let s := if q.state == 0 && !s.portMayTrain (c.p 0) then s.setPort (c.p 0) { q with lanes := lanes }
        else (s.setPort (c.p 0) { q with lanes := lanes, state := 3, trained := false, mayWiden := true, fresh := q.state == 0 }).count
          (rFabCtrDEGRADES (c.p 0)) 1
      (s, { r0 := (lanes.zip [1, 2, 4, 8]).foldl (fun a l => if l.1 then a + l.2 else a) 0 })))

/-- PLL_RELOCK's own checks; it completes at the end of the re-lock. -/
def bodyPllRelock : Body := fun _ c s =>
  c.guard 1 false s (if 4 < c.p 0 then (s, badParam 0x10) else (s, {}))

/-- A PLL_RELOCK that has passed its checks stops its domain (R369). -/
def State.startRelock (s : State) (r : Nat) : State :=
  match s.frontCmd r with
  | none => s
  | some c =>
    if c.op ≠ 0x0811 ∨ !(s.ring r).holding ∨ s.clk.relocks.any (fun x => x.ring == some r) then s
    else if (bodyPllRelock r c s).2.code != 0 then s.finishCmd r c bodyPllRelock
    else { s with clk := { s.clk with relocks := s.clk.relocks ++ [{ pll := c.p 0, ring := some r }] } }

def State.rowSpares (s : State) (k : Nat) : Nat := Tbl.get (fun _ => 1) s.maint.rowSpares k

def bodyRowRepair : Body := fun _ c s =>
  c.guard 3 false s (s.unless (firstBad [must (decide (c.p 0 ≤ 11)) 0x10, must (decide (c.p 1 ≤ 31)) 0x18]) (
    let k := 32 * c.p 0 + c.p 1
    if s.rowSpares k = 0 then (s, noResource)
    else ({ s with maint := { s.maint with rowSpares := Tbl.set (fun _ => 1) s.maint.rowSpares k (s.rowSpares k - 1) },
                   inst := { s.inst with rows := s.inst.rows ++ [(c.p 0, c.p 1, c.p 2)] } }, {})))

def bodyFlashRetire : Body := fun _ c s =>
  c.guard 1 false s (
    let b := c.p 0
    if slotBlocks + s.snap.sparesUsed ≤ b ∨ s.snap.retired.contains b then (s, badParam 0x10)
    else if (match s.validGens.getLast? with | some g => g.blocks.contains b | none => false) then (s, badState)
    else if s.reg rSnapCtrSPARESLEFT = 0 then (s, noResource)
    else
      let (s, spare) := s.retireBlock b
      let lost : List Gen := s.snap.gens.filter (fun g : Gen => g.blocks.contains b)
      let s := { s with snap := { s.snap with
        gens := s.snap.gens.filter (fun g => !g.blocks.contains b),
        dirty := s.snap.dirty ++ (lost.flatMap (fun g : Gen => g.blocks)).filter (fun x => x != b) } }
      (s.moveDrain b spare, {}))

/-- LANE_RECAL (R352, R369); `good`: the lanes found good, one bit each (log 1). -/
def execLaneRecal (ring : Nat) (hold : Bool) (good : Nat) (s : State) : Answer :=
  answerNoMem s (s.command ring 0x0810 hold (bodyLaneRecal good))
/-- PLL_RELOCK (R352, R369, R378): the domain stops; RELOCK_END completes the command. -/
def execPllRelock (ring : Nat) (s : State) : Answer :=
  answerSysNoMem s (
    if s.clk.relocks.any (fun x => x.ring == some ring) then s
    else (s.command ring 0x0811 true bodyPllRelock).startRelock ring)
/-- ROW_REPAIR (R352, R369). -/
def execRowRepair (ring : Nat) (hold : Bool) (s : State) : Answer := answerSysNoMem s (s.command ring 0x0812 hold bodyRowRepair)
/-- FLASH_RETIRE (R302, R352, R369). -/
def execFlashRetire (ring : Nat) (hold : Bool) (s : State) : Answer := answerNoMem s (s.command ring 0x0813 hold bodyFlashRetire)

/-! ## Firmware (R367, R407) -/

def State.fwOf (s : State) (k : Nat) : Fw := Tbl.get (fun _ => {}) s.fw k
def State.setFw (s : State) (k : Nat) (f : Fw) : State := { s with fw := Tbl.set (fun _ => {}) s.fw k f }

/-- The active maker root key (R406). -/
def State.rootKey (s : State) : List Byte := listGet [] s.nvm.roots s.nvm.rootSlot

/-- Checks 2 to 4 of R395 and R407 on an image: security version, signature, digest. -/
def State.imageSigned (s : State) (img : List Byte) : Bool :=
  decide (s.nvm.svn ≤ fieldAt img 8 4) && ecdsaVerify s.rootKey (sha256 (img.take 0xC0)) ((img.drop 0xC0).take 64) &&
    sha256 (img.drop 0x100) == (img.drop 0x10).take 32

/-- Check 1 of R407. -/
def fwHeaderBad (img : List Byte) (n target : Nat) : Bad :=
  firstBad [must (fieldAt img 0 4 == 0x57464E48) 0, must (fieldAt img 0xC 4 == n) 0xC, must (fieldAt img 0x30 1 == target) 0x30,
    must (((img.drop 0x31).take 0x8F).all (fun b => b == 0#8)) 0x31]

def bodyFwStage : Body := fun _ c s =>
  c.guard 3 false s (
    let a := c.p 0
    let n := c.p 1
    if n < 256 ∨ 0x4000000 < n then (s, badParam 0x18)
    else if !inMem a n then (s, badParam 0x10)
    else if 9 < c.p 2 then (s, badParam 0x20)
    else
      let img := s.peek a n
      if s.badRange a n then (s.memBad, deniedSig)
      else s.unless (fwHeaderBad img n (c.p 2)) (
        if !s.imageSigned img then (s, deniedSig)
        else if (s.fwOf (c.p 2)).staged.isSome then (s, badState)
        else (s.setFw (c.p 2) { s.fwOf (c.p 2) with staged := some img }, {})))

/-- The parts that switch, in order: the engines of a class, or the four rings for the Puppeteer (R367). -/
def fwParts (k : Nat) : List Nat :=
  if k = 0 then [srcCmd 0, srcCmd 1, srcCmd 2, srcCmd 3]
  else if k = 9 then [engineId 9 0xFF 0]
  else [0, 1].flatMap (fun d => (List.range (classCount k d)).map (fun i => engineId k d i))

def bodyFwActivate : Body := fun _ c s =>
  match (if c.p 0 ≠ 0 then some (badParam 0x10) else if c.p 1 ≠ 0 then some (badParam 0x18) else c.reserved 3 false) with
  | some r => (s, r)
  | none =>
    if 9 < c.p 2 then (s, badParam 0x20)
    else
      let f := s.fwOf (c.p 2)
      match f.staged with
      | none => (s, badState)
      | some img =>
        if f.activating then (s, badState)
        else
          let s := s.setFw (c.p 2) { f with activating := true, switched := [] }
          let s := { s with inst := { s.inst with fw := Tbl.set (fun _ => []) s.inst.fw (c.p 2) img } }
          (s.audit 4 0 0 (listGet 0 (fwParts (c.p 2)) 0) (leBytes 4 (fieldAt img 4 4)), {})

/-- FW_STAGE (R352, R407). -/
def execFwStage (ring : Nat) (hold : Bool) (s : State) : Answer := answerSysNoMem s (s.command ring 0x0820 hold bodyFwStage)
/-- FW_ACTIVATE (R352, R367). -/
def execFwActivate (ring : Nat) (hold : Bool) (s : State) : Answer := answerSysNoMem s (s.command ring 0x0821 hold bodyFwActivate)

/-- FW_SWITCH (R367): the next engine of an activated class switches at its idle moment between packets, in ascending
instance order; for the Puppeteer, the next ring between its commands. The last one ends the activation. -/
def execFwSwitch (k : Nat) (s : State) : Answer :=
  answerSys s (
    let f := s.fwOf k
    match f.staged, (fwParts k)[f.switched.length]? with
    | some img, some e =>
      let idle := if k = 0 then !(s.ring (engInst e)).holding else (s.run e).isNone
      if !f.activating || !idle then s
      else
        let v := leBytes 4 (fieldAt img 4 4)
        let s := s.emit e 2 4 0 v
        if f.switched.length + 1 = (fwParts k).length then
          (s.setFw k { image := img }).audit 4 0 0 e v
        else s.setFw k { f with switched := f.switched ++ [e] }
    | _, _ => s)

end Sys2Proof.Machine
end

