-- ==== Sys2Proof/Machine/CmdCfg.lean ====
section
/-!
DEFINITION. Machine/CmdCfg.lean: the commands of groups 0x09 and 0x0B (R353 to R358): configuration sets, power and clock.
-/

namespace Sys2Proof.Machine

/-! ## Configuration sets (R353 to R355, R359) -/

/-- The SH registers of a set (R359). -/
def setOffsets (i : Nat) : List Nat :=
  (regRows.filter (fun r => r.cset == some i)).flatMap (fun r =>
    (List.range r.icount).flatMap (fun a => (List.range r.count).map (fun k => r.base + r.istride * a + r.stride * k)))

/-- Shadow := active, for one set (R354). -/
def State.copySet (s : State) (i : Nat) : State :=
  let s := (setOffsets i).foldl (fun (t : State) o => t.setReg o (t.act o)) s
  match i with
  | 1 => { s with rules := { s.rules with shadow := s.rules.active } }
  | 2 => { s with tick := { s.tick with shMode := s.tick.mode, shPeriod := s.tick.period } }
  | _ => s

/-- The sets a mask names. -/
def maskSets (m : Nat) : List Nat := (List.range 7).filter (fun i => bitOf m i)

/-- The mask's own check (R354). -/
def Cmd.maskBad (c : Cmd) : Bad := must (c.p 0 != 0 && !bitOf (c.p 0) 0 && decide (c.p 0 < 128)) 0x10

/-- A set is disarmed, a deferral that left it armed included. -/
def State.unarm (s : State) (i : Nat) : State :=
  let s := s.disarmSet i
  { s with binding := { s.binding with stay := putBits s.binding.stay i i 0 } }

/-- The validation of the named sets, as a reply. -/
def State.setsReply (s : State) (tick : Option Nat) (dead mask : Nat) : Bad :=
  match s.setsBad tick dead mask with
  | some x => some { code := 0x12, r0 := x.1, r1 := x.2 }
  | none => none

/-- CFG_ARM's checks and effect; `dead`: the clock sources that show no edge, one bit by source code. -/
def bodyCfgArm (dead : Nat) : Body := fun _ c s =>
  c.guard 2 false s (s.unless (firstBad [c.maskBad, must (decide (s.now < c.p 1)) 0x18,
      must (match s.binding.active with
        | some b => b.boundary (c.p 1) || (s.binding.armed.isSome && s.binding.armedTick == c.p 1)
        | none => true) 0x18,
      mustElse 0x12 (!(maskSets (c.p 0)).any (fun i => s.setArmed i)) 0, s.setsReply (some (c.p 1)) dead (c.p 0)]) (
    ((maskSets (c.p 0)).foldl (fun (t : State) i => t.armSet i (c.p 1)) s, {})))

def bodyCfgDisarm : Body := fun _ c s =>
  c.guard 1 false s (s.unless c.maskBad (
    let l := (maskSets (c.p 0)).filter (fun i => s.setArmed i && !s.tooLate i)
    if l.isEmpty then (s, doneEmpty) else (l.foldl (fun (t : State) i => t.unarm i) s, {})))

def bodyCfgCopy : Body := fun _ c s =>
  c.guard 1 false s (s.unless c.maskBad (
    if (maskSets (c.p 0)).any (fun i => s.setArmed i) then (s, badState)
    else ((maskSets (c.p 0)).foldl (fun (t : State) i => t.copySet i) s, {})))

def bodyCfgValidate (dead : Nat) : Body := fun _ c s =>
  c.guard 1 false s (s.unless (firstBad [c.maskBad, mustElse 0x12 (!(maskSets (c.p 0)).any (fun i => s.setArmed i)) 0,
      s.setsReply none dead (c.p 0)]) (s, {}))

/-- CFG_ARM (R354, R360); `dead`: the clock sources of R371 that show no edge (log 1). -/
def execCfgArm (ring : Nat) (hold : Bool) (dead : Nat) (s : State) : Answer :=
  answerNoMem s (s.command ring 0x0901 hold (bodyCfgArm dead))
/-- CFG_DISARM (R354, R364). -/
def execCfgDisarm (ring : Nat) (hold : Bool) (s : State) : Answer := answerSysNoMem s (s.command ring 0x0902 hold bodyCfgDisarm)
/-- CFG_COPY (R354). -/
def execCfgCopy (ring : Nat) (hold : Bool) (s : State) : Answer := answerSysNoMem s (s.command ring 0x0903 hold bodyCfgCopy)
/-- CFG_VALIDATE (R354, R360); `dead` as for CFG_ARM. -/
def execCfgValidate (ring : Nat) (hold : Bool) (dead : Nat) (s : State) : Answer :=
  answerNoMem s (s.command ring 0x0904 hold (bodyCfgValidate dead))

/-! ## Power and clock (R358, R372) -/

def bodyPwrCap : Body := fun _ c s =>
  c.guard 1 false s (
    if c.p 0 < s.field rPwrRange 12 0 ∨ s.field rPwrRange 28 16 < c.p 0 then (s, badParam 0x10)
    else if s.setArmed 5 then (s, badState)
    else (s.setField rPwrCap 12 0 (c.p 0), {}))

def bodyPwrRange : Body := fun _ c s =>
  c.guard 2 false s (s.unless (firstBad [must (decide (1500 ≤ c.p 0) && decide (c.p 0 ≤ 3800)) 0x10,
      must (decide (c.p 0 ≤ c.p 1) && decide (c.p 1 ≤ 3800)) 0x18, mustElse 0x12 (!s.setArmed 5) 0]) (
    let cap := s.field rPwrCap 12 0
    let cap := if cap < c.p 0 then c.p 0 else if c.p 1 < cap then c.p 1 else cap
    (((s.setField rPwrRange 12 0 (c.p 0)).setField rPwrRange 28 16 (c.p 1)).setField rPwrCap 12 0 cap, { r0 := cap })))

def bodyClkSource : Body := fun _ c s =>
  c.guard 2 false s (s.unless (firstBad [must (decide (c.p 0 ≤ 8)) 0x10, must ((pllSources (c.p 0)).contains (c.p 1)) 0x18,
      mustElse 0x12 (!s.setArmed 6) 0]) (
    (s.setField rClkSrc (2 * c.p 0 + 1) (2 * c.p 0) (c.p 1), {})))

/-- PWR_CAP (R358). -/
def execPwrCap (ring : Nat) (hold : Bool) (s : State) : Answer := answerNoMem s (s.command ring 0x0B01 hold bodyPwrCap)
/-- PWR_RANGE (R358). -/
def execPwrRange (ring : Nat) (hold : Bool) (s : State) : Answer := answerNoMem s (s.command ring 0x0B02 hold bodyPwrRange)
/-- CLK_SOURCE (R358, R372). -/
def execClkSource (ring : Nat) (hold : Bool) (s : State) : Answer := answerNoMem s (s.command ring 0x0B03 hold bodyClkSource)

end Sys2Proof.Machine
end

