-- ==== Sys2Proof/Machine/CmdSec.lean ====
section
/-!
DEFINITION. Machine/CmdSec.lean: the security commands of group 0x0A (R357, R395, R406, R408 to R410, R414).
-/

namespace Sys2Proof.Machine

/-! ## Role configuration and the audit log (R410, R414) -/

def bodyRoleCfg : Body := fun _ c s =>
  c.guard 0 true s (s.unless (firstBad [must (c.len == 64) 8, must (decide (c.pay 0 1 ≤ 3)) 0x40, must (!c.dirty 4 60) 0x44, must (decide (1 ≤ c.pay 0 1)) 0x40,
      must (decide (c.pay 1 1 ≤ 1)) 0x41, must (decide (16 ≤ c.pay 2 2)) 0x42]) (
    ({ s with inst := { s.inst with strapEn := bitOf (c.pay 0 1) 0, buttonEn := bitOf (c.pay 0 1) 1, bootPref := c.pay 1 1,
                                    interval := c.pay 2 2 } }, {})))

def bodyAuditRead : Body := fun _ c s =>
  c.guard 3 false s (s.unless (must (decide (1 ≤ c.p 1) && decide (c.p 1 ≤ 65536)) 0x18) (
    let next := s.reg rSecAuditNext
    let old := s.reg rSecAuditOldest
    if next ≤ c.p 0 then (s, doneEmpty)
    else
      let first := if c.p 0 < old then old else c.p 0
      let l := (s.sec.entries.drop (first - old)).take (c.p 1)
      if !inMem (c.p 2) (128 * l.length) then (s, badParam 0x20)
      else (s.writeAll (c.p 2) l.flatten, { r0 := l.length, r1 := first % 2 ^ 32 })))

/-- ROLE_CFG (R357, R410). -/
def execRoleCfg (ring : Nat) (hold : Bool) (s : State) : Answer := answerSysNoMem s (s.command ring 0x0A01 hold bodyRoleCfg)
/-- AUDIT_READ (R357, R414). -/
def execAuditRead (ring : Nat) (hold : Bool) (s : State) : Answer := answer s (s.command ring 0x0A02 hold bodyAuditRead)

/-! ## The maker's envelope (R408) -/

def Cmd.makerAction (c : Cmd) : Nat := c.pay 4 1
def Cmd.makerArg (c : Cmd) : Nat := c.pay 5 1
def Cmd.makerLen (c : Cmd) : Nat := c.pay 0x20 4
def Cmd.inline' (c : Cmd) : Bool := c.pay 0x18 8 == 0

/-- The body's bytes. -/
def State.makerBody (s : State) (c : Cmd) : List Byte :=
  if c.inline' then (c.payload.drop 192).take c.makerLen else s.peek (c.pay 0x18 8) c.makerLen

/-- The offset that a fault in byte `i` of the body is reported at. -/
def Cmd.bodyOff (c : Cmd) (i : Nat) : Nat := if c.inline' then 0x40 + 192 + i else i

/-- The first group of checks: reserved fields, magic, action, arg and lengths. -/
def Cmd.envelopeBad (c : Cmd) (action : Nat) (argOk lenOk : Bool) : Bad :=
  let n := c.makerLen
  firstBad [must (c.len == if c.inline' then 192 + alignUp n 8 else 192) 8, must (!c.dirty 6 2) 0x46, must (!c.dirty 0x24 4) 0x64,
    must (!c.dirty 0x48 56) 0x88, must (!c.inline' || !c.dirty (192 + n) (c.len - 192 - n)) (0x40 + 192 + n),
    must (c.pay 0 4 == 0x4B4D4E48) 0x40, must (c.makerAction == action) 0x44, must argOk 0x45,
    must (c.inline' || (c.pay 0x18 8 % 64 == 0 && inStack (c.pay 0x18 8) n)) 0x58,
    must (decide (n ≤ if c.inline' then 3840 else 0x4000000) && lenOk) 0x60]

/-- The second group's serial, nonce and signature. -/
def State.envelopeAuth (s : State) (c : Cmd) : Bool :=
  c.pay 8 8 == s.nvm.serial && c.pay 0x10 8 == s.reg rSecMakerNonce &&
    ecdsaVerify s.rootKey (sha256 (c.payload.take 0x80)) ((c.payload.drop 0x80).take 64)

/-- A body of the second group that is read with an uncorrectable word (R429). -/
def State.envelopeBroken (s : State) (c : Cmd) : Bool :=
  s.envelopeAuth c && !c.inline' && s.badRange (c.pay 0x18 8) c.makerLen

/-- The second group: serial, nonce, signature, body digest. -/
def State.envelopeSigned (s : State) (c : Cmd) : Bool :=
  s.envelopeAuth c && (c.inline' || !s.badRange (c.pay 0x18 8) c.makerLen) && sha256 (s.makerBody c) == (c.payload.drop 0x28).take 32

/-- A new SEC.MAKER_NONCE from the true random source (site 19). -/
def State.newNonce (s : State) : State :=
  let (s, n) := s.draw 19
  s.setReg rSecMakerNonce n

/-- A maker command: the envelope's checks, then its action on the body (R408). -/
def State.maker (s : State) (c : Cmd) (action : Nat) (argOk lenOk : Bool) (k : State → List Byte → State × Reply) :
    State × Reply :=
  c.guard 0 true s (s.unless (c.envelopeBad action argOk lenOk) (
    let t := s.newNonce
    if s.envelopeSigned c then k t (t.makerBody c) else (if s.envelopeBroken c then t.memBad else t, deniedSig)))

/-! ## The actions (R409) -/

/-- Fuse words as pairs of index and value. -/
def fusePairs (bs : List Byte) : List (Nat × Nat) :=
  (List.range (bs.length / 8)).map (fun i => (fieldAt bs (8 * i) 4, fieldAt bs (8 * i + 4) 4))

/-- REPAIR_FUSE burns its words one after another; the first that would clear a bit, or lies beyond the words there are,
stops it with nothing burned. -/
def burnAll (c : Cmd) (words : Nat) : List (Nat × Nat × Nat) → Tbl Nat → Tbl Nat × Bad
  | [], t => (t, none)
  | (i, w, v) :: rest, t =>
    let old := Tbl.get (fun _ => 0) t w
    if words ≤ w then (t, some noResource)
    else if v &&& old ≠ old then (t, some (badParam (c.bodyOff (8 * i + 4))))
    else burnAll c words rest (Tbl.set (fun _ => 0) t w v)

def bodyMakerFuse : Body := fun _ c s =>
  s.maker c 1 (c.makerArg == 0) (c.makerLen % 8 == 0) (fun s body =>
    let (t, bad) := burnAll c s.nvm.fuseWords ((indexed (fusePairs body)).map (fun x => (x.1, x.2.1, x.2.2))) s.nvm.repair
    match bad with
    | some r => (s, r)
    | none => ({ s with nvm := { s.nvm with repair := t } }, {}))

def bodyMakerCal : Body := fun _ c s =>
  s.maker c 2 (c.makerArg == 0) true (fun s body => ({ s with nvm := { s.nvm with calib := body } }, {}))

/-- Checks 1 to 4 of R395 on a boot image. -/
def State.imageValid (s : State) (img : List Byte) : Bool :=
  fieldAt img 0 4 == 0x49424E48 && decide (256 ≤ img.length) && decide (img.length ≤ 0x4000000) &&
    fieldAt img 0xC 4 == img.length && s.imageSigned img

/-- The image that runs (R400). -/
def State.runningImage (s : State) : List Byte := if s.field rHubReady 4 4 = 1 then s.nvm.imageB else s.nvm.imageA

/-- BOOT_WRITE, and every action that is not one of MAKER_KEY's. -/
def bodyBootWrite : Body := fun _ c s =>
  s.maker c 0x10 (decide (c.makerArg ≤ 1)) true (fun s body =>
    if !s.imageValid body then (s, deniedSig)
    else if c.makerArg = s.field rHubReady 4 4 ∧ s.field rHubReady 3 0 ≠ 7 then (s, badState)
    else if c.makerArg = 0 then ({ s with nvm := { s.nvm with imageA := body } }, {})
    else ({ s with nvm := { s.nvm with imageB := body } }, {}))

def bodySvnAdvance : Body := fun _ c s =>
  s.maker c 0x11 true (c.makerLen == 0) (fun s _ =>
    if c.makerArg ≤ s.nvm.svn ∨ fieldAt s.runningImage 8 4 < c.makerArg then (s, badState)
    else ({ s with nvm := { s.nvm with svn := c.makerArg } }, {}))

def bodyRootRotate : Body := fun _ c s =>
  s.maker c 0x12 (decide (c.makerArg ≤ 3)) (c.makerLen == 0) (fun s _ =>
    if c.makerArg ≤ s.nvm.rootSlot then (s, badState) else ({ s with nvm := { s.nvm with rootSlot := c.makerArg } }, {}))

/-! Certificates (log 9): DER, with the leaf as the last certificate of the chain. -/

/-- One DER element: tag, contents, and what follows it. -/
def derNext (bs : List Byte) : Option (Nat × List Byte × List Byte) :=
  match bs with
  | t :: l :: rest =>
    let k := l.toNat
    if k < 128 then (if k ≤ rest.length then some (t.toNat, rest.take k, rest.drop k) else none)
    else
      let m := k - 128
      let n := beNat (rest.take m)
      if 1 ≤ m ∧ m ≤ 4 ∧ m + n ≤ rest.length then some (t.toNat, (rest.drop m).take n, rest.drop (m + n)) else none
  | _ => none

/-- The DER elements of some bytes, at most `n`. -/
def derAll : Nat → List Byte → List (Nat × List Byte)
  | 0, _ => []
  | n + 1, bs =>
    match derNext bs with
    | none => []
    | some (t, x, rest) => (t, x) :: derAll n rest

/-- The P-256 public key of a certificate's subject: the last 64 bytes of the bit string that holds 0x04, x, y. -/
def certKey (cert : List Byte) : Option (List Byte) :=
  let tbs := (derAll 3 cert)[0]?.map (fun x => derAll 10 x.2)
  match tbs with
  | none => none
  | some fs =>
    let skip := match fs with
      | (0xA0, _) :: _ => 1
      | _ => 0
    match (fs[5 + skip]?).map (fun x => derAll 2 x.2) with
    | some [_, (3, key)] => if key.length = 66 ∧ key.take 2 = [0#8, 4#8] then some (key.drop 2) else none
    | _ => none

def leafKey (chain : List Byte) : Option (List Byte) := ((derAll 16 chain).getLast?).bind (fun x => certKey x.2)

def bodyCertWrite : Body := fun _ c s =>
  s.maker c 0x13 (c.makerArg == 0) (decide (c.makerLen ≤ 16384)) (fun s body =>
    if leafKey body ≠ some s.identityPub then (s, badParam (c.bodyOff 0))
    else ({ s with nvm := { s.nvm with chain := body } }, {}))

/-- MAKER_FUSE (R357, R409). -/
def execMakerFuse (ring : Nat) (hold : Bool) (s : State) : Answer := answerNvm s (s.command ring 0x0A10 hold bodyMakerFuse)
/-- MAKER_CAL (R357, R409). -/
def execMakerCal (ring : Nat) (hold : Bool) (s : State) : Answer := answerNvm s (s.command ring 0x0A11 hold bodyMakerCal)

/-- A row of MAKER_KEY (R357), by its action. -/
def State.makerKey (s : State) (ring : Nat) (hold : Bool) (mine : Nat → Bool) (body : Body) : State :=
  s.runCmd ring (fun c => c.op == 0x0A12 && mine c.makerAction) hold body

/-- BOOT_WRITE (R395, R409), and MAKER_KEY with an action that is none of its own. -/
def execBootWrite (ring : Nat) (hold : Bool) (s : State) : Answer :=
  answerNvm s (s.makerKey ring hold (fun a => !(a == 0x11 || a == 0x12 || a == 0x13)) bodyBootWrite)
/-- SVN_ADVANCE (R409). -/
def execSvnAdvance (ring : Nat) (hold : Bool) (s : State) : Answer :=
  answerNvm s (s.makerKey ring hold (fun a => a == 0x11) bodySvnAdvance)
/-- ROOT_ROTATE (R409). -/
def execRootRotate (ring : Nat) (hold : Bool) (s : State) : Answer :=
  answerNvm s (s.makerKey ring hold (fun a => a == 0x12) bodyRootRotate)
/-- CERT_WRITE (R409). -/
def execCertWrite (ring : Nat) (hold : Bool) (s : State) : Answer :=
  answerNvm s (s.makerKey ring hold (fun a => a == 0x13) bodyCertWrite)

end Sys2Proof.Machine
end

