-- ==== Sys2Proof/Machine/Swap.lean ====
section
/-!
DEFINITION. Machine/Swap.lean: what a boundary or a swap tick changes (R40, R103, R192, R194, R249, R343, R356, R362 to
R365, R378, R382): the unbinding of a plan, and the swap of every set armed for one tick.
-/

namespace Sys2Proof.Machine

/-! ## Grains under a new policy table (R192, R194, R195, R197, R211) -/

/-- The grain an entry of a policy table describes: its index, and its descriptor, EMPTY. -/
def State.boundGrain (s : State) (img a : Nat) : Nat × Grain :=
  let g := s.ld 4 a
  let consumers := (List.range (s.ld 1 (a + 0x38))).map (fun k => s.ld 4 (a + 0x20 + 4 * k))
  let drainers := ((s.packs img).filter (fun p => (chainGrains (s.bodyChain p.pk)).contains g)).map (fun p => p.pk.pid)
  (g, { size := s.ld 1 (a + 4), policy := s.ld 1 (a + 5), profile := s.ld 1 (a + 6), adoptFill := bitOf (s.ld 1 (a + 7)) 0,
        hold := bitOf (s.ld 1 (a + 7)) 1, rawBase := s.ld 6 (a + 8), replay := s.ld 2 (a + 0x0E), storeAddr := s.ld 6 (a + 0x10),
        lead := s.ld 2 (a + 0x16), fillBytes := s.ld 4 (a + 0x18), dueOffset := s.ld 4 (a + 0x1C),
        uses := consumers.length + drainers.length, bound := true, consumers := consumers, drainers := drainers })

/-- The grains of a plan's policy table on a die. -/
def State.grainsFor (s : State) (img d : Nat) : List (Nat × Grain) :=
  match s.tableOf img 3 with
  | none => []
  | some t => ((List.range t.count).map (fun i => s.boundGrain img (t.base + 64 * i))).filter (fun e => grainDie e.1 == d)

/-- A Yo-yo under a new table: every grain EMPTY, stored forms discarded, transfers and replays stopped, descriptors rewritten,
byte sums afresh. -/
def State.rebindYoyo (s : State) (d : Nat) (new : List (Nat × Grain)) : State :=
  let y := s.yoyo d
  let gone := y.grains.foldl (fun n e => n + (if e.2.outbound then s.sentOf e.1 else e.2.stored)) 0
  let s := (s.count (rYoyoCtrDISCARDEDBYTES d) gone).count (rYoyoCtrCANCELLEDSTORES d)
    (y.grains.filter (fun e => e.2.outbound)).length
  let s := (y.grains.filter (fun e => e.2.state != 0)).foldl (fun t e => t.grainTrace d e.1 e.2.state 0) s
  let busy := y.xfers.foldl (fun b x => match x.engine with
    | some i => listPut false 4 b i false
    | none => b) y.codecBusy
  let s := s.setYoyo d
    { table := y.table, bound := !new.isEmpty, grains := new.foldl (fun (t : Tbl Grain) (e : Nat × Grain) => Tbl.set (fun _ => {}) t e.1 e.2) [], codecBusy := busy }
  let s := match y.table with
    | none => s
    | some a =>
      let s := { s with mem := s.mem.filter (fun c => !(decide (a ≤ c.1) && decide (c.1 < a + 2 ^ 24))) }
      new.foldl (fun (t : State) (e : Nat × Grain) => t.poke (a + 32 * (e.1 % 2 ^ 19)) e.2.descriptor) s
  let total := (new.map (fun e => e.2.fillBytes)).sum
  let s := (s.setReg (rYoyoCtrSTATEBYTES0 d) total).setReg (rYoyoCtrBOUNDBYTES d) total
  forN 7 s (fun k t => t.setReg (rYoyoCtrSTATEBYTES0 d + 8 * (k + 1)) 0)

/-- Replayed packets in hand go with the replays they served. -/
def State.stopReplays (s : State) : State :=
  (s.engines.filter (fun e => match e.2.run with
    | some r => r.replayOf.isSome
    | none => false)).foldl (fun t e =>
      let t := t.modEngine e.1 (fun g => { g with run := none })
      if engClass e.1 = 2 then t.clearStream e.1 else t) s

/-- Both Yo-yos take a plan's policy table, or an empty one. -/
def State.rebindGrains (s : State) (img : Option Nat) : State :=
  let s := { s.stopReplays with host := { s.host with reads := s.host.reads.filter (fun r => match r with
    | .pool _ _ _ => false
    | _ => true) } }
  let of := fun d => match img with
    | some a => s.grainsFor a d
    | none => []
  (s.rebindYoyo 0 (of 0)).rebindYoyo 1 (of 1)

/-! ## The plan binding (R40, R103, R249, R292, R343) -/

/-- The tile-claim counters go back to the values of R103. -/
def State.resetClaims (s : State) : State :=
  [0, 1].foldl (fun (t : State) d =>
    t.storeEcc (claimBase d) ((List.range 4096).map (fun i => memDefault (claimBase d + i)))) s

/-- What a binding's steps have accumulated ends with it: open bushels, whose waiting contributions are late (R265), the update
list, the landing of the step, and what has been judged at its boundaries. -/
def State.endSteps (s : State) : State :=
  let s := (s.rauQ.flatMap (fun q => q.2)).foldl (fun t r => t.reqLate r) s
  { s with
    bushels := [], rauQ := [], ends := [], att := [], upd := {}, verdict := { s.verdict with lastStep := none },
    snap := { s.snap with considered := none, turn := none, checkedStep := none, landingStep := 0, landed := [], landingDone := false,
                          activated := false, promoteAt := none } }

/-- Set 0 has swapped: the registers that show it, and the tick (R363, R365). -/
def State.swappedPlan (s : State) : State :=
  (State.showBinding { s with binding := { s.binding with stay := putBits s.binding.stay 0 0 0, lastSwap := listPut 0 7 s.binding.lastSwap 0 s.now } }).setFlag
    rHubCfgStatus 7 true

/-- The unbinding itself: no packet starts from now on, grains go EMPTY and counters reset. -/
def State.unbind (s : State) : State :=
  let s := { s with engines := s.engines.map (fun (e : Nat × Engine) => (e.1, { e.2 with binds := [] })) }
  let s := ((s.rebindGrains none).resetClaims).endSteps
  State.swappedPlan { s with binding := { s.binding with active := none, unbindAt := none } }

/-- The binding itself: each engine serves the new plan from this boundary, the old one for what started before. -/
def State.bindPlan (s : State) (b : Bind) : State :=
  let old := s.engines.map (fun (e : Nat × Engine) => (e.1, { e.2 with
    binds := e.2.binds.map (fun u => if u.upto.isNone then { u with upto := some s.now } else u) }))
  let s := { s with engines := old }
  let s := ((s.sections b.addr).filter (fun x => x.type == 2)).foldl (fun (t : State) l =>
    t.modEngine l.target (fun g => if g.binds.isEmpty then { g with binds := [{ bind := b }], step := 0, idx := 0 }
      else { g with binds := g.binds ++ [{ bind := b }] })) s
  let s := ((s.rebindGrains (some b.addr)).resetClaims).endSteps
  State.swappedPlan { s with
    binding := { s.binding with active := some b, activeJob := s.binding.armedJob, armed := none, armedJob := none,
                                armedTick := 0 },
    snap := { s.snap with ownerMap := [], mirrored := none } }

/-! ## The other sets (R359, R362, R378, R382) -/

/-- The re-locks a clock swap starts: a PLL that a command is re-locking does so again afterwards (R377, R378). -/
def Clk.swapRelock (k : Clk) (n : Nat) : Clk :=
  if k.relocks.any (fun r => r.pll == n) then { k with relocks := k.relocks.map (fun r => if r.pll = n then { r with again := true } else r) }
  else { k with relocks := k.relocks ++ [{ pll := n }] }

/-- A set's shadow becomes its active copy. -/
def State.swapSet (s : State) (i : Nat) : State :=
  let was := s.act rClkSrc
  let s := (setOffsets i).foldl (fun (t : State) o => t.setReg (o + 0x8000) (s.reg o)) s
  match i with
  | 1 => { s with rules := { s.rules with prior := s.rules.active, active := s.rules.shadow } }
  | 2 => s.tickSwap
  | 4 => forN 4 s (fun p t => t.portSwap p)
  | 5 => { s with inst := { s.inst with rangeMin := bitsOf (s.act rPwrRange) 12 0, rangeMax := bitsOf (s.act rPwrRange) 28 16 } }
  | 6 =>
    let now := s.act rClkSrc
    let changed := (List.range 5).filter (fun n => bitsOf was (2 * n + 1) (2 * n) != bitsOf now (2 * n + 1) (2 * n))
    { s with clk := changed.foldl (fun k n => k.swapRelock n) s.clk, inst := { s.inst with clkSrc := now } }
  | _ => s

/-- A set other than the plan binding swaps, and is armed no longer. -/
def State.swapOther (s : State) (i : Nat) : State :=
  let s := (s.swapSet i).unarm i
  ({ s with binding := { s.binding with lastSwap := listPut 0 7 s.binding.lastSwap i s.now } }).setFlag rHubCfgStatus (7 + i) true

/-! ## Which sets swap, and deferral (R356, R363, R364) -/

/-- A set already found deferred at the tick in force. -/
def State.triedNow (s : State) (i : Nat) : Bool := bitOf s.binding.stay i && s.binding.stayAt == s.now

/-- The sets armed for a tick: an unbinding counts as set 0. -/
def State.armedFor (s : State) (t : Nat) : List Nat :=
  (List.range 7).filter (fun i => (s.swapArmed i && s.swapTick i == t) || (i == 0 && s.binding.unbindAt == some t))

/-- A packet runs under an outgoing copy of one of some sets: it started before that set's latest swap. -/
def State.outgoing (s : State) (sets : List Nat) : Bool :=
  s.engines.any (fun e => match e.2.run with
    | some r => sets.any (fun i => decide (r.began < listGet 0 s.binding.lastSwap i))
    | none => false)

/-- One set's swap is put off: to the next step boundary, or, with no plan active, it stays armed. -/
def State.deferSet (s : State) (t i : Nat) : State :=
  match s.binding.active with
  | some b =>
    let n := s.nextBoundary b
    if i ≠ 0 then s.armSet i n
    else State.showBinding { s with binding := { s.binding with
      unbindAt := if s.binding.unbindAt = some t then some n else s.binding.unbindAt,
      armedTick := if s.binding.armed.isSome && s.binding.armedTick == t then n else s.binding.armedTick } }
  | none => { s with binding := { s.binding with stay := putBits s.binding.stay i i 1, stayAt := s.now } }

/-- Every set armed for a tick is deferred, together: counted once, with an alarm. A set that merely stays armed at a later
tick was counted before. -/
def State.defer (s : State) (t : Nat) (sets : List Nat) : State :=
  let again := s.binding.active.isNone && sets.all (fun i => bitOf s.binding.stay i)
  let s := sets.foldl (fun (u : State) i => u.deferSet t i) s
  if again then s else ((s.count rTelCtrCFGDEFERRED 1).setFlag rHubCfgStatus 14 true).alarm srcHub 0x23

/-- The CONFIG log of a swap (R421). -/
def State.swapLog (s : State) (sets : List Nat) (t : Nat) : State :=
  s.emit srcHub 2 3 0 (leBytes 1 (sets.foldl (fun m i => m + 2 ^ i) 0) ++ List.replicate 7 0#8 ++ leBytes 8 t)

/-- UNBIND_AT_BOUNDARY (R343, R363): the armed unbinding's boundary has been observed. -/
def execUnbindAtBoundary (s : State) : Answer :=
  answerSys s (match s.binding.unbindAt with
    | none => s
    | some t =>
      if !s.unbindReady || s.triedNow 0 then s
      else if s.outgoing (s.armedFor t) then s.defer t (s.armedFor t)
      else s.unbind.swapLog [0] t)

/-- CONFIG_SWAP (R362, R363): the earliest armed tick that has come; every set armed for it swaps, the binding last. -/
def execConfigSwap (s : State) : Answer :=
  answerSwap s (
    let due := (List.range 7).filter (fun i => s.swapReady i && !s.triedNow i)
    match due with
    | [] => s
    | i :: rest =>
      let t := rest.foldl (fun m k => if s.swapTick k < m then s.swapTick k else m) (s.swapTick i)
      let sets := (s.armedFor t).filter (fun k => s.swapArmed k)
      if s.unbindReady && !s.triedNow 0 then s
      else if s.outgoing (s.armedFor t) then s.defer t (s.armedFor t)
      else
        let u := (sets.filter (fun k => k != 0)).foldl (fun (u : State) k => u.swapOther k) s
        let u := match sets.contains 0, u.binding.armed with
          | true, some b => u.bindPlan b
          | _, _ => u
        u.swapLog sets t)

end Sys2Proof.Machine
end

