-- ==== Sys2Proof/Machine/Grant.lean ====
section
/-!
DEFINITION. Machine/Grant.lean: a released lock passes to its oldest waiter (R332).
-/

namespace Sys2Proof.Machine

/-- The bodies of the commands that take locks, by opcode; MAKER_KEY's by its action. `dead` as CFG_ARM takes it. -/
def bodyOf (dead : Nat) (c : Cmd) : Body :=
  match c.op with
  | 0x0101 => bodyPlanBind
  | 0x0102 => bodyPlanUnbind
  | 0x0103 => bodyPlanCancel
  | 0x0110 => bodyKvTableSet
  | 0x0111 => bodyKvCreate
  | 0x0112 => bodyKvDestroy
  | 0x0201 => bodyTickCfg
  | 0x0301 => bodyYoyoTableSet
  | 0x0310 => bodyPoolAdd
  | 0x0311 => bodyPoolRemove
  | 0x0312 => bodyPoolList
  | 0x0401 => bodyJobTableSet
  | 0x0402 => bodyOwnerMapRead
  | 0x0501 => bodyRuleWrite
  | 0x0502 => bodyRuleRead
  | 0x0503 => bodyRuleCopy
  | 0x0601 => bodySnapCfg
  | 0x0602 => bodySnapNow
  | 0x0603 => bodySnapRestore
  | 0x0604 => bodySnapExport
  | 0x0605 => bodyWindowOpen
  | 0x0606 => bodyWindowClose
  | 0x0607 => bodyMirrorPromote
  | 0x0608 => bodyGenList
  | 0x0901 => bodyCfgArm dead
  | 0x0902 => bodyCfgDisarm
  | 0x0903 => bodyCfgCopy
  | 0x0904 => bodyCfgValidate dead
  | 0x0A01 => bodyRoleCfg
  | 0x0A02 => bodyAuditRead
  | 0x0A10 => bodyMakerFuse
  | 0x0A11 => bodyMakerCal
  | 0x0A12 =>
    match c.makerAction with
    | 0x11 => bodySvnAdvance
    | 0x12 => bodyRootRotate
    | 0x13 => bodyCertWrite
    | _ => bodyBootWrite
  | 0x0B01 => bodyPwrCap
  | 0x0B02 => bodyPwrRange
  | 0x0B03 => bodyClkSource
  | _ => fun _ _ s => (s, { code := 0x10 })

/-- The rings whose command waits for a lock that it may now take. -/
def State.grantable (s : State) : List Nat :=
  (List.range 4).filter (fun r => (s.ring r).waitFrom.isSome && (match s.nextLock r with
    | some l => s.lockFree l r
    | none => false))

/-- The waiter that began to wait first. -/
def State.oldestWaiter (s : State) : Option Nat :=
  match s.grantable with
  | [] => none
  | r :: rest => some (rest.foldl (fun m q =>
      if (s.ring q).waitFrom.getD 0 < (s.ring m).waitFrom.getD 0 then q else m) r)

/-- A ring's waiting command takes its lock, and executes unless a further lock is held. -/
def State.grant (s : State) (r waited dead : Nat) : State :=
  match s.frontCmd r with
  | none => s
  | some c =>
    let s := (s.count rCmdLockWaitUs waited).setRing r { s.ring r with waited := true, waitFrom := none }
    if s.field rCmdCtrl 15 8 * 100000 < waited then s.reply r c { code := 0x40 }
    else
      let (t, all) := s.takeLocks r c.locks.length
      if all then t.finishCmd r c (bodyOf dead c)
      else
        let t := t.setRing r { t.ring r with waitFrom := some t.host.waits }
        { t with host := { t.host with waits := t.host.waits + 1 } }

/-- LOCK_GRANT (R332). `waited`: microseconds the command has waited; `dead` as for CFG_ARM (log 1). -/
def execLockGrant (waited dead : Nat) (s : State) : Answer :=
  answerNvm s (match s.oldestWaiter with
    | none => s
    | some r => s.grant r waited dead)

end Sys2Proof.Machine
end

