-- ==== Sys2Proof/Machine/Reset.lean ====
section
/-!
DEFINITION. Machine/Reset.lean: start-up and the three kinds of reset (R394 to R401), and the endpoint's own (R321 to R324,
R396, R397). Start-up is one command that runs R394 to its end (log 1).
-/

namespace Sys2Proof.Machine

/-! ## Start-up (R394, R395, R398) -/

/-- The boot image start-up runs (R395): 0 A, 1 B, the preferred one first. -/
def State.bootChoice (s : State) : Option Nat :=
  let a := s.inst.bootPref
  let img := fun k => if k = 0 then s.nvm.imageA else s.nvm.imageB
  if s.imageValid (img a) then some a else if s.imageValid (img (1 - a)) then some (1 - a) else none

/-- What a module reset keeps (R399): boot flash, fuses, generations and wear, the audit log, LAST_HALT, and CLK.RTC unless
power was lost; and what lies outside the module. -/
def State.kept (s : State) (cold : Bool) : State :=
  let keep := [rSecAuditNext, rSecAuditOldest, rSnapCtrERASEMAX, rSnapCtrBLOCKSRETIRED, rSnapCtrSPARESLEFT, rSnapCtrLIFEUSED,
    rPwrLastHalt] ++ (if cold then [] else [rClkRtc])
  let f : State :=
    { free := s.free, host := { mem := s.host.mem }, nvm := s.nvm, inst := s.inst,
      snap := { cfg := { n := s.snap.cfg.n, slotBytes := s.snap.cfg.slotBytes }, gens := s.snap.gens, erase := s.snap.erase,
                retired := s.snap.retired, sparesUsed := s.snap.sparesUsed,
                dirty := s.snap.dirty ++ (match s.snap.drain with | some j => j.blocks | none => []) },
      sec := { entries := s.sec.entries, sinceCkpt := s.sec.sinceCkpt },
      maint := { rowSpares := s.maint.rowSpares, repair := s.nvm.repair },
      pcie := { perst := s.pcie.perst, training := !s.pcie.perst }, halt := { powerGood := true } }
  let f := keep.foldl (fun (t : State) r => t.setReg r (s.reg r)) f
  f.setReg rPwrStatus (if cold then 1 else s.reg rPwrStatus % 4)

/-- A logical core after self-test and restore (R368, R398): its position, its spare map, and whether a row in use failed. -/
def State.restoreCore (s : State) (d c : Nat) : State :=
  let p := match s.inst.physMap.find? (fun x => x.1 == coreKey d c) with
    | some x => x.2
    | none => c
  let map := s.positionMap d p
  let bad := (rowsInUse map).any (fun r => (s.rowFails d p).contains r)
  let s := (s.setReg (rPhysMap d c) p).setReg (rCoreSpareMap d c) map
  let s := s.setCore (coreKey d c) { fenced := bad, substituted := decide (64 ≤ p) }
  if bad then s.setFlag rHubReady 6 true else s

/-- The self-test of a die's positions, and its cores afterwards. `fails`: the failing rows by 128 × die + position. -/
def State.testDie (s : State) (d : Nat) (fails : List (Nat × List Nat)) : State :=
  let mine := fails.filter (fun x => x.1 / 128 == d && decide (x.1 % 128 < 68))
  let s := { s with maint := { s.maint with
    rowFails := mine.foldl (fun t x => Tbl.set (fun _ => []) t x.1 (x.2.filter (fun r => decide (r < 130))))
      (s.maint.rowFails.filter (fun x => x.1 / 128 != d)) } }
  forN 64 s (fun c t => t.restoreCore d c)

/-- Step 7 (R366, R379, R382, R398): the installer configuration goes back into force. -/
def State.restoreConfig (s : State) : State :=
  let both := fun (t : State) o v => (t.setReg o v).setReg (o + 0x8000) v
  let s := both s rClkSrc s.inst.clkSrc
  let s := both s rPwrRange (s.inst.rangeMin + 65536 * s.inst.rangeMax)
  let s := both s rPwrCap s.inst.rangeMax
  let s := { s with clk := { s.clk with bootSrc := s.inst.clkSrc } }
  s.inst.fw.foldl (fun (t : State) x =>
    if t.imageSigned x.2 then t.setFw x.1 { image := x.2 } else t.alarm srcHub 0x29) s

/-- READY (R394): the reset is entered in the audit log, a broken seal found at start-up too, and a checkpoint follows. -/
def State.ready (s : State) (cause : Nat) (sealed : Bool) : State :=
  let s := s.audit 5 0 0 cause []
  let s := if sealed then s.audit 3 0 0 0 [1#8] else s
  s.auditCheckpoint

/-- A whole start-up. `sealed`: the seal loop was found broken, with the fuse not yet burned; `badStacks`: the stacks that fail
training, one bit each; `fails`: the rows that fail self-test. -/
def State.startUp (s : State) (cause : Nat) (cold sealed : Bool) (badStacks : Nat) (fails : List (Nat × List Nat)) : State :=
  let seal' := sealed && !s.nvm.sealFuse
  let was := s
  let s := s.kept cold
  let s := { s with nvm := { s.nvm with sealFuse := s.nvm.sealFuse || sealed } }
  let s := if cause = 1 ∨ cause = 2 then s.setReg rPwrStatus 1 else s
  let s := (s.setReg rHubResetCause cause).newNonce
  match was.bootChoice with
  | none => (s.setField rHubReady 3 0 7).ready cause seal'
  | some k =>
    let s := (s.setField rHubReady 3 0 6).setFlag rHubReady 4 (k == 1)
    let s := { s with stackFail := badStacks % 4096 }
    let s := if badStacks % 4096 = 0 then s else s.setFlag rHubReady 7 true
    let s := ((s.testDie 0 fails).testDie 1 fails).restoreConfig
    let s := { s with tick := { s.tick with first := true, source := 1 } }
    let s := if k = s.inst.bootPref then s else (s.setFlag rHubReady 5 true).alarm srcHub 0x28
    s.ready cause seal'

/-! ## Module resets (R380, R381, R399) -/

/-- The cause of a module reset that is due (R400): the sequence of hold-up has ended and the input is back, or was there
all along; or HUB.RESET.MODULE has been written. -/
def State.resetDue (s : State) : Option Nat :=
  if s.halt.stage = 6 then
    (if s.halt.returned then some (if s.halt.cause = 2 then 2 else 1) else if s.halt.cause = 3 then some 3 else none)
  else if s.halt.stage = 0 ∧ bitOf s.resetReq 0 then some 5
  else none

/-- MODULE_RESET (R394, R399, R401): by HUB.RESET.MODULE, or after a halt. -/
def execModuleReset (badStacks : Nat) (fails : List (Nat × List Nat)) (s : State) : Answer :=
  answerAll s (match s.resetDue with
    | none => s
    | some cause => s.startUp cause false false badStacks fails)

/-- RESET_N (R399): held low for 10 µs. -/
def execResetN (badStacks : Nat) (fails : List (Nat × List Nat)) (s : State) : Answer :=
  answerAll s (
    if !s.halt.powerGood || !(s.halt.stage == 0 || s.halt.stage == 6) then s else s.startUp 4 false false badStacks fails)

/-- POWER_GOOD (R380, R394, R405): a cold start; `broken`: the seal loop is broken. -/
def execPowerGood (broken : Bool) (badStacks : Nat) (fails : List (Nat × List Nat)) (s : State) : Answer :=
  answerAll s (if s.halt.powerGood then s else s.startUp 0 true broken badStacks fails)

/-- INPUT_RETURN (R299, R381): after a halt for loss of input or overvoltage the input is back; the reset follows at once,
or when hold-up has run to its end. -/
def execInputReturn (badStacks : Nat) (fails : List (Nat × List Nat)) (s : State) : Answer :=
  answerAll s (
    if s.halt.stage = 0 ∨ !s.halt.powerGood ∨ !(s.halt.cause == 1 || s.halt.cause == 2) then s
    else if s.halt.stage = 6 then s.startUp (if s.halt.cause = 2 then 2 else 1) false false badStacks fails
    else { s with halt := { s.halt with returned := true } })

/-! ## Die and engine resets (R399) -/

/-- A refused reset. -/
def State.refuseReset (s : State) : State := s.setFlag rHubResetStatus 0 true

/-- The registers of a die that its reset returns to their reset values: those that only the die writes, the restored maps
excepted. -/
def dieRegs (d : Nat) (off : Nat) : Bool :=
  decide (0x1000000 * (d + 1) ≤ off) && decide (off < 0x1000000 * (d + 2)) &&
    !(decide (rPhysMap d 0 ≤ off) && decide (off ≤ rPhysMap d 63)) && !(List.range 64).any (fun c => off == rCoreSpareMap d c) &&
    (match findReg off with
      | some r => r.rw == 0 && r.sh == 0
      | none => false)

/-- A die's reset begins: its engines, Yo-yo, shared memory, scratch and counters are gone. -/
def State.dieDown (s : State) (d : Nat) : State :=
  let shared := fun a => decide (shmBase d ≤ a) && decide (a < shmBase (d + 1))
  let s := (s.engines.filter (fun e => engDie e.1 == d)).foldl (fun (t : State) e => t.dropKv e.1) s
  let s := { s with
    engines := s.engines.filter (fun e => engDie e.1 != d), cores := s.cores.filter (fun e => e.1 / 64 != d),
    vecs := s.vecs.filter (fun e => engDie e.1 != d), mem := s.mem.filter (fun c => !shared c.1),
    badWords := s.badWords.filter (fun a => !shared a), regs := s.regs.filter (fun r => !dieRegs d r.1),
    tokenQ := listPut [] 2 s.tokenQ d [], tokenLast := listPut 63 2 s.tokenLast d 63,
    host := { s.host with reads := s.host.reads.filter (fun r => match r with
      | .pool g _ _ => grainDie g != d
      | _ => true) } }
  { s.setYoyo d {} with dieReset := listPut false 2 s.dieReset d true }

/-- DIE_RESET (R399, R401): a written DIE bit takes effect, or is refused while a plan is active or armed. -/
def execDieReset (die : Nat) (s : State) : Answer :=
  answerSys s (
    if 2 ≤ die ∨ s.halt.stage ≠ 0 ∨ bitOf s.resetReq 0 ∨ !bitOf s.resetReq (1 + die) then s
    else
      let s := { s with resetReq := putBits s.resetReq (1 + die) (1 + die) 0 }
      if s.binding.active.isSome || s.binding.armed.isSome then s.refuseReset
      else (s.dieDown die).audit 5 0 0 5 (leBytes 4 (2 ^ (1 + die))))

/-- DIE_RESET_END (R399): the die's self-test has run, and it is served again. -/
def execDieResetEnd (die : Nat) (fails : List (Nat × List Nat)) (s : State) : Answer :=
  answerSysNoMem s (
    if 2 ≤ die ∨ !listGet false s.dieReset die then s
    else ({ s with dieReset := listPut false 2 s.dieReset die false }).testDie die fails)

/-- An engine's packet stops for a reset (R399): FENCED_TARGET, its holdings released, a replay it served failed. `cycles`: the
ECLK cycles it had been in hand (R231, R245). -/
def State.stopForReset (s : State) (e cycles : Nat) : State :=
  match s.run e with
  | none => s
  | some r =>
    let s := s.faultRun e 0x0A
    let r' := (s.run e).getD r
    let s := s.modEngine e (fun g => { g with run := none })
    let s := if engClass e = 1 ∨ engClass e = 2 then s.clearStream e else s
    let s := (s.dropKv e).report e r'
    let s := match engClass e with
      | 3 => s.count (rVecCtrBUSYCYCLES (engDie e) (engInst e)) cycles
      | 6 => s.count (rCodecCtrBUSYCYCLES (engDie e) (engInst e)) cycles
      | _ => s
    match r.replayOf with
    | some g => s.modReplay (grainDie g) g (fun q => { q with failed := true })
    | none => s.dropUses r.pid

/-- The register and sequencer state of an engine. -/
def State.clearEngine (s : State) (e : Nat) : State :=
  match engClass e with
  | 1 | 2 => s.modCore (coreKey (engDie e) (engInst e)) (fun c =>
      { ob := c.ob, fenceReq := c.fenceReq, fenced := c.fenced, substituted := c.substituted, clock := c.clock })
  | 3 => s.setVec e { scratch := (s.vec e).scratch }
  | _ => s

/-- ENGINE_RESET (R399, R401): the engine of HUB.RESET_ENGINE, both streams for a matrix core. How long the packet it
ends had been in hand is a free number of cycles (site 23, log 1). -/
def execEngineReset (s : State) : Answer :=
  answer s (
    if s.halt.stage ≠ 0 ∨ bitOf s.resetReq 0 ∨ !bitOf s.resetReq 3 then s
    else
      let s := { s with resetReq := putBits s.resetReq 3 3 0 }
      let e := s.reg rHubResetEngine
      let k := engClass e
      let (s, cycles) := s.draw 23
      if !isEngine e || k == 8 || k == 9 then s.refuseReset
      else
        let s := if k = 1 ∨ k = 2 then
            (s.stopForReset (engineId 1 (engDie e) (engInst e)) cycles).stopForReset (engineId 2 (engDie e) (engInst e)) cycles
          else s.stopForReset e cycles
        (s.clearEngine e).audit 5 0 0 5 (leBytes 4 8 ++ leBytes 4 e))

/-! ## The endpoint (R321 to R324, R396, R397) -/

/-- PERST_N asserted: the endpoint alone is reset, and every ring's ENABLE is cleared. What is outstanding with the host
fails. -/
def State.perstDown (s : State) : State :=
  let s := s.host.reads.foldl (fun (t : State) x => match x with
    | .ring _ | .slots _ => t
    | _ => t.readEnds x false) { s with host := { s.host with reads := [] } }
  let s := forN 4 s (fun r t => (t.setFlag (rCmdCFG r) 0 false).setRing r { t.ring r with stopping := false })
  { s.setReg rPcieStatus (s.reg rPcieStatus / 1024 * 1024) with pcie := {} }

/-- PERST_N (R396, R397): asserted, or released: then training begins. -/
def execPerstN (asserted : Bool) (s : State) : Answer :=
  answerSysNoMem s (
    if asserted then s.perstDown
    else if s.pcie.perst then { s with pcie := { s.pcie with perst := false, training := true } } else s)

/-- PCIE_LINK_TRAINED (R321, R339, R396): training ends at a generation and a width. -/
def execPcieLinkTrained (gen width : Nat) (s : State) : Answer :=
  answerSysNoMem s (
    if !s.pcie.training ∨ s.coasting 8 ∨ 2 ≤ s.halt.stage ∨ gen = 0 ∨ 7 < gen ∨ !([1, 2, 4, 8, 16].contains width) then s
    else
      let s := ((s.setField rPcieStatus 2 0 gen).setField rPcieStatus 7 3 width).setFlag rPcieStatus 8 (decide (6 ≤ gen))
      { s with pcie := { s.pcie with training := false } })

/-- What the spec gives of a 32-bit word of the Type 0 header (R2, R321, R324), whose layout is PCI's (log 9): the bits given, and
their values. Class code; header type 0 of one function; the capabilities list; the types of the BARs and their address bits
below their size; no expansion ROM, no interrupt pin. -/
def headerWord (off : Nat) : Nat × Nat :=
  match off with
  | 0x04 => (2 ^ 20, 2 ^ 20)
  | 0x08 => (0xFFFFFF00, 0x12000000)
  | 0x0C => (0x00FF0000, 0)
  | 0x10 => (0x03FFFFFF, 4)
  | 0x18 => (0x3FFFFFFF, 12)
  | 0x20 => (0x00FFFFFF, 4)
  | 0x30 => (0xFFFFFFFF, 0)
  | 0x3C => (0x0000FF00, 0)
  | _ => (0, 0)

/-- A word of configuration space: what the spec gives of it, else a free value (site 21). -/
def headerRead (off : Nat) : Nat :=
  let w := headerWord off
  w.2 + ((Config.freeValue 21 off).toNat % 2 ^ 32 &&& (0xFFFFFFFF ^^^ w.1))

/-- CONFIGURATION_REQUEST (R321, R323, R324, R396). Until READY it gets retry status, which carries no data. `sel`: 1 the size of
BAR2 as a power of two, 2 the completion timeout value of Device Control 2, 0 any other register. -/
def execConfigurationRequest (sel off : Nat) (write : Bool) (v : Nat) (s : State) : Answer :=
  answerSysNoMem s (
    if s.pcie.perst then s
    else if !s.configReady then { s with readBytes := [] }
    else if write then
      (match sel with
        | 1 => if 30 ≤ v ∧ v ≤ 41 then { s with pcie := { s.pcie with bar2Log2 := v } } else s
        | 2 => if [0, 1, 2, 5, 6, 9, 10, 13, 14].contains v then { s with pcie := { s.pcie with cto := v } } else s
        | _ => s)
    else match sel with
      | 1 => { s with readBytes := leBytes 4 s.pcie.bar2Log2 }
      | 2 => { s with readBytes := leBytes 4 s.pcie.cto }
      | _ => { s with readBytes := leBytes 4 (headerRead off) })

end Sys2Proof.Machine
end

