-- ==== Sys2Proof/Machine/ClockPower.lean ====
section
/-!
DEFINITION. Machine/ClockPower.lean: loss of a reference and the end of a re-lock (R375 to R379), the input and hold-up
(R299, R381), the budget tokens, temperatures, coolant and rails (R383 to R390).
-/

namespace Sys2Proof.Machine

/-! ## Clocks (R375 to R379) -/

/-- The command a re-lock was made by completes (R369, R377). -/
def State.relockReply (s : State) (ring : Option Nat) (found : Bool) : State :=
  match ring with
  | none => s
  | some r => match s.frontCmd r with
    | some c => if c.op = 0x0811 then s.reply r c { code := if found then 0 else 2, r0 := if found then 0 else 1 } else s
    | none => s

/-- RELOCK_END (R369, R377, R378): the running re-lock of a PLL ends. `found`: an edge of the selected source came within
500 µs. A swap that fell on the domain meanwhile re-locks it again. -/
def execRelockEnd (pll : Nat) (found : Bool) (s : State) : Answer :=
  answerSysNoMem s (match s.clk.running.find? (fun r => r.pll == pll) with
    | none => s
    | some x =>
      let rest := s.clk.relocks.filter (fun r => r.pll != pll)
      let s := { s with clk := { s.clk with relocks := if x.again then rest ++ [({ pll := pll } : Relock)] else rest } }
      (s.setFlag rClkStatus pll (!found)).relockReply x.ring found)

/-- The PCIe link goes down (R299, R376): what is outstanding with the host fails, fetches of command slots excepted. -/
def State.linkDown (s : State) : State :=
  let s₀ : State := { s with host := { s.host with reads := [] } }
  let s := s.host.reads.foldl (fun (t : State) x => match x with
    | .ring _ | .slots _ => t
    | _ => t.readEnds x false) s₀
  { s.setReg rPcieStatus (s.reg rPcieStatus / 1024 * 1024) with pcie := { s.pcie with training := false } }

/-- Every port that is not DISABLED goes DOWN (R299, R376). -/
def State.portsDown (s : State) : State :=
  forN 4 s (fun p t => if (t.port p).state = 0 ∨ (t.port p).state = 4 then t else t.portDown p)

/-- REFERENCE_LOSS (R375, R376): the hub declares a PLL's reference lost. -/
def execReferenceLoss (pll : Nat) (s : State) : Answer :=
  answerSys s (
    if 9 ≤ pll ∨ s.coasting pll then s
    else
      let s := (((s.setFlag rClkStatus pll true).setFlag rClkStatus (9 + pll) true).count rClkLosses 1).alarm srcClk 0x0C
      if pll = 7 then s.portsDown else if pll = 8 then s.linkDown else s)

/-- XB_LOST (R379): CLK.RTC stops. -/
def execXbLost (s : State) : Answer :=
  answerSysNoMem s { s.setFlag rClkStatus 18 true with clk := { s.clk with rtcStopped := true } }

/-! ## Hold-up and the input (R299, R381) -/

/-- The module runs, with power. -/
def State.running (s : State) : Bool := s.halt.powerGood && s.halt.stage == 0

/-- The sequence of R299 begins, at its start or at its 10 µs step; `cause` is PWR.LAST_HALT's. -/
def State.beginHalt (s : State) (cause : Nat) : State :=
  { s.setReg rPwrLastHalt cause with halt := { s.halt with stage := 1, cause := cause } }

/-- The 10 µs step (R299): SNAP.STATUS.HOLDUP; every running packet stops, with no completion record. -/
def State.holdup (s : State) : State :=
  let s := s.setFlag rSnapStatus snapHoldup true
  { s with halt := { s.halt with stage := 2 }, engines := s.engines.map (fun e => (e.1, { e.2 with run := none })) }

/-- The thermal trip (R387, R388): R299 from its 10 µs step. -/
def State.trip (s : State) : State := ((s.alarm srcPwr 0x25).beginHalt 3).holdup

/-- INPUT_SAG (R381): below 56 V for less than 100 µs. -/
def execInputSag (s : State) : Answer :=
  answerNoMem s (if s.running then (s.setFlag rPwrStatus 2 true).count rPwrCtrSAGS 1 else s)

/-- INPUT_SURGE (R381): between 80 V and 100 V for up to 100 ms, the first within 10 s. -/
def execInputSurge (s : State) : Answer :=
  answerNoMem s (if s.running then s.setFlag rPwrStatus 3 true else s)

/-- INPUT_LOW (R381, R391): the input enters or leaves the band from 56 V to 60 V; `volts` in units of 10 mV. -/
def execInputLow (volts : Nat) (s : State) : Answer :=
  answerNoMem s (
    if !s.running ∨ volts < 5600 ∨ 8000 < volts then s
    else ((s.setFlag rPwrStatus 1 (decide (volts < 6000))).setFlag rPwrStatus 0 (decide (6000 ≤ volts))).setField rPwrInput
      15 0 volts)

/-- INPUT_LOSS (R381): below 56 V for 100 µs; hold-up begins. -/
def execInputLoss (s : State) : Answer :=
  answerSysNoMem s (
    if !s.running then s else ((s.setFlag rPwrStatus 0 false).setFlag rPwrStatus 1 false).beginHalt 1)

/-- OVERVOLTAGE (R381): an excursion above 80 V that is no permitted surge, up to `volts` V. Outside 100 V either way the
spec gives no behaviour. -/
def execOvervoltage (volts : Int) (s : State) : Answer :=
  if 100 < volts ∨ volts < -100 then .fault .absoluteMaximum
  else answerSysNoMem s (
    if !s.running ∨ volts ≤ 80 then s
    else
      let s := ((s.setFlag rPwrStatus 0 false).setFlag rPwrStatus 1 false).beginHalt 2
      { s with halt := { s.halt with switchOpen := true } })

/-- HOLDUP (R299): 10 µs into the sequence. -/
def execHoldup (s : State) : Answer := answerSysNoMem s (if s.halt.stage = 1 then s.holdup else s)

/-- HOLDUP_CLOCK_STOP (R299): at 100 µs the compute clocks stop and the links go down. -/
def execHoldupClockStop (s : State) : Answer :=
  answerSys s (
    if s.halt.stage ≠ 2 then s
    else
      let s := s.portsDown.linkDown
      { s with halt := { s.halt with stage := 3 } })

/-- HOLDUP_FLASH_STOP (R299): by 3 ms, drains stop, and with them any export; a generation that has not committed stays
invalid. -/
def execHoldupFlashStop (s : State) : Answer :=
  answerSysNoMem s (
    if s.halt.stage ≠ 3 then s
    else
      let s := s.dropDrain
      let s := { s with halt := { s.halt with stage := 4 }, snap := { s.snap with staging := none, shipping := none } }
      ((s.setFlag rSnapStatus snapStaging false).setFlag rSnapStatus snapDraining false).setFlag rSnapStatus snapExporting false)

/-- JOURNAL_TAIL (R299): by 8 ms. What the tail carries is held in `Snap`, `Sec` and the journal registers throughout. -/
def execJournalTail (s : State) : Answer :=
  answerSysNoMem s (if s.halt.stage = 4 then { s with halt := { s.halt with stage := 5 } } else s)

/-- HOLDUP_DONE (R299): at 10 ms. -/
def execHoldupDone (s : State) : Answer :=
  answerSysNoMem s (
    if s.halt.stage ≠ 5 then s
    else { s.setFlag rSnapStatus snapHoldupDone true with halt := { s.halt with stage := 6 } })

/-- CONVERTER_STOP (R299): after a halt the input falls below 40 V. -/
def execConverterStop (s : State) : Answer :=
  answerSysNoMem s (
    if s.halt.stage = 6 then { s with halt := { s.halt with converterOff := true, powerGood := false } } else s)

/-! ## The budget tokens (R383, R384, R387 to R389) -/

/-- The readings of one mark that do not count as open (R388), in 1/16 °C: outside -40 °C to 150 °C, or no answer, is open. -/
def answering (n : Nat) (xs : List Int) : List Int :=
  (xs.take n).filter (fun x => decide (-640 ≤ x) && decide (x ≤ 2400))

/-- Whether one of `n` sensors is open. -/
def someOpen (n : Nat) (xs : List Int) : Bool := (answering n xs).length != n

/-- The hottest reading, if there is one. -/
def hottest (xs : List Int) : Option Int :=
  xs.foldl (fun m x => match m with
    | none => some x
    | some y => some (if y < x then x else y)) none

/-- Above a temperature in 1/16 °C. -/
def hotterThan (t : Int) : Option Int → Bool
  | none => false
  | some x => decide (t < x)

/-- The thermal and coolant limit of a die's tokens (R388, R389): the lowest that applies. -/
def tokenLimit (dieOpen coolOpen coolant : Bool) : Nat := if dieOpen then 1 else if coolOpen || coolant then 4 else 8

/-- A die's tokens after a mark (R383, R387). `above`: P exceeds the cap; `back`: tokens may be returned. -/
def tokensAfter (held limit : Nat) (above back : Bool) (hot : Option Int) : Nat :=
  if above || hotterThan 1600 hot || decide (limit < held) then (if 1 < held then held - 1 else held)
  else if back && !hotterThan 1519 hot && decide (held < limit) then held + 1
  else held

/-- The tokens of both dies after a mark, and what was withdrawn and returned. -/
def Budget.mark (b : Budget) (h0 h1 : Nat) : Budget :=
  { held0 := h0, held1 := h1, withdrawals := b.withdrawals + (b.held0 - h0) + (b.held1 - h1),
    returns := b.returns + (h0 - b.held0) + (h1 - b.held1) }

/-- What is sampled at a mark: the measurement registers, the energy and the real-time count. -/
def State.sample (s : State) (power volts amps joules throttle : Nat) (inlet outlet : Int) : State :=
  let s := (s.setField rPwrInput 15 0 volts).setField rPwrInput 31 16 amps
  let s := s.setField rPwrInputPower 12 0 (capAt 8191 (power / 1000))
  let s := (s.setField rPwrCoolant 15 0 (inlet % 65536).toNat).setField rPwrCoolant 31 16 (outlet % 65536).toNat
  let s := s.count rPwrCtrENERGY joules
  if s.budget.held0 < 8 ∨ s.budget.held1 < 8 then s.count rPwrCtrTHROTTLECYCLES throttle else s

/-- What the ECC of the memories has met (R20, R429): errors corrected, which are counted, and aligned 32-byte words that can no
longer be corrected. -/
def State.eccFound (s : State) (corrected : Nat) (bad : List Nat) : State :=
  let t := s.count rTelCtrMEMCORRECTED corrected
  { t with badWords := s.badWords ++ (bad.filter (fun w => w % 32 == 0 && inMem w 32 && !s.badWords.contains w)).eraseDups }

/-- BUDGET_MARK (R383, R384, R387 to R389, R391 to R393, R421): one 100 µs mark. `power`: the mean input power over the
last 1 ms in mW; `volts`, `amps`: in units of 10 mV and 10 mA; `die0`, `die1`: the 16 junction sensors of each die, `logic`
those of the 12 stacks, `hub` the hub's 4, `inlet`, `outlet` the coolant's, all in 1/16 °C; `joules`, `xb`, `throttle`,
`tclk`: the joules, XB edges, HCLK cycles and TCLK cycles that ended since the last mark; `corrected`, `bad`: the memory errors
since then, which no command of the table brings (log 1). -/
def execBudgetMark (power volts amps : Nat) (die0 die1 logic hub : List Int) (inlet outlet : Int)
    (joules xb throttle : Nat) (since : Since) (s : State) : Answer :=
  answerPower s (
    let s := s.eccFound since.corrected since.bad
    let s := { s with sec := { s.sec with windowLeft := s.sec.windowLeft - since.tclk } }
    let s := if s.halt.powerGood && !s.clk.rtcStopped then s.setReg rClkRtc (s.reg rClkRtc + xb) else s
    if !s.running then s
    else
      let s := s.sample power volts amps joules throttle inlet outlet
      let cap := 1000 * s.act rPwrCap
      let m := s.mon
      let above := decide (cap < power)
      let low := decide (power * 100 < cap * 98)
      let lows := if low then m.lowMarks + 1 else 0
      let open0 := listGet false m.dieOpen 0 || (answering 16 die0).isEmpty
      let open1 := listGet false m.dieOpen 1 || (answering 16 die1).isEmpty
      let coolOpen := m.coolOpen || someOpen 2 [inlet, outlet]
      let coolant := decide (0 < s.field rPwrStatus 11 9)
      let hot0 := hottest (answering 16 die0 ++ answering 6 (logic.take 6))
      let hot1 := hottest (answering 16 die1 ++ answering 6 ((logic.drop 6).take 6))
      let h0 := tokensAfter s.budget.held0 (tokenLimit open0 coolOpen coolant) above (decide (10 ≤ lows)) hot0
      let h1 := tokensAfter s.budget.held1 (tokenLimit open1 coolOpen coolant) above (decide (10 ≤ lows)) hot1
      let marks := if h0 = 1 ∧ h1 = 1 then (if m.overMarks = 0 then 1 else if m.overMarks < 101 then m.overMarks + 1 else m.overMarks)
        else 0
      let s := { s with budget := s.budget.mark h0 h1,
                        mon := { lowMarks := capAt 10 lows, overMarks := marks, dieOpen := [open0, open1], coolOpen := coolOpen,
                                 above := above } }
      let derate := hotterThan 1600 hot0 || hotterThan 1600 hot1
      let s := if derate && !bitOf (s.reg rPwrStatus) 6 then s.alarm srcPwr 0x25 else s
      let s := s.setFlag rPwrStatus 6 derate
      let s := if someOpen 16 die0 || someOpen 16 die1 || someOpen 12 logic || someOpen 4 hub || someOpen 2 [inlet, outlet] then
          (if bitOf (s.reg rPwrStatus) 7 then s else (s.setFlag rPwrStatus 7 true).alarm srcPwr 0x2B)
        else s
      let s := s.emit srcPwr 3 5 0 (leBytes 4 (s.reg rPwrInputPower) ++ leBytes 1 h0 ++ leBytes 1 h1 ++ leBytes 1 s.budget.free)
      if (answering 4 hub).isEmpty then s.trip else s)

/-- CAP_UNREACHABLE (R384): P still exceeds the cap 10 ms after both dies have come to hold one token each. -/
def execCapUnreachable (s : State) : Answer :=
  answerSys s (
    if !s.running ∨ s.mon.overMarks ≠ 101 ∨ !s.mon.above then s
    else { (s.setFlag rPwrStatus 5 true).alarm srcPwr 0x24 with mon := { s.mon with overMarks := 102 } })

/-- THERMAL_TRIP (R387): a reading above 115 °C for 1 ms. -/
def execThermalTrip (s : State) : Answer := answerSys s (if s.running then s.trip else s)

/-- COOLANT_CONDITION (R389, R391): 0 FLOW_REVERSED, 1 FLOW_LOW, 2 INLET_HIGH or 3 INLET_LOW has held, or has been gone, for
its time. -/
def execCoolantCondition (which : Nat) (on : Bool) (s : State) : Answer :=
  answer s (
    if !s.running ∨ 4 ≤ which then s
    else
      let was := bitOf (s.reg rPwrStatus) (9 + which)
      let s := s.setFlag rPwrStatus (9 + which) on
      if on && !was && which != 3 then s.alarm srcPwr 0x26 else s)

/-! ## Rails (R390) -/

/-- A die's core rail is off: every core is fenced and its packets fault FENCED_TARGET. -/
def State.coresOff (s : State) (d : Nat) : State :=
  let es := (s.engines.filter (fun e => engDie e.1 == d && (engClass e.1 == 1 || engClass e.1 == 2))).map (fun e => e.1)
  let s := es.foldl (fun (t : State) e => t.stopForReset e 0) s
  let s := forN 64 s (fun c t => t.modCore (coreKey d c) (fun q =>
    { ob := q.ob, clock := q.clock, fenced := true, substituted := q.substituted }))
  { s with tokenQ := listPut [] 2 s.tokenQ d [] }

/-- RAIL_FAULT (R390): 0 D0, 1 D1, 2 to 13 the stacks, 14 the snapshot flash, 15 the hub. -/
def execRailFault (rail : Nat) (s : State) : Answer :=
  answerSys s (
    if !s.running ∨ 16 ≤ rail then s
    else
      let s := s.alarm srcPwr 0x27
      if rail = 15 then s.beginHalt 4
      else
        let s := s.setFlag rPwrRailOff rail true
        if rail < 2 then s.coresOff rail
        else if rail = 14 then
          (if s.snap.staging.isSome || s.snap.drain.isSome then s.genFail.releaseHeld else s.setFlag rSnapStatus snapGenFailed true)
        else s)

end Sys2Proof.Machine
end

