-- ==== Sys2Proof/Machine/Presence.lean ====
section
/-!
DEFINITION. Machine/Presence.lean: the INSTALL_N strap, the PRESENCE button and its window, and the maker seal (R402, R405,
R414).
-/

namespace Sys2Proof.Machine

/-- A presence entry goes into the audit log; with the buffer of entries to be programmed full it is counted instead
(R414). The entry names nothing further (log 62). -/
def State.presenceEntry (s : State) (full : Bool) : State :=
  if full then s.count rSecCtrPRESENCECOALESCED 1 else s.audit 7 0 0 0 []

/-- INSTALL_N_EDGE (R402, R414): the strap reads low, or high, after its debounce. `full`: the buffer of entries is full. -/
def execInstallNEdge (low full : Bool) (s : State) : Answer :=
  answerNoMem s (
    if !s.halt.powerGood ∨ s.sec.strapLow = low then s
    else State.presenceEntry { s with sec := { s.sec with strapLow := low } } full)

/-- PRESENCE_BUTTON (R402, R414): the button reads pressed, or released, after its debounce; a release starts the window
of 60 s anew. -/
def execPresenceButton (pressed full : Bool) (s : State) : Answer :=
  answerNoMem s (
    if !s.halt.powerGood ∨ s.sec.pressed = pressed then s
    else if pressed then { s with sec := { s.sec with pressed := true, window := false, windowLeft := 0 } }
    else State.presenceEntry { s with sec := { s.sec with pressed := false, window := true, windowLeft := 3000000000 } } full)

/-- PRESENCE_WINDOW_END (R402): the window's count has run out. -/
def execPresenceWindowEnd (s : State) : Answer :=
  answerNoMem s (
    if s.sec.window then { s with sec := { s.sec with window := false, windowLeft := 0 } } else s)

/-- SEAL_BREAK (R405): the loop breaks. With power the fuse is burned and the entry made at once; without, the next
start-up finds the loop broken. -/
def execSealBreak (s : State) : Answer :=
  answerNvm s (
    if !s.halt.powerGood ∨ s.nvm.sealFuse then s
    else State.audit { s with nvm := { s.nvm with sealFuse := true } } 3 0 0 0 [])

end Sys2Proof.Machine
end

