-- ==== Sys2Proof/Machine/I3c.lean ====
section
/-!
DEFINITION. Machine/I3c.lean: the I3C management target (R453).
-/

namespace Sys2Proof.Machine

/-- The target answers from the end of start-up step 2 until HOLDUP_DONE (R453). -/
def State.i3cOn (s : State) : Bool := s.halt.powerGood && decide (s.halt.stage < 6)

/-- The offsets it serves: those of the HUB, PWR and SEC blocks (R442, R453). -/
def i3cServed (off : Nat) : Bool :=
  off % 4 == 0 && (decide (off < 0x10000) || (decide (0x30000 ≤ off) && decide (off < 0x50000)))

/-- Addresses that may be assigned (log 9): not reserved, and no single-bit error of the broadcast address. -/
def i3cAddress (a : Nat) : Bool :=
  decide (8 ≤ a) && decide (a < 0x7E) && !([0x3E, 0x5E, 0x6E, 0x76, 0x7A, 0x7C].contains a)

/-- I3C_OFFSET_WRITE (R453): a private write of 3 bytes sets the offset, little-endian. -/
def execI3cOffsetWrite (bs : List Byte) (s : State) : Answer :=
  answerSysNoMem s (
    if !s.i3cOn ∨ s.i3c.dyn = none ∨ bs.length ≠ 3 then s else { s with i3c := { s.i3c with offset := leNat bs } })

/-- I3C_REGISTER_READ (R13, R453): the 32-bit register at the offset, which then advances by 8. -/
def execI3cRegisterRead (s : State) : Answer :=
  answerSysNoMem s (
    if !s.i3cOn ∨ s.i3c.dyn = none then s
    else
      let (s, v) := if i3cServed s.i3c.offset then s.read32 s.i3c.offset else (s, 0)
      { s with readBytes := leBytes 4 v, i3c := { s.i3c with offset := (s.i3c.offset + 8) % 0x1000000 } })

/-- SETDASA (R453): a target with no dynamic address takes one from its static address 0x52. -/
def execSetdasa (fixed dyn : Nat) (s : State) : Answer :=
  answerSysNoMem s (
    if s.i3cOn ∧ fixed = 0x52 ∧ s.i3c.dyn = none ∧ i3cAddress dyn then { s with i3c := { s.i3c with dyn := some dyn } }
    else s)

/-- ENTDAA (R453): a target with no dynamic address takes the one assigned. -/
def execEntdaa (dyn : Nat) (s : State) : Answer :=
  answerSysNoMem s (
    if s.i3cOn ∧ s.i3c.dyn = none ∧ i3cAddress dyn then { s with i3c := { s.i3c with dyn := some dyn } } else s)

end Sys2Proof.Machine
end

