-- ==== Sys2Proof/Machine/Spdm.lean ====
section
/-!
DEFINITION. Machine/Spdm.lean: the SPDM responder (R411, R412). Message formats, transcripts and the key schedule are those
of DSP0274 (log 9).
-/

namespace Sys2Proof.Machine

/-! ## Signatures and random bytes (log 9) -/

/-- What a signature covers: the fixed prefix of 100 bytes for its context, then the transcript's hash. -/
def spdmToSign (v : Nat) (context : String) (transcript : List Byte) : List Byte :=
  let p := ascii (if v = 0x12 then "dmtf-spdm-v1.2.*" else "dmtf-spdm-v1.3.*")
  let c := ascii context
  p ++ p ++ p ++ p ++ List.replicate (36 - c.length) 0#8 ++ c ++ sha256 transcript

def State.spdmSign (s : State) (v : Nat) (context : String) (transcript : List Byte) : State × List Byte :=
  let (s, k) := s.draw 1
  (s, ecdsaSign s.nvm.idKey k (sha256 (spdmToSign v context transcript)))

/-- 32 random bytes (site 20). -/
def State.random32 (s : State) : State × List Byte :=
  let (s, a) := s.draw 20
  let (s, b) := s.draw 20
  let (s, c) := s.draw 20
  let (s, d) := s.draw 20
  (s, leBytes 8 a ++ leBytes 8 b ++ leBytes 8 c ++ leBytes 8 d)

/-! ## Requests and answers -/

/-- Answer the object in hand, in a session as a record. -/
def State.doeAnswer (s : State) (bs : List Byte) : State := s.doeSay (s.pcie.doeType == 2) bs

/-- An ERROR answer. -/
def State.spdmError (s : State) (code : Nat) : State :=
  s.doeAnswer (leBytes 1 s.spdmV ++ [0x7F#8] ++ leBytes 1 code ++ [0#8])

/-- The body of a request row: it acts on an object in hand that carries its request code. A request of another version than
the one chosen is a version mismatch; one before the connection is made, in a session that is not open, or outside the
session it needs, is unexpected. `need`: 0 nothing, 1 the algorithms, 2 an open session; `inside`: 0 outside a session only,
1 either, 2 inside only. -/
def State.spdmRow (s : State) (code need inside : Nat) (k : State → Nat → List Byte → State) : State :=
  let q := s.pcie.doe
  if q.isEmpty || fieldAt q 1 1 != code then s
  else
    let secured := s.pcie.doeType == 2
    let v := s.spdm.version.getD 0
    if q.length < 4 then s.spdmError 1
    else if need ≠ 0 ∧ fieldAt q 0 1 ≠ v then s.spdmError 0x41
    else if (secured && s.spdm.session.isNone) || (inside == 2 && !secured) then s.spdmError 0x0B
    else if (need != 0 && !s.spdm.algs) || (need == 2 && !s.spdm.finished) || (inside == 0 && secured) then s.spdmError 4
    else k s v q

/-- VERSION: 1.2 and 1.3; the connection starts anew. -/
def State.doGetVersion (s : State) (q : List Byte) : State :=
  let a := [0x10#8, 4#8, 0#8, 0#8, 0#8, 2#8] ++ leBytes 2 0x1200 ++ leBytes 2 0x1300
  ({ s with spdm := { vca := q ++ a } }).doeAnswer a

/-- The capability flags of R411: CERT, CHAL, MEAS with signature, ENCRYPT, MAC, KEY_EX, HBEAT, KEY_UPD. -/
def spdmFlags : Nat := 0x62D6

/-- CAPABILITIES: the requester's version becomes the connection's. CTExponent is left open (site 20). -/
def State.doGetCapabilities (s : State) (q : List Byte) : State :=
  let v := fieldAt q 0 1
  if s.spdm.vca.isEmpty || s.spdm.version.isSome then s.spdmError 4
  else if v ≠ 0x12 ∧ v ≠ 0x13 then s.spdmError 0x41
  else
    let a := leBytes 1 v ++ [0x61#8, 0#8, 0#8, 0#8] ++ leBytes 1 (Config.freeValue 20 0).toNat ++ [0#8, 0#8] ++
      leBytes 4 spdmFlags ++ leBytes 4 65536 ++ leBytes 4 65536
    ({ s with spdm := { s.spdm with version := some v, vca := s.spdm.vca ++ q ++ a } }).doeAnswer a

/-- What is chosen of an algorithm structure: secp256r1, AES-256-GCM, the SPDM key schedule; no other type. -/
def spdmChoose (type offered : Nat) : Nat :=
  match type with
  | 2 => offered &&& 8
  | 3 => offered &&& 2
  | 5 => offered &&& 1
  | _ => 0

/-- ALGORITHMS (R411): ECDSA P-256, SHA-256, DMTF measurements with SHA-256. -/
def State.doNegotiate (s : State) (v : Nat) (q : List Byte) : State :=
  if s.spdm.version.isNone || s.spdm.algs then s.spdmError 4
  else if fieldAt q 0 1 ≠ v then s.spdmError 0x41
  else
    let n := fieldAt q 2 1
    let ext := 4 * (fieldAt q 28 1 + fieldAt q 29 1)
    let structs := (List.range n).flatMap (fun i =>
      let t := fieldAt q (32 + ext + 4 * i) 1
      leBytes 1 t ++ [0x20#8] ++ leBytes 2 (spdmChoose t (fieldAt q (32 + ext + 4 * i + 2) 2)))
    let spec := fieldAt q 6 1 % 2
    let asym := fieldAt q 8 4 &&& 0x10
    let hash := fieldAt q 12 4 &&& 1
    if asym = 0 ∨ hash = 0 then s.spdmError 1
    else
      let a := leBytes 1 v ++ [0x63#8] ++ leBytes 1 n ++ [0#8] ++ leBytes 2 (36 + 4 * n) ++ leBytes 1 spec ++
        leBytes 1 (fieldAt q 7 1 &&& 2) ++ leBytes 4 (2 * spec) ++ leBytes 4 asym ++ leBytes 4 hash ++
        List.replicate 16 0#8 ++ structs
      ({ s with spdm := { s.spdm with algs := true, vca := s.spdm.vca ++ q ++ a } }).doeAnswer a

/-- The slot 0 chain as SPDM carries it: length, the root certificate's hash, the certificates. -/
def State.spdmChain (s : State) : List Byte :=
  let c := s.nvm.chain
  let root := match derNext c with
    | some (_, _, rest) => c.take (c.length - rest.length)
    | none => []
  leBytes 2 (c.length + 36) ++ [0#8, 0#8] ++ sha256 root ++ c

/-- DIGESTS. -/
def State.doGetDigests (s : State) (v : Nat) (q : List Byte) : State :=
  let a := leBytes 1 v ++ [1#8] ++ leBytes 1 (if v = 0x13 then 1 else 0) ++ [1#8] ++ sha256 s.spdmChain
  ({ s with spdm := { s.spdm with certs := s.spdm.certs ++ q ++ a } }).doeAnswer a

/-- CERTIFICATE: a portion of slot 0's chain. -/
def State.doGetCertificate (s : State) (v : Nat) (q : List Byte) : State :=
  let c := s.spdmChain
  let off := fieldAt q 4 2
  if fieldAt q 2 1 % 16 ≠ 0 ∨ c.length ≤ off then s.spdmError 1
  else
    let part := (c.drop off).take (fieldAt q 6 2)
    let a := leBytes 1 v ++ [2#8, 0#8, 0#8] ++ leBytes 2 part.length ++ leBytes 2 (c.length - off - part.length) ++ part
    ({ s with spdm := { s.spdm with certs := s.spdm.certs ++ q ++ a } }).doeAnswer a

/-! ## Measurements (R412) -/

/-- The image an engine, or a ring's control core, runs (R367). -/
def State.runs (s : State) (k e : Nat) : List Byte :=
  let f := s.fwOf k
  if f.switched.contains e then f.staged.getD f.image else f.image

/-- The digest of a measurement block. -/
def State.measure (s : State) (i : Nat) : List Byte :=
  match i with
  | 1 => sha256 (Config.measured 1 [s.nvm.romVersion, s.nvm.svn, s.nvm.rootSlot])
  | 2 => sha256 (Config.measured 2 (s.field rHubReady 4 4 :: (s.runningImage.take 256).map (fun b => b.toNat)))
  | 3 => sha256 (s.fwOf 0).image
  | 13 => sha256 (Config.measured 13 ((match s.binding.active with
      | some b => [b.addr, b.planId, b.first, b.period, b.rngBase, b.ramp] ++ (s.peek (b.addr + 0x30) 32).map (fun x => x.toNat) ++
          b.job.bytes.map (fun x => x.toNat) ++ b.job.lists.flatten
      | none => []) ++ (s.rules.active.flatMap (fun c => [c.1, c.2.toNat])) ++ [b2n (s.tick.mode == .fabric), s.tick.period] ++
      (List.range 7).flatMap (fun k => (setOffsets k).map (fun o => s.act o))))
  | 14 => sha256 (Config.measured 14 ([b2n s.nvm.sealFuse, s.nvm.svn, s.nvm.rootSlot] ++
      s.nvm.repair.flatMap (fun x => [x.1, x.2])))
  | 15 => sha256 s.nvm.calib
  | 16 => sha256 (Config.measured 16 [s.reg rSecAuditNext, beNat s.auditPrev])
  | _ => sha256 ((fwParts (i - 3)).flatMap (fun e => sha256 (s.runs (i - 3) e)))

/-- The blocks that GET_MEASUREMENTS returns: in BOOT_FAILED 1, 2 and 14 only. -/
def State.blocks (s : State) : List Nat :=
  if s.field rHubReady 3 0 = 7 then [1, 2, 14] else (List.range 16).map (fun i => i + 1)

/-- The DMTF value type of a block, which the spec does not name (site 20): a digest's top bit is clear. -/
def blockType (i : Nat) : Nat := (Config.freeValue 20 i).toNat % 128

/-- A block in the DMTF measurement form. -/
def State.block (s : State) (i : Nat) : List Byte :=
  leBytes 1 i ++ [1#8] ++ leBytes 2 35 ++ leBytes 1 (blockType i) ++ leBytes 2 32 ++ s.measure i

/-- The measurement summary hash of a type: 0xFF every block; 1 the trusted base, whose extent the spec does not name. -/
def State.measSummary (s : State) (type : Nat) : State × List Byte :=
  if type = 0xFF then (s, sha256 (s.blocks.flatMap s.block))
  else if type = 1 then s.random32
  else (s, [])

/-- MEASUREMENTS: `op` 0 the number of blocks, 0xFF all, else one. -/
def State.doGetMeasurements (s : State) (v : Nat) (q : List Byte) : State :=
  let signed := bitOf (fieldAt q 2 1) 0
  let op := fieldAt q 3 1
  let body := q.drop (if signed then 37 else 4)
  let context := if v = 0x13 then body.take 8 else []
  let l := if op = 0 then [] else if op = 0xFF then s.blocks else s.blocks.filter (fun i => i == op)
  if (op != 0 && l.isEmpty) || (signed && (decide (q.length < 37) || fieldAt q 36 1 % 16 != 0)) then s.spdmError 1
  else
    let bs := l.flatMap s.block
    let (s, nonce) := s.random32
    let a := leBytes 1 v ++ [0x60#8] ++ leBytes 1 (if op = 0 then s.blocks.length else 0) ++ [0#8] ++ leBytes 1 l.length ++
      leBytes 3 bs.length ++ bs ++ nonce ++ [0#8, 0#8] ++ context
    let t := s.spdm.meas ++ q ++ a
    if !signed then ({ s with spdm := { s.spdm with meas := t } }).doeAnswer a
    else
      let (s, sig) := s.spdmSign v "responder-measurements signing" (s.spdm.vca ++ t)
      ({ s with spdm := { s.spdm with meas := [] } }).doeAnswer (a ++ sig)

/-- CHALLENGE_AUTH. -/
def State.doChallenge (s : State) (v : Nat) (q : List Byte) : State :=
  if fieldAt q 2 1 ≠ 0 ∨ q.length < 36 then s.spdmError 1
  else
    let (s, sum) := s.measSummary (fieldAt q 3 1)
    let (s, nonce) := s.random32
    let a := leBytes 1 v ++ [3#8, 0#8, 1#8] ++ sha256 s.spdmChain ++ nonce ++ sum ++ [0#8, 0#8] ++
      (if v = 0x13 then (q.drop 36).take 8 else [])
    let (s, sig) := s.spdmSign v "responder-challenge_auth signing" (s.spdm.vca ++ s.spdm.certs ++ q ++ a)
    ({ s with spdm := { s.spdm with certs := [] } }).doeAnswer (a ++ sig)

/-! ## Sessions -/

/-- The finished key of one side. -/
def Spdm.finishKey (p : Spdm) (v : Nat) (side : String) (th : List Byte) : List Byte :=
  spdmExpand v (spdmExpand v p.secret side th) "finished" []

/-- What a session's transcript hash covers, up to some bytes of the exchange. -/
def State.sessionHash (s : State) (bs : List Byte) : List Byte := sha256 (s.spdm.vca ++ sha256 s.spdmChain ++ bs)

/-- KEY_EXCHANGE_RSP: one session at a time; no mutual authentication. In BOOT_FAILED it is not answered so. -/
def State.doKeyExchange (s : State) (v : Nat) (q : List Byte) : State :=
  if s.field rHubReady 3 0 = 7 then s.spdmError 7
  else if s.spdm.session.isSome then s.spdmError 0x0A
  else
    let px := beNat ((q.drop 40).take 32)
    let py := beNat ((q.drop 72).take 32)
    if fieldAt q 3 1 ≠ 0 ∨ q.length < 106 ∨ !p256OnCurve px py then s.spdmError 1
    else
      let (s, sum) := s.measSummary (fieldAt q 2 1)
      let (s, rnd) := s.random32
      let (s, dh) := s.random32
      let (s, period) := s.draw 20
      let (s, sid) := s.draw 20
      let d := beNat dh % (p256N - 1) + 1
      let shared := beBytes 32 (p256AffineX (p256Mul { x := px, y := py, z := 1 } d 256 p256Inf))
      let a := leBytes 1 v ++ [0x64#8] ++ leBytes 1 period ++ [0#8] ++ leBytes 2 sid ++ [0#8, 0#8] ++ rnd ++ ecdsaPublic d ++
        sum ++ [0#8, 0#8]
      let (s, sig) := s.spdmSign v "responder-key_exchange_rsp signing" (s.spdm.vca ++ sha256 s.spdmChain ++ q ++ a)
      let k := q ++ a ++ sig
      let secret := hmac256 (List.replicate 32 0#8) shared
      let th := s.sessionHash k
      let p := { s.spdm with session := some (fieldAt q 4 2 + 65536 * (sid % 65536)), finished := false, updates := 0,
                             secret := secret, meas := [], reqKey := spdmExpand v secret "req hs data" th, reqSeq := 0,
                             rspKey := spdmExpand v secret "rsp hs data" th, rspSeq := 0 }
      let verify := hmac256 (p.finishKey v "rsp hs data" th) th
      ({ s with spdm := { p with keys := k ++ verify } }).doeAnswer (a ++ sig ++ verify)

/-- The session ends. -/
def State.endSession (s : State) : State :=
  { s with spdm := { s.spdm with session := none, finished := false, secret := [], keys := [], updates := 0, meas := [],
                                 reqKey := [], reqSeq := 0, rspKey := [], rspSeq := 0 } }

/-- The session's data keys, from the hash of all its messages up to FINISH_RSP. -/
def State.dataKeys (s : State) (v : Nat) (th : List Byte) : State :=
  let master := hmac256 (spdmExpand v s.spdm.secret "derived" []) (List.replicate 32 0#8)
  { s with spdm := { s.spdm with finished := true, reqKey := spdmExpand v master "req app data" th, reqSeq := 0,
                                 rspKey := spdmExpand v master "rsp app data" th, rspSeq := 0 } }

/-- The next key of the requester's direction, or of the responder's. -/
def State.nextReqKey (s : State) (v : Nat) : State :=
  { s with spdm := { s.spdm with reqKey := spdmExpand v s.spdm.reqKey "traffic upd" [], reqSeq := 0, updates := s.spdm.updates + 1 } }
def State.nextRspKey (s : State) (v : Nat) : State :=
  { s with spdm := { s.spdm with rspKey := spdmExpand v s.spdm.rspKey "traffic upd" [], rspSeq := 0 } }

/-- FINISH_RSP: the requester's verify data must match; else the session ends. The answer still goes under the handshake's
keys, and what follows under the data keys. -/
def State.doFinish (s : State) (v : Nat) (q : List Byte) : State :=
  if s.spdm.finished then s.spdmError 4
  else
    let th1 := s.sessionHash (s.spdm.keys.take (s.spdm.keys.length - 32))
    let th := s.sessionHash (s.spdm.keys ++ q.take 4)
    if q.drop 4 ≠ hmac256 (s.spdm.finishKey v "req hs data" th1) th then (s.spdmError 6).endSession
    else
      let a := leBytes 1 v ++ [0x65#8, 0#8, 0#8]
      (s.doeAnswer a).dataKeys v (s.sessionHash (s.spdm.keys ++ q ++ a))

/-- KEY_UPDATE_ACK: 1 the requester's key, 2 both, 3 the new key is confirmed. The answer goes under the responder's new
key. -/
def State.doKeyUpdate (s : State) (v : Nat) (q : List Byte) : State :=
  let op := fieldAt q 2 1
  if op < 1 ∨ 3 < op then s.spdmError 1
  else
    let s := if op = 3 then s else if op = 1 then s.nextReqKey v else (s.nextReqKey v).nextRspKey v
    s.doeAnswer (leBytes 1 v ++ [0x69#8] ++ (q.drop 2).take 2)

/-- A session request in BOOT_FAILED is not answered so (R412). -/
def State.sessionRow (s : State) (code need : Nat) (k : State → Nat → List Byte → State) : State :=
  s.spdmRow code need 2 (fun s v q => if s.field rHubReady 3 0 = 7 then s.spdmError 7 else k s v q)

/-! ## The rows -/

/-- GET_VERSION (R411). -/
def execGetVersion (s : State) : Answer := answerSysNoMem s (s.spdmRow 0x84 0 0 (fun s _ q => s.doGetVersion q))
/-- GET_CAPABILITIES (R411). -/
def execGetCapabilities (s : State) : Answer := answerSysNoMem s (s.spdmRow 0xE1 0 0 (fun s _ q => s.doGetCapabilities q))
/-- NEGOTIATE_ALGORITHMS (R411). -/
def execNegotiateAlgorithms (s : State) : Answer := answerSysNoMem s (s.spdmRow 0xE3 0 0 State.doNegotiate)
/-- GET_DIGESTS (R411). -/
def execGetDigests (s : State) : Answer := answerSysNoMem s (s.spdmRow 0x81 1 1 State.doGetDigests)
/-- GET_CERTIFICATE (R411). -/
def execGetCertificate (s : State) : Answer := answerSysNoMem s (s.spdmRow 0x82 1 1 State.doGetCertificate)
/-- CHALLENGE (R411). -/
def execChallenge (s : State) : Answer := answerSysNoMem s (s.spdmRow 0x83 1 0 State.doChallenge)
/-- GET_MEASUREMENTS (R412). -/
def execGetMeasurements (s : State) : Answer := answerSysNoMem s (s.spdmRow 0xE0 1 1 State.doGetMeasurements)
/-- KEY_EXCHANGE (R411, R412). -/
def execKeyExchange (s : State) : Answer := answerSysNoMem s (s.spdmRow 0xE4 1 0 State.doKeyExchange)
/-- FINISH (R411). -/
def execFinish (s : State) : Answer := answerSysNoMem s (s.sessionRow 0xE5 1 State.doFinish)
/-- HEARTBEAT (R411). -/
def execHeartbeat (s : State) : Answer :=
  answerSysNoMem s (s.sessionRow 0xE8 2 (fun s v _ => s.doeAnswer (leBytes 1 v ++ [0x68#8, 0#8, 0#8])))
/-- KEY_UPDATE (R411). -/
def execKeyUpdate (s : State) : Answer := answerSysNoMem s (s.sessionRow 0xE9 2 State.doKeyUpdate)
/-- END_SESSION (R411). -/
def execEndSession (s : State) : Answer :=
  answerSysNoMem s (s.sessionRow 0xEC 2 (fun s v _ => (s.doeAnswer (leBytes 1 v ++ [0x6C#8, 0#8, 0#8])).endSession))

end Sys2Proof.Machine
end

