-- ==== Sys2Proof/Machine/Dispatch.lean ====
section
/-!
DEFINITION. Machine/Dispatch.lean: one arm per command, each one direct call of its meaning.
-/

namespace Sys2Proof.Machine

/-- The effect of a command on everything but the queue. -/
def exec (i : Instr) (s : State) : Host.Outcome State Fault Refusal :=
  match i with
  | .tickEdge => Sys2Proof.Machine.execTickEdge s
  | .tickOrderedSet port block at_ => Sys2Proof.Machine.execTickOrderedSet port block at_ s
  | .tickPortTimeout port at_ => Sys2Proof.Machine.execTickPortTimeout port at_ s
  | .windowEnd e => Sys2Proof.Machine.execWindowEnd e s
  | .packetComplete e cycles => Sys2Proof.Machine.execPacketComplete e cycles s
  | .matrixSequence die c st => Sys2Proof.Machine.execMatrixSequence die c st s
  | .tileClaim die c st => Sys2Proof.Machine.execTileClaim die c st s
  | .itemBegin die c st => Sys2Proof.Machine.execItemBegin die c st s
  | .loadA die c st => Sys2Proof.Machine.execLoadA die c st s
  | .loadB die c st => Sys2Proof.Machine.execLoadB die c st s
  | .loadWritten die c st tb cycles => Sys2Proof.Machine.execLoadWritten die c st tb cycles s
  | .mma die c st waited => Sys2Proof.Machine.execMma die c st waited s
  | .repeatN die c st => Sys2Proof.Machine.execRepeatN die c st s
  | .tileExchange die c st stall => Sys2Proof.Machine.execTileExchange die c st stall s
  | .tbufLoadStart die c => Sys2Proof.Machine.execTbufLoadStart die c s
  | .arbitrationPoint die c at_ => Sys2Proof.Machine.execArbitrationPoint die c at_ s
  | .rampStepEnd die c => Sys2Proof.Machine.execRampStepEnd die c s
  | .feederHoldEnd die c => Sys2Proof.Machine.execFeederHoldEnd die c s
  | .rampTokenGrant die at_ => Sys2Proof.Machine.execRampTokenGrant die at_ s
  | .rampTokenReturn die c at_ => Sys2Proof.Machine.execRampTokenReturn die c at_ s
  | .tileDrain die c late => Sys2Proof.Machine.execTileDrain die c late s
  | .drainStallResume die c cycles => Sys2Proof.Machine.execDrainStallResume die c cycles s
  | .attentionForward die c st => Sys2Proof.Machine.execAttentionForward die c st s
  | .attentionBackward die c st => Sys2Proof.Machine.execAttentionBackward die c st s
  | .kvAppend die unit => Sys2Proof.Machine.execKvAppend die unit s
  | .kvRegionLock region cycles => Sys2Proof.Machine.execKvRegionLock region cycles s
  | .kvEvict die unit cycles => Sys2Proof.Machine.execKvEvict die unit cycles s
  | .convForward die c st => Sys2Proof.Machine.execConvForward die c st s
  | .convInputGradient die c st => Sys2Proof.Machine.execConvInputGradient die c st s
  | .convWeightGradient die c st => Sys2Proof.Machine.execConvWeightGradient die c st s
  | .input die unit => Sys2Proof.Machine.execInput die unit s
  | .weight die unit => Sys2Proof.Machine.execWeight die unit s
  | .output die unit => Sys2Proof.Machine.execOutput die unit s
  | .copy die unit => Sys2Proof.Machine.execCopy die unit s
  | .gather die unit => Sys2Proof.Machine.execGather die unit s
  | .s2d die unit => Sys2Proof.Machine.execS2d die unit s
  | .d2s die unit => Sys2Proof.Machine.execD2s die unit s
  | .padFold die unit => Sys2Proof.Machine.execPadFold die unit s
  | .poolMax die unit => Sys2Proof.Machine.execPoolMax die unit s
  | .poolAvg die unit => Sys2Proof.Machine.execPoolAvg die unit s
  | .poolMaxBwd die unit => Sys2Proof.Machine.execPoolMaxBwd die unit s
  | .poolAvgBwd die unit => Sys2Proof.Machine.execPoolAvgBwd die unit s
  | .vectorProgram die idx => Sys2Proof.Machine.execVectorProgram die idx s
  | .fma die idx => Sys2Proof.Machine.execFma die idx s
  | .add die idx => Sys2Proof.Machine.execAdd die idx s
  | .mul die idx => Sys2Proof.Machine.execMul die idx s
  | .max die idx => Sys2Proof.Machine.execMax die idx s
  | .min die idx => Sys2Proof.Machine.execMin die idx s
  | .func die idx => Sys2Proof.Machine.execFunc die idx s
  | .vectorAct die idx => Sys2Proof.Machine.execVectorAct die idx s
  | .cmp die idx => Sys2Proof.Machine.execCmp die idx s
  | .sel die idx => Sys2Proof.Machine.execSel die idx s
  | .red die idx => Sys2Proof.Machine.execRed die idx s
  | .bcast die idx => Sys2Proof.Machine.execBcast die idx s
  | .ld die idx => Sys2Proof.Machine.execLd die idx s
  | .st die idx => Sys2Proof.Machine.execSt die idx s
  | .ldb die idx => Sys2Proof.Machine.execLdb die idx s
  | .stb die idx => Sys2Proof.Machine.execStb die idx s
  | .stacc die idx => Sys2Proof.Machine.execStacc die idx s
  | .rng die idx => Sys2Proof.Machine.execRng die idx s
  | .xadd die idx => Sys2Proof.Machine.execXadd die idx s
  | .xshl die idx => Sys2Proof.Machine.execXshl die idx s
  | .xld die idx => Sys2Proof.Machine.execXld die idx s
  | .loopOp die idx => Sys2Proof.Machine.execLoop die idx s
  | .programEnd die idx => Sys2Proof.Machine.execProgramEnd die idx s
  | .chol die idx => Sys2Proof.Machine.execChol die idx s
  | .trinv die idx => Sys2Proof.Machine.execTrinv die idx s
  | .grainTap die => Sys2Proof.Machine.execGrainTap die s
  | .storeBegin die => Sys2Proof.Machine.execStoreBegin die s
  | .codecDispatch die => Sys2Proof.Machine.execCodecDispatch die s
  | .poolRequest die at_ => Sys2Proof.Machine.execPoolRequest die at_ s
  | .storeComplete g => Sys2Proof.Machine.execStoreComplete g s
  | .restoreTick die => Sys2Proof.Machine.execRestoreTick die s
  | .restoreBegin die => Sys2Proof.Machine.execRestoreBegin die s
  | .restoreComplete g waited => Sys2Proof.Machine.execRestoreComplete g waited s
  | .restoreFailure g waited => Sys2Proof.Machine.execRestoreFailure g waited s
  | .dueTickRelease g => Sys2Proof.Machine.execDueTickRelease g s
  | .replayStart die c => Sys2Proof.Machine.execReplayStart die c s
  | .replayEnd die c waited => Sys2Proof.Machine.execReplayEnd die c waited s
  | .adopt die => Sys2Proof.Machine.execAdopt die s
  | .restore die => Sys2Proof.Machine.execRestore die s
  | .release die => Sys2Proof.Machine.execRelease die s
  | .demote die => Sys2Proof.Machine.execDemote die s
  | .hold die => Sys2Proof.Machine.execHold die s
  | .unhold die => Sys2Proof.Machine.execUnhold die s
  | .encode die unit => Sys2Proof.Machine.execEncode die unit s
  | .decode die unit => Sys2Proof.Machine.execDecode die unit s
  | .yoyoCtrlSnap die bar => Sys2Proof.Machine.execYoyoCtrlSnap die bar s
  | .bushelSend => Sys2Proof.Machine.execBushelSend s
  | .parameterBroadcast => Sys2Proof.Machine.execParameterBroadcast s
  | .mirrorSend => Sys2Proof.Machine.execMirrorSend s
  | .update die idx => Sys2Proof.Machine.execUpdate die idx s
  | .bushelOpen entry => Sys2Proof.Machine.execBushelOpen entry s
  | .segment port pkt fec => Sys2Proof.Machine.execSegment port pkt fec s
  | .rauAdd stack pc => Sys2Proof.Machine.execRauAdd stack pc s
  | .endPacket port pkt fec => Sys2Proof.Machine.execEndPacket port pkt fec s
  | .result port pkt fec => Sys2Proof.Machine.execResult port pkt fec s
  | .verdictRecord port pkt fec => Sys2Proof.Machine.execVerdictRecord port pkt fec s
  | .bushelDeadline entry => Sys2Proof.Machine.execBushelDeadline entry s
  | .resultTick entry => Sys2Proof.Machine.execResultTick entry s
  | .bushelClose entry receive => Sys2Proof.Machine.execBushelClose entry receive s
  | .verdictForm entry => Sys2Proof.Machine.execVerdictForm entry s
  | .verdictResolution entry => Sys2Proof.Machine.execVerdictResolution entry s
  | .mirror port pkt fec => Sys2Proof.Machine.execMirror port pkt fec s
  | .landingCopyEnd => Sys2Proof.Machine.execLandingCopyEnd s
  | .landingBoundaryCheck => Sys2Proof.Machine.execLandingBoundaryCheck s
  | .promotion => Sys2Proof.Machine.execPromotion s
  | .promoteNotice port pkt fec => Sys2Proof.Machine.execPromoteNotice port pkt fec s
  | .stagingBegin => Sys2Proof.Machine.execStagingBegin s
  | .stagingEnd heldCycles => Sys2Proof.Machine.execStagingEnd heldCycles s
  | .generationCommit => Sys2Proof.Machine.execGenerationCommit s
  | .flashFailure block => Sys2Proof.Machine.execFlashFailure block s
  | .exportStaging heldCycles => Sys2Proof.Machine.execExportStaging heldCycles s
  | .exportPacket port pkt fec => Sys2Proof.Machine.execExportPacket port pkt fec s
  | .idle port pkt fec => Sys2Proof.Machine.execIdle port pkt fec s
  | .linkInit port block => Sys2Proof.Machine.execLinkInit port block s
  | .egressSelect port waited => Sys2Proof.Machine.execEgressSelect port waited s
  | .retryTimeout port => Sys2Proof.Machine.execRetryTimeout port s
  | .laneFault port lane => Sys2Proof.Machine.execLaneFault port lane s
  | .trainingEnd port lanes inverted reversed => Sys2Proof.Machine.execTrainingEnd port lanes inverted reversed s
  | .retrainEnd port lanes => Sys2Proof.Machine.execRetrainEnd port lanes s
  | .portRetryTimer port => Sys2Proof.Machine.execPortRetryTimer port s
  | .commandPoll poll => Sys2Proof.Machine.execCommandPoll poll s
  | .lockGrant waited dead => Sys2Proof.Machine.execLockGrant waited dead s
  | .lockWaitTimeout r waited => Sys2Proof.Machine.execLockWaitTimeout r waited s
  | .hostCompletion idx error writes => Sys2Proof.Machine.execHostCompletion idx error writes s
  | .completionTimeout idx => Sys2Proof.Machine.execCompletionTimeout idx s
  | .bar2Read off n => Sys2Proof.Machine.execBar2Read off n s
  | .bar2Write off bs poisoned => Sys2Proof.Machine.execBar2Write off bs poisoned s
  | .bar0BadAccess how bytes => Sys2Proof.Machine.execBar0BadAccess how bytes s
  | .pmStateChange d3hot => Sys2Proof.Machine.execPmStateChange d3hot s
  | .doeObject type bs => Sys2Proof.Machine.execDoeObject type bs s
  | .doeAbort => Sys2Proof.Machine.execDoeAbort s
  | .getVersion => Sys2Proof.Machine.execGetVersion s
  | .getCapabilities => Sys2Proof.Machine.execGetCapabilities s
  | .negotiateAlgorithms => Sys2Proof.Machine.execNegotiateAlgorithms s
  | .getDigests => Sys2Proof.Machine.execGetDigests s
  | .getCertificate => Sys2Proof.Machine.execGetCertificate s
  | .challenge => Sys2Proof.Machine.execChallenge s
  | .getMeasurements => Sys2Proof.Machine.execGetMeasurements s
  | .keyExchange => Sys2Proof.Machine.execKeyExchange s
  | .finish => Sys2Proof.Machine.execFinish s
  | .heartbeat => Sys2Proof.Machine.execHeartbeat s
  | .keyUpdate => Sys2Proof.Machine.execKeyUpdate s
  | .endSession => Sys2Proof.Machine.execEndSession s
  | .planBind ring hold => Sys2Proof.Machine.execPlanBind ring hold s
  | .planUnbind ring hold => Sys2Proof.Machine.execPlanUnbind ring hold s
  | .planCancel ring hold => Sys2Proof.Machine.execPlanCancel ring hold s
  | .unbindAtBoundary => Sys2Proof.Machine.execUnbindAtBoundary s
  | .kvTableSet ring hold => Sys2Proof.Machine.execKvTableSet ring hold s
  | .kvCreate ring hold => Sys2Proof.Machine.execKvCreate ring hold s
  | .kvDestroy ring hold => Sys2Proof.Machine.execKvDestroy ring hold s
  | .tickCfg ring hold => Sys2Proof.Machine.execTickCfg ring hold s
  | .yoyoTableSet ring hold => Sys2Proof.Machine.execYoyoTableSet ring hold s
  | .poolAdd ring hold => Sys2Proof.Machine.execPoolAdd ring hold s
  | .poolRemove ring hold => Sys2Proof.Machine.execPoolRemove ring hold s
  | .poolList ring hold => Sys2Proof.Machine.execPoolList ring hold s
  | .jobTableSet ring hold => Sys2Proof.Machine.execJobTableSet ring hold s
  | .ownerMapRead ring hold => Sys2Proof.Machine.execOwnerMapRead ring hold s
  | .ruleWrite ring hold => Sys2Proof.Machine.execRuleWrite ring hold s
  | .ruleRead ring hold => Sys2Proof.Machine.execRuleRead ring hold s
  | .ruleCopy ring hold => Sys2Proof.Machine.execRuleCopy ring hold s
  | .snapCfg ring hold => Sys2Proof.Machine.execSnapCfg ring hold s
  | .snapNow ring hold => Sys2Proof.Machine.execSnapNow ring hold s
  | .snapRestore ring hold => Sys2Proof.Machine.execSnapRestore ring hold s
  | .snapExport ring hold => Sys2Proof.Machine.execSnapExport ring hold s
  | .exportWindowOpen ring hold => Sys2Proof.Machine.execExportWindowOpen ring hold s
  | .exportWindowClose ring hold => Sys2Proof.Machine.execExportWindowClose ring hold s
  | .mirrorPromote ring hold => Sys2Proof.Machine.execMirrorPromote ring hold s
  | .genList ring hold => Sys2Proof.Machine.execGenList ring hold s
  | .telRingSet ring hold => Sys2Proof.Machine.execTelRingSet ring hold s
  | .telSelect ring hold => Sys2Proof.Machine.execTelSelect ring hold s
  | .telAlarmClear ring hold => Sys2Proof.Machine.execTelAlarmClear ring hold s
  | .coreFence ring hold => Sys2Proof.Machine.execCoreFence ring hold s
  | .fenceBegin die c => Sys2Proof.Machine.execFenceBegin die c s
  | .coreUnfence ring hold => Sys2Proof.Machine.execCoreUnfence ring hold s
  | .coreSpareRow ring hold => Sys2Proof.Machine.execCoreSpareRow ring hold s
  | .coreSubstitute ring hold => Sys2Proof.Machine.execCoreSubstitute ring hold s
  | .coreTest ring hold fails => Sys2Proof.Machine.execCoreTest ring hold fails s
  | .laneRecal ring hold good => Sys2Proof.Machine.execLaneRecal ring hold good s
  | .pllRelock ring => Sys2Proof.Machine.execPllRelock ring s
  | .relockEnd pll found => Sys2Proof.Machine.execRelockEnd pll found s
  | .rowRepair ring hold => Sys2Proof.Machine.execRowRepair ring hold s
  | .flashRetire ring hold => Sys2Proof.Machine.execFlashRetire ring hold s
  | .fwStage ring hold => Sys2Proof.Machine.execFwStage ring hold s
  | .fwActivate ring hold => Sys2Proof.Machine.execFwActivate ring hold s
  | .fwSwitch k => Sys2Proof.Machine.execFwSwitch k s
  | .cfgArm ring hold dead => Sys2Proof.Machine.execCfgArm ring hold dead s
  | .cfgDisarm ring hold => Sys2Proof.Machine.execCfgDisarm ring hold s
  | .cfgCopy ring hold => Sys2Proof.Machine.execCfgCopy ring hold s
  | .cfgValidate ring hold dead => Sys2Proof.Machine.execCfgValidate ring hold dead s
  | .configSwap => Sys2Proof.Machine.execConfigSwap s
  | .roleCfg ring hold => Sys2Proof.Machine.execRoleCfg ring hold s
  | .auditRead ring hold => Sys2Proof.Machine.execAuditRead ring hold s
  | .makerFuse ring hold => Sys2Proof.Machine.execMakerFuse ring hold s
  | .makerCal ring hold => Sys2Proof.Machine.execMakerCal ring hold s
  | .bootWrite ring hold => Sys2Proof.Machine.execBootWrite ring hold s
  | .svnAdvance ring hold => Sys2Proof.Machine.execSvnAdvance ring hold s
  | .rootRotate ring hold => Sys2Proof.Machine.execRootRotate ring hold s
  | .certWrite ring hold => Sys2Proof.Machine.execCertWrite ring hold s
  | .pwrCap ring hold => Sys2Proof.Machine.execPwrCap ring hold s
  | .pwrRange ring hold => Sys2Proof.Machine.execPwrRange ring hold s
  | .clkSource ring hold => Sys2Proof.Machine.execClkSource ring hold s
  | .ringEnable r v bar => Sys2Proof.Machine.execRingEnable r v bar s
  | .ringDisable r v bar => Sys2Proof.Machine.execRingDisable r v bar s
  | .readIndexWrite v bar => Sys2Proof.Machine.execReadIndexWrite v bar s
  | .srcSelWrite v bar => Sys2Proof.Machine.execSrcSelWrite v bar s
  | .registerWrite off v how => Sys2Proof.Machine.execRegisterWrite off v how s
  | .lowHalfRead off full bar => Sys2Proof.Machine.execLowHalfRead off full bar s
  | .highHalfRead off bar => Sys2Proof.Machine.execHighHalfRead off bar s
  | .lowHalfWrite off v bar => Sys2Proof.Machine.execLowHalfWrite off v bar s
  | .highHalfWrite off v bar => Sys2Proof.Machine.execHighHalfWrite off v bar s
  | .moduleReset badStacks fails => Sys2Proof.Machine.execModuleReset badStacks fails s
  | .dieReset die => Sys2Proof.Machine.execDieReset die s
  | .dieResetEnd die fails => Sys2Proof.Machine.execDieResetEnd die fails s
  | .engineReset => Sys2Proof.Machine.execEngineReset s
  | .resetN badStacks fails => Sys2Proof.Machine.execResetN badStacks fails s
  | .perstN asserted => Sys2Proof.Machine.execPerstN asserted s
  | .powerGood broken badStacks fails => Sys2Proof.Machine.execPowerGood broken badStacks fails s
  | .inputSag => Sys2Proof.Machine.execInputSag s
  | .inputLoss => Sys2Proof.Machine.execInputLoss s
  | .inputSurge => Sys2Proof.Machine.execInputSurge s
  | .overvoltage volts => Sys2Proof.Machine.execOvervoltage volts s
  | .inputLow volts => Sys2Proof.Machine.execInputLow volts s
  | .inputReturn badStacks fails => Sys2Proof.Machine.execInputReturn badStacks fails s
  | .holdup => Sys2Proof.Machine.execHoldup s
  | .holdupClockStop => Sys2Proof.Machine.execHoldupClockStop s
  | .holdupFlashStop => Sys2Proof.Machine.execHoldupFlashStop s
  | .journalTail => Sys2Proof.Machine.execJournalTail s
  | .holdupDone => Sys2Proof.Machine.execHoldupDone s
  | .budgetMark power volts amps die0 die1 logic hub inlet outlet joules xb throttle since => Sys2Proof.Machine.execBudgetMark power volts amps die0 die1 logic hub inlet outlet joules xb throttle since s
  | .capUnreachable => Sys2Proof.Machine.execCapUnreachable s
  | .thermalTrip => Sys2Proof.Machine.execThermalTrip s
  | .coolantCondition which on => Sys2Proof.Machine.execCoolantCondition which on s
  | .railFault rail => Sys2Proof.Machine.execRailFault rail s
  | .referenceLoss pll => Sys2Proof.Machine.execReferenceLoss pll s
  | .xbLost => Sys2Proof.Machine.execXbLost s
  | .installNEdge low full => Sys2Proof.Machine.execInstallNEdge low full s
  | .presenceButton pressed full => Sys2Proof.Machine.execPresenceButton pressed full s
  | .presenceWindowEnd => Sys2Proof.Machine.execPresenceWindowEnd s
  | .sealBreak => Sys2Proof.Machine.execSealBreak s
  | .i3cOffsetWrite bs => Sys2Proof.Machine.execI3cOffsetWrite bs s
  | .i3cRegisterRead => Sys2Proof.Machine.execI3cRegisterRead s
  | .setdasa fixed dyn => Sys2Proof.Machine.execSetdasa fixed dyn s
  | .entdaa dyn => Sys2Proof.Machine.execEntdaa dyn s
  | .telemetryRecord => Sys2Proof.Machine.execTelemetryRecord s
  | .shedLevelFall => Sys2Proof.Machine.execShedLevelFall s
  | .summary source => Sys2Proof.Machine.execSummary source s
  | .converterStop => Sys2Proof.Machine.execConverterStop s
  | .configurationRequest sel off write v => Sys2Proof.Machine.execConfigurationRequest sel off write v s
  | .pcieLinkTrained gen width => Sys2Proof.Machine.execPcieLinkTrained gen width s

end Sys2Proof.Machine
end

