-- ==== Sys2Proof/Safety.lean ====
section
/-!
DEFINITION. Safety.lean: the invariants that claims are stated in: the power-budget identities of R383 and R393, and the
canonical form of device memory.
-/

namespace Sys2Proof.Machine

/-- Each die holds from 1 to 8 tokens, and tokens withdrawn less tokens returned are the free ones (R383, R393, R435). -/
def Budget.ok (b : Budget) : Prop :=
  1 ≤ b.held0 ∧ b.held0 ≤ 8 ∧ 1 ≤ b.held1 ∧ b.held1 ≤ 8 ∧ b.withdrawals = b.returns + b.free

/-- A memory is in the canonical form (log 3): addresses strictly rising, no byte equal to what an unlisted one reads as. -/
def Memory.wf (m : Mem) : Bool := Tbl.wf memDefault m

end Sys2Proof.Machine
end

