-- ==== Sys2Proof/WellFormed.lean ====
section
/-!
DEFINITION. WellFormed.lean: the operands a command may carry: numbers of dies, cores, streams, engines, ports, rings and
stacks that exist (R4, R44, R442, R443), registers within BAR0, blocks and packets of a legal length. `exec` is total: where
an operand is out of range it leaves the state as it is.
-/

namespace Sys2Proof

/-- An engine identifier that exists (R44). -/
def engineWf (e : Nat) : Bool :=
  let cls := e >>> 24
  let die := (e >>> 16) % 256
  let n := match cls with
    | 1 => 64 | 2 => 64 | 3 => 32 | 4 => 16 | 5 => 8 | 6 => 4 | 7 => 4 | 8 => 1
    | _ => 0
  if cls = 9 then die == 0xFF && e % 65536 == 0 else decide (die < 2) && decide (e % 65536 < n)

/-- Whether a command's operands are ones that its row has. -/
def Instr.wf : Instr → Bool
  | .tickEdge => true
  | .tickOrderedSet port block _ => decide (port < 4) && block.length == 64
  | .tickPortTimeout port _ => decide (port < 4)
  | .windowEnd e => engineWf e.unit
  | .packetComplete e _ => engineWf e
  | .matrixSequence die c stream => decide (die < 2) && decide (c < 64) && decide (stream < 2)
  | .tileClaim die c stream => decide (die < 2) && decide (c < 64) && decide (stream < 2)
  | .itemBegin die c stream => decide (die < 2) && decide (c < 64) && decide (stream < 2)
  | .loadA die c stream => decide (die < 2) && decide (c < 64) && decide (stream < 2)
  | .loadB die c stream => decide (die < 2) && decide (c < 64) && decide (stream < 2)
  | .loadWritten die c stream _ _ => decide (die < 2) && decide (c < 64) && decide (stream < 2)
  | .mma die c stream _ => decide (die < 2) && decide (c < 64) && decide (stream < 2)
  | .repeatN die c stream => decide (die < 2) && decide (c < 64) && decide (stream < 2)
  | .tileExchange die c stream _ => decide (die < 2) && decide (c < 64) && decide (stream < 2)
  | .tbufLoadStart die c => decide (die < 2) && decide (c < 64)
  | .arbitrationPoint die c _ => decide (die < 2) && decide (c < 64)
  | .rampStepEnd die c => decide (die < 2) && decide (c < 64)
  | .feederHoldEnd die c => decide (die < 2) && decide (c < 64)
  | .rampTokenGrant die _ => decide (die < 2)
  | .rampTokenReturn die c _ => decide (die < 2) && decide (c < 64)
  | .tileDrain die c _ => decide (die < 2) && decide (c < 64)
  | .drainStallResume die c _ => decide (die < 2) && decide (c < 64)
  | .attentionForward die c stream => decide (die < 2) && decide (c < 64) && decide (stream < 2)
  | .attentionBackward die c stream => decide (die < 2) && decide (c < 64) && decide (stream < 2)
  | .kvAppend die unit => decide (die < 2) && decide (unit < 4)
  | .kvRegionLock _ _ => true
  | .kvEvict die unit _ => decide (die < 2) && decide (unit < 4)
  | .convForward die c stream => decide (die < 2) && decide (c < 64) && decide (stream < 2)
  | .convInputGradient die c stream => decide (die < 2) && decide (c < 64) && decide (stream < 2)
  | .convWeightGradient die c stream => decide (die < 2) && decide (c < 64) && decide (stream < 2)
  | .input die unit => decide (die < 2) && decide (unit < 8)
  | .weight die unit => decide (die < 2) && decide (unit < 8)
  | .output die unit => decide (die < 2) && decide (unit < 8)
  | .copy die unit => decide (die < 2) && decide (unit < 16)
  | .gather die unit => decide (die < 2) && decide (unit < 16)
  | .s2d die unit => decide (die < 2) && decide (unit < 16)
  | .d2s die unit => decide (die < 2) && decide (unit < 16)
  | .padFold die unit => decide (die < 2) && decide (unit < 16)
  | .poolMax die unit => decide (die < 2) && decide (unit < 16)
  | .poolAvg die unit => decide (die < 2) && decide (unit < 16)
  | .poolMaxBwd die unit => decide (die < 2) && decide (unit < 16)
  | .poolAvgBwd die unit => decide (die < 2) && decide (unit < 16)
  | .vectorProgram die idx => decide (die < 2) && decide (idx < 32)
  | .fma die idx => decide (die < 2) && decide (idx < 32)
  | .add die idx => decide (die < 2) && decide (idx < 32)
  | .mul die idx => decide (die < 2) && decide (idx < 32)
  | .max die idx => decide (die < 2) && decide (idx < 32)
  | .min die idx => decide (die < 2) && decide (idx < 32)
  | .func die idx => decide (die < 2) && decide (idx < 32)
  | .vectorAct die idx => decide (die < 2) && decide (idx < 32)
  | .cmp die idx => decide (die < 2) && decide (idx < 32)
  | .sel die idx => decide (die < 2) && decide (idx < 32)
  | .red die idx => decide (die < 2) && decide (idx < 32)
  | .bcast die idx => decide (die < 2) && decide (idx < 32)
  | .ld die idx => decide (die < 2) && decide (idx < 32)
  | .st die idx => decide (die < 2) && decide (idx < 32)
  | .ldb die idx => decide (die < 2) && decide (idx < 32)
  | .stb die idx => decide (die < 2) && decide (idx < 32)
  | .stacc die idx => decide (die < 2) && decide (idx < 32)
  | .rng die idx => decide (die < 2) && decide (idx < 32)
  | .xadd die idx => decide (die < 2) && decide (idx < 32)
  | .xshl die idx => decide (die < 2) && decide (idx < 32)
  | .xld die idx => decide (die < 2) && decide (idx < 32)
  | .loopOp die idx => decide (die < 2) && decide (idx < 32)
  | .programEnd die idx => decide (die < 2) && decide (idx < 32)
  | .chol die idx => decide (die < 2) && decide (idx < 32)
  | .trinv die idx => decide (die < 2) && decide (idx < 32)
  | .grainTap die => decide (die.unit < 2)
  | .storeBegin die => decide (die < 2)
  | .codecDispatch die => decide (die < 2)
  | .poolRequest die _ => decide (die < 2)
  | .storeComplete g => decide (g < 2 ^ 20)
  | .restoreTick die => decide (die < 2)
  | .restoreBegin die => decide (die < 2)
  | .restoreComplete g _ => decide (g < 2 ^ 20)
  | .restoreFailure g _ => decide (g < 2 ^ 20)
  | .dueTickRelease g => decide (g < 2 ^ 20)
  | .replayStart die c => decide (die < 2) && decide (c.unit < 64)
  | .replayEnd die c _ => decide (die < 2) && decide (c < 64)
  | .adopt die => decide (die.unit < 2)
  | .restore die => decide (die < 2)
  | .release die => decide (die < 2)
  | .demote die => decide (die < 2)
  | .hold die => decide (die < 2)
  | .unhold die => decide (die < 2)
  | .encode die unit => decide (die < 2) && decide (unit < 4)
  | .decode die unit => decide (die < 2) && decide (unit < 4)
  | .yoyoCtrlSnap die _ => decide (die < 2)
  | .bushelSend => true
  | .parameterBroadcast => true
  | .mirrorSend => true
  | .update die idx => decide (die < 2) && decide (idx < 32)
  | .bushelOpen _ => true
  | .segment port pkt _ => decide (port < 4) && decide (64 ≤ pkt.length)
  | .rauAdd stack pc => decide (stack < 12) && decide (pc < 32)
  | .endPacket port pkt _ => decide (port < 4) && decide (64 ≤ pkt.length)
  | .result port pkt _ => decide (port < 4) && decide (64 ≤ pkt.length)
  | .verdictRecord port pkt _ => decide (port < 4) && decide (64 ≤ pkt.length)
  | .bushelDeadline _ => true
  | .resultTick _ => true
  | .bushelClose _ _ => true
  | .verdictForm _ => true
  | .verdictResolution _ => true
  | .mirror port pkt _ => decide (port < 4) && decide (64 ≤ pkt.length)
  | .landingCopyEnd => true
  | .landingBoundaryCheck => true
  | .promotion => true
  | .promoteNotice port pkt _ => decide (port < 4) && decide (64 ≤ pkt.length)
  | .stagingBegin => true
  | .stagingEnd _ => true
  | .generationCommit => true
  | .flashFailure _ => true
  | .exportStaging _ => true
  | .exportPacket port pkt _ => decide (port < 4) && decide (64 ≤ pkt.length)
  | .idle port pkt _ => decide (port < 4) && decide (64 ≤ pkt.length)
  | .linkInit port block => decide (port < 4) && block.length == 64
  | .egressSelect port _ => decide (port < 4)
  | .retryTimeout port => decide (port < 4)
  | .laneFault port lane => decide (port < 4) && decide (lane < 4)
  | .trainingEnd port lanes inverted _ => decide (port < 4) && decide (lanes < 16) && decide (inverted < 16)
  | .retrainEnd port lanes => decide (port < 4) && decide (lanes < 16)
  | .portRetryTimer port => decide (port < 4)
  | .commandPoll _ => true
  | .lockGrant _ _ => true
  | .lockWaitTimeout r _ => decide (r < 4)
  | .hostCompletion _ _ _ => true
  | .completionTimeout _ => true
  | .bar2Read _ _ => true
  | .bar2Write _ _ _ => true
  | .bar0BadAccess how _ => !(how.write && how.bar4)
  | .pmStateChange _ => true
  | .doeObject type _ => decide (type < 3)
  | .doeAbort => true
  | .getVersion => true
  | .getCapabilities => true
  | .negotiateAlgorithms => true
  | .getDigests => true
  | .getCertificate => true
  | .challenge => true
  | .getMeasurements => true
  | .keyExchange => true
  | .finish => true
  | .heartbeat => true
  | .keyUpdate => true
  | .endSession => true
  | .planBind ring _ => decide (ring < 4)
  | .planUnbind ring _ => decide (ring < 4)
  | .planCancel ring _ => decide (ring < 4)
  | .unbindAtBoundary => true
  | .kvTableSet ring _ => decide (ring < 4)
  | .kvCreate ring _ => decide (ring < 4)
  | .kvDestroy ring _ => decide (ring < 4)
  | .tickCfg ring _ => decide (ring < 4)
  | .yoyoTableSet ring _ => decide (ring < 4)
  | .poolAdd ring _ => decide (ring < 4)
  | .poolRemove ring _ => decide (ring < 4)
  | .poolList ring _ => decide (ring < 4)
  | .jobTableSet ring _ => decide (ring < 4)
  | .ownerMapRead ring _ => decide (ring < 4)
  | .ruleWrite ring _ => decide (ring < 4)
  | .ruleRead ring _ => decide (ring < 4)
  | .ruleCopy ring _ => decide (ring < 4)
  | .snapCfg ring _ => decide (ring < 4)
  | .snapNow ring _ => decide (ring < 4)
  | .snapRestore ring _ => decide (ring < 4)
  | .snapExport ring _ => decide (ring < 4)
  | .exportWindowOpen ring _ => decide (ring < 4)
  | .exportWindowClose ring _ => decide (ring < 4)
  | .mirrorPromote ring _ => decide (ring < 4)
  | .genList ring _ => decide (ring < 4)
  | .telRingSet ring _ => decide (ring < 4)
  | .telSelect ring _ => decide (ring < 4)
  | .telAlarmClear ring _ => decide (ring < 4)
  | .coreFence ring _ => decide (ring < 4)
  | .fenceBegin die c => decide (die < 2) && decide (c < 64)
  | .coreUnfence ring _ => decide (ring < 4)
  | .coreSpareRow ring _ => decide (ring < 4)
  | .coreSubstitute ring _ => decide (ring < 4)
  | .coreTest ring _ fails => decide (ring < 4) && fails.all (fun r => decide (r < 130))
  | .laneRecal ring _ good => decide (ring < 4) && decide (good < 16)
  | .pllRelock ring => decide (ring < 4)
  | .relockEnd pll _ => decide (pll < 9)
  | .rowRepair ring _ => decide (ring < 4)
  | .flashRetire ring _ => decide (ring < 4)
  | .fwStage ring _ => decide (ring < 4)
  | .fwActivate ring _ => decide (ring < 4)
  | .fwSwitch k => decide (k < 10)
  | .cfgArm ring _ _ => decide (ring < 4)
  | .cfgDisarm ring _ => decide (ring < 4)
  | .cfgCopy ring _ => decide (ring < 4)
  | .cfgValidate ring _ _ => decide (ring < 4)
  | .configSwap => true
  | .roleCfg ring _ => decide (ring < 4)
  | .auditRead ring _ => decide (ring < 4)
  | .makerFuse ring _ => decide (ring < 4)
  | .makerCal ring _ => decide (ring < 4)
  | .bootWrite ring _ => decide (ring < 4)
  | .svnAdvance ring _ => decide (ring < 4)
  | .rootRotate ring _ => decide (ring < 4)
  | .certWrite ring _ => decide (ring < 4)
  | .pwrCap ring _ => decide (ring < 4)
  | .pwrRange ring _ => decide (ring < 4)
  | .clkSource ring _ => decide (ring < 4)
  | .ringEnable r v _ => decide (r < 4) && decide (v < 2 ^ 32)
  | .ringDisable r v _ => decide (r < 4) && decide (v < 2 ^ 32)
  | .readIndexWrite v _ => decide (v < 2 ^ 64)
  | .srcSelWrite v _ => decide (v < 2 ^ 32)
  | .registerWrite off v _ => decide (off < 0x4000000) && decide (v < 2 ^ 64)
  | .lowHalfRead off _ _ => decide (off < 0x4000000)
  | .highHalfRead off _ => decide (off < 0x4000000)
  | .lowHalfWrite off v _ => decide (off < 0x4000000) && decide (v < 2 ^ 32)
  | .highHalfWrite off v _ => decide (off < 0x4000000) && decide (v < 2 ^ 32)
  | .moduleReset badStacks fails =>
    decide (badStacks < 4096) && fails.all (fun x => decide (x.1 < 256) && x.2.all (fun r => decide (r < 130)))
  | .dieReset die => decide (die < 2)
  | .dieResetEnd die fails =>
    decide (die < 2) && fails.all (fun x => decide (x.1 < 256) && x.2.all (fun r => decide (r < 130)))
  | .engineReset => true
  | .resetN badStacks fails =>
    decide (badStacks < 4096) && fails.all (fun x => decide (x.1 < 256) && x.2.all (fun r => decide (r < 130)))
  | .perstN _ => true
  | .powerGood _ badStacks fails =>
    decide (badStacks < 4096) && fails.all (fun x => decide (x.1 < 256) && x.2.all (fun r => decide (r < 130)))
  | .inputSag => true
  | .inputLoss => true
  | .inputSurge => true
  | .overvoltage _ => true
  | .inputLow _ => true
  | .inputReturn badStacks fails =>
    decide (badStacks < 4096) && fails.all (fun x => decide (x.1 < 256) && x.2.all (fun r => decide (r < 130)))
  | .holdup => true
  | .holdupClockStop => true
  | .holdupFlashStop => true
  | .journalTail => true
  | .holdupDone => true
  | .budgetMark _ _ _ die0 die1 logic hub _ _ _ _ _ _ =>
    die0.length == 16 && die1.length == 16 && logic.length == 12 && hub.length == 4
  | .capUnreachable => true
  | .thermalTrip => true
  | .coolantCondition which _ => decide (which < 4)
  | .railFault rail => decide (rail < 16)
  | .referenceLoss pll => decide (pll < 9)
  | .xbLost => true
  | .installNEdge _ _ => true
  | .presenceButton _ _ => true
  | .presenceWindowEnd => true
  | .sealBreak => true
  | .i3cOffsetWrite bs => bs.length == 3
  | .i3cRegisterRead => true
  | .setdasa fixed dyn => decide (fixed < 128) && decide (dyn < 128)
  | .entdaa dyn => decide (dyn < 128)
  | .telemetryRecord => true
  | .shedLevelFall => true
  | .summary _ => true
  | .converterStop => true
  | .configurationRequest kind off _ v => decide (kind < 3) && decide (off < 4096) && decide (v < 2 ^ 32)
  | .pcieLinkTrained gen width => decide (1 ≤ gen) && decide (gen ≤ 7) && [1, 2, 4, 8, 16].contains width

end Sys2Proof
end

