-- ==== Sys2Proof/Certificates/Slice0/Obligations.lean ====
section
/-!
DEFINITION. Certificates/Slice0/Obligations.lean: the statements to be proved. A command that has its effect answers a
next state, and `Completes` says what holds of it.
-/

open Sys2Proof Sys2Proof.Machine

namespace Sys2Proof.Machine

/-- The command answers a next state, of which `P` holds. -/
def Completes (i : Instr) (s : State) (P : State → Prop) : Prop := ∃ t, exec i s = .next t ∧ P t

/-- A register that counted `n` (R459): it saturates at its top. -/
def Counted (off n : Nat) (s t : State) : Prop := t.reg off = capAt (regTop off) (s.reg off + n)

/-- The flag of a register. -/
def State.flag (s : State) (off i : Nat) : Bool := bitOf (s.reg off) i

end Sys2Proof.Machine

/-! ## The queue and the outcomes -/

/-- A step takes the command at the front of the queue and executes it on the state with the queue's rest. -/
def Obligations.StepRunsFront : Prop :=
  ∀ (c : Instr) (rest : List Instr) (s : State),
    step { s with pending := c :: rest } = exec c { s with pending := rest }

/-- On an empty queue the module idles: the model's choice (log 1). -/
def Obligations.EmptyQueueIdles : Prop := ∀ s : State, s.pending = [] → step s = .next s

/-- No command changes the queue of those that wait behind it. -/
def Obligations.QueueKept : Prop := ∀ (c : Instr) (s t : State), exec c s = .next t → t.pending = s.pending

/-- Every command of every state answers a next state, but an OVERVOLTAGE beyond the absolute maximum ratings, for which
the spec gives no behaviour (R381): that one, and only that one, ends in a fault. -/
def Obligations.OnlyOvervoltageFaults : Prop :=
  ∀ (c : Instr) (s : State),
    (∃ v : Int, c = .overvoltage v ∧ (100 < v ∨ v < -100) ∧ exec c s = .fault .absoluteMaximum) ∨
    ((∀ v : Int, c = .overvoltage v → -100 ≤ v ∧ v ≤ 100) ∧ ∃ t, exec c s = .next t)

/-! ## The input, hold-up, rails and clocks -/

/-- R381: a sag is counted and flagged; a permitted surge is flagged; the input in the band from 56 V to 60 V sets
INPUT_LOW and clears INPUT_OK, above it the reverse, and the reading stands in PWR.INPUT. -/
def Sys2Proof.Machine.Says.InputEventsReported : Prop :=
  ∀ s : State, s.running = true →
    Completes .inputSag s (fun t => t.flag rPwrStatus 2 = true ∧ Counted rPwrCtrSAGS 1 s t) ∧
    Completes .inputSurge s (fun t => t.flag rPwrStatus 3 = true) ∧
    ∀ volts, 5600 ≤ volts → volts ≤ 8000 → Completes (.inputLow volts) s (fun t =>
      t.flag rPwrStatus 1 = decide (volts < 6000) ∧ t.flag rPwrStatus 0 = decide (6000 ≤ volts) ∧
      t.field rPwrInput 15 0 = volts)

/-- R299 and R381: hold-up goes from loss of the input, or an overvoltage within the ratings, through its stages in order,
and nothing else moves it on. What each stage reports is stated with it: at 10 µs HOLDUP is set and every running packet
stops with no record; at 100 µs the links are down; at 10 ms HOLDUP_DONE is set. -/
def Sys2Proof.Machine.Says.HoldupSequence : Prop :=
  ∀ s : State,
    (s.running = true → Completes .inputLoss s (fun t => t.halt.stage = 1 ∧ t.halt.cause = 1 ∧ t.reg rPwrLastHalt = 1 ∧
      t.flag rPwrStatus 0 = false ∧ t.flag rPwrStatus 1 = false)) ∧
    (∀ v : Int, s.running = true → 80 < v → v ≤ 100 → Completes (.overvoltage v) s (fun t =>
      t.halt.stage = 1 ∧ t.halt.cause = 2 ∧ t.halt.switchOpen = true ∧ t.reg rPwrLastHalt = 2 ∧
      t.flag rPwrStatus 0 = false)) ∧
    (s.halt.stage = 1 → Completes .holdup s (fun t => t.halt.stage = 2 ∧ t.flag rSnapStatus snapHoldup = true ∧
      ∀ e, t.run e = none)) ∧
    (s.halt.stage = 2 → Completes .holdupClockStop s (fun t => t.halt.stage = 3 ∧
      ∀ p, p < 4 → (t.port p).state = 0 ∨ (t.port p).state = 4)) ∧
    (s.halt.stage = 3 → Completes .holdupFlashStop s (fun t => t.halt.stage = 4 ∧ t.snap.staging = none ∧
      t.snap.drain = none ∧ t.snap.gens = s.snap.gens)) ∧
    (s.halt.stage = 4 → Completes .journalTail s (fun t => t.halt.stage = 5)) ∧
    (s.halt.stage = 5 → Completes .holdupDone s (fun t => t.halt.stage = 6 ∧ t.flag rSnapStatus snapHoldupDone = true)) ∧
    (s.halt.stage = 6 → Completes .converterStop s (fun t => t.halt.powerGood = false))


namespace Sys2Proof.Machine

/-- One byte of device memory. -/
def State.byte (s : State) (a : Nat) : Byte := Tbl.get memDefault s.mem a

/-- Every byte of device memory outside `n` bytes at `a` is as it was. -/
def OnlyBytes (a n : Nat) (s t : State) : Prop := ∀ x, x < a ∨ a + n ≤ x → t.byte x = s.byte x

/-- Every byte of device memory is as it was. -/
def SameMem (s t : State) : Prop := ∀ x, t.byte x = s.byte x

/-- Every register is as it was, but those named. -/
def OnlyRegs (l : List Nat) (s t : State) : Prop := ∀ off, off ∉ l → t.reg off = s.reg off

/-- An entry of a kind went into the audit log, with the tick in force; a checkpoint may have followed it (R413, R414). -/
def Audited (kind : Nat) (s t : State) : Prop :=
  ∃ e, (t.sec.entries.getLast? = some e ∨ t.sec.entries.dropLast.getLast? = some e) ∧
    fieldAt e 0x18 2 = kind ∧ fieldAt e 8 8 = s.tick.now.toNat

/-- What a reset of the module leaves, whatever its cause: what R399 says is lost, what it says is kept, and where R394
ends, with a boot image that R395 accepts and without one. -/
def Restarted (cause : Nat) (cold : Bool) (s t : State) : Prop :=
  t.reg rHubResetCause = cause ∧ t.field rHubReady 3 0 = (if s.bootChoice.isSome then 6 else 7) ∧
  t.mem = [] ∧ t.badWords = [] ∧ t.binding = {} ∧ t.engines = [] ∧ t.kvTable = none ∧ t.host.extents = [] ∧
  t.snap.ownerMap = [] ∧ (∀ r, r < 4 → t.reg (rCmdCFG r) = 0x10) ∧ t.tick.now = 0#64 ∧ t.budget = {} ∧
  t.snap.gens = s.snap.gens ∧ t.snap.retired = s.snap.retired ∧ t.inst = s.inst ∧ t.nvm.repair = s.nvm.repair ∧
  t.reg rPwrLastHalt = s.reg rPwrLastHalt ∧ (cold = false → t.reg rClkRtc = s.reg rClkRtc) ∧
  (s.bootChoice.isSome = true → t.tick.first = true)

end Sys2Proof.Machine

/-! ## Resets -/

/-- The module right after reset, by the reset values of spec/26 and of the blocks: the tick period is 1,000 µs (R27), each
die holds 8 of the 16 budget tokens, the fabric ID is unassigned, no ring runs, and nothing is bound. -/
def Obligations.ResetState : Prop :=
  State.reset.pending = [] ∧ State.reset.tick.period = 1000 ∧ State.reset.tick.now = 0#64 ∧
  State.reset.budget.held0 = 8 ∧ State.reset.budget.held1 = 8 ∧ State.reset.budget.free = 0 ∧
  State.reset.reg rHubFabricId = 0xFFFF ∧ State.reset.reg rHubReady = 0 ∧ State.reset.binding.active = none ∧
  (∀ r, r < 4 → State.reset.reg (rCmdCFG r) = 0x10) ∧ (∀ p, p < 4 → (State.reset.port p).state = 0) ∧
  State.reset.tel.traceSel = 0 ∧ State.reset.tel.logSel = 0xF ∧ Memory.wf State.reset.mem = true

/-- R394, R399, R400: power good, a due reset by HUB.RESET or after a halt, RESET_N, and the return of the input after
hold-up each restart the whole module with their own cause; an input that returns before hold-up has ended only waits. -/
def Sys2Proof.Machine.Says.ModuleResetsRestart : Prop :=
  ∀ (s : State) (bad : Nat) (fails : List (Nat × List Nat)),
    (∀ broken, s.halt.powerGood = false → Completes (.powerGood broken bad fails) s (fun t =>
      Restarted 0 true s t ∧ t.nvm.sealFuse = (s.nvm.sealFuse || broken))) ∧
    (∀ cause, s.resetDue = some cause → Completes (.moduleReset bad fails) s (Restarted cause false s)) ∧
    (s.halt.powerGood = true → s.halt.stage = 0 ∨ s.halt.stage = 6 →
      Completes (.resetN bad fails) s (Restarted 4 false s)) ∧
    (s.halt.powerGood = true → s.halt.cause = 1 ∨ s.halt.cause = 2 → s.halt.stage = 6 →
      Completes (.inputReturn bad fails) s (Restarted s.halt.cause false s)) ∧
    (s.halt.powerGood = true → s.halt.cause = 1 ∨ s.halt.cause = 2 → s.halt.stage ≠ 0 → s.halt.stage ≠ 6 →
      Completes (.inputReturn bad fails) s (fun t => t.halt.returned = true ∧ t.halt.stage = s.halt.stage))

/-- R399 and R401: a die reset that HUB.RESET asked for empties the die's shared memory and stops every engine of it, and
leaves every other byte as it was; while a plan is active or armed it is refused. Its end serves the die again. -/
def Sys2Proof.Machine.Says.DieResets : Prop :=
  ∀ (s : State) (die : Nat), die < 2 →
    (s.halt.stage = 0 → bitOf s.resetReq 0 = false → bitOf s.resetReq (1 + die) = true → s.binding.active = none →
      s.binding.armed = none → Completes (.dieReset die) s (fun t =>
        listGet false t.dieReset die = true ∧ bitOf t.resetReq (1 + die) = false ∧
        (∀ e, engDie e = die → t.run e = none) ∧ Audited 5 s t ∧
        (∀ a, shmBase die ≤ a → a < shmBase (die + 1) → t.byte a = memDefault a) ∧
        (∀ a, a < shmBase die ∨ shmBase (die + 1) ≤ a → t.byte a = s.byte a))) ∧
    (s.halt.stage = 0 → bitOf s.resetReq 0 = false → bitOf s.resetReq (1 + die) = true →
      s.binding.active.isSome = true ∨ s.binding.armed.isSome = true → Completes (.dieReset die) s (fun t =>
        t.flag rHubResetStatus 0 = true ∧ t.engines = s.engines ∧ SameMem s t)) ∧
    (∀ fails, listGet false s.dieReset die = true → Completes (.dieResetEnd die fails) s (fun t =>
      listGet false t.dieReset die = false ∧ SameMem s t))

/-- R399 and R401: an engine reset that HUB.RESET asked for stops the engine's packet, on both streams of a matrix core, and
is entered in the audit log; for an identifier that names no engine, and for a Yo-yo or the hub transfer engine, it is
refused. -/
def Sys2Proof.Machine.Says.EngineResets : Prop :=
  ∀ (s : State), s.halt.stage = 0 → bitOf s.resetReq 0 = false → bitOf s.resetReq 3 = true →
    (isEngine (s.reg rHubResetEngine) = true → engClass (s.reg rHubResetEngine) ≠ 8 →
      engClass (s.reg rHubResetEngine) ≠ 9 → Completes .engineReset s (fun t =>
        t.run (s.reg rHubResetEngine) = none ∧ bitOf t.resetReq 3 = false ∧ Audited 5 s t ∧
        (engClass (s.reg rHubResetEngine) = 1 ∨ engClass (s.reg rHubResetEngine) = 2 →
          t.run (engineId 1 (engDie (s.reg rHubResetEngine)) (engInst (s.reg rHubResetEngine))) = none ∧
          t.run (engineId 2 (engDie (s.reg rHubResetEngine)) (engInst (s.reg rHubResetEngine))) = none))) ∧
    (isEngine (s.reg rHubResetEngine) = false ∨ engClass (s.reg rHubResetEngine) = 8 ∨
      engClass (s.reg rHubResetEngine) = 9 → Completes .engineReset s (fun t =>
        t.flag rHubResetStatus 0 = true ∧ t.engines = s.engines ∧ SameMem s t))

/-! ## Clocks, rails, the thermal trip -/

/-- R375, R376, R379: the loss of a reference is shown as coasting and latched as lost, and counted; at the SerDes PLL every
port that is not disabled goes down, at the PCIe PLL the link. Loss of XB stops the real-time count. -/
def Sys2Proof.Machine.Says.ReferencesLost : Prop :=
  ∀ s : State,
    (∀ pll, pll < 9 → s.coasting pll = false → Completes (.referenceLoss pll) s (fun t =>
      t.coasting pll = true ∧ t.flag rClkStatus (9 + pll) = true ∧ Counted rClkLosses 1 s t ∧
      (pll = 7 → ∀ p, p < 4 → (t.port p).state = 0 ∨ (t.port p).state = 4) ∧
      (pll = 8 → t.reg rPcieStatus % 1024 = 0 ∧ t.host.reads = []))) ∧
    Completes .xbLost s (fun t => t.clk.rtcStopped = true ∧ t.flag rClkStatus 18 = true)

/-- R369, R377, R378: a re-lock in progress ends, with the PLL coasting exactly when no edge of its source came; one that a
swap fell on meanwhile starts anew. -/
def Sys2Proof.Machine.Says.RelockEnds : Prop :=
  ∀ (s : State) (pll : Nat) (found : Bool) (x : Relock), pll < 9 →
    s.clk.running.find? (fun r => r.pll == pll) = some x → x.ring = none →
    Completes (.relockEnd pll found) s (fun t => t.coasting pll = !found ∧
      ((x.again = false → ∀ r ∈ t.clk.relocks, r.pll ≠ pll) ∧
       (x.again = true → ({ pll := pll } : Relock) ∈ t.clk.relocks)))

/-- R387 to R390: a rail that fails is shown off; a die's rail fences its cores, the hub's begins the halt. A thermal trip
goes into the halt from its 10 µs step, with every packet stopped and no record. A coolant condition is shown while it
holds. -/
def Sys2Proof.Machine.Says.RailsAndHeat : Prop :=
  ∀ s : State, s.running = true →
    (∀ rail, rail < 15 → Completes (.railFault rail) s (fun t => t.flag rPwrRailOff rail = true ∧
      (∀ c, rail < 2 → c < 64 → (t.core (coreKey rail c)).fenced = true))) ∧
    Completes (.railFault 15) s (fun t => t.halt.stage = 1 ∧ t.halt.cause = 4 ∧ t.reg rPwrLastHalt = 4) ∧
    Completes .thermalTrip s (fun t => t.halt.stage = 2 ∧ t.halt.cause = 3 ∧ t.reg rPwrLastHalt = 3 ∧
      t.flag rSnapStatus snapHoldup = true ∧ ∀ e, t.run e = none) ∧
    (∀ which on, which < 4 → Completes (.coolantCondition which on) s (fun t => t.flag rPwrStatus (9 + which) = on))

namespace Sys2Proof.Machine

/-- The commands that may move budget tokens: a mark, and a reset of the module. -/
def Instr.movesTokens : Instr → Bool
  | .budgetMark .. | .powerGood .. | .moduleReset .. | .resetN .. | .inputReturn .. => true
  | _ => false

end Sys2Proof.Machine

/-- R384: when P still exceeds the cap 10 ms (100 marks) after both dies have come to hold one token each, CAP_UNREACHABLE
is set and the alarm raised; no token moves, now or at any other command but a mark or a reset of the module. -/
def Sys2Proof.Machine.Says.CapUnreachable : Prop :=
  (∀ s : State, s.running = true → s.mon.overMarks = 101 → s.mon.above = true →
    Completes .capUnreachable s (fun t => t.flag rPwrStatus 5 = true ∧ t.budget = s.budget ∧
      bitOf ((t.src srcPwr).codes.toNat) 0x24 = true)) ∧
  (∀ (c : Instr) (s t : State), exec c s = .next t → Instr.movesTokens c = false → t.budget = s.budget)

/-- R383, R387, R429: at a mark the memory errors met since the last are taken in (a record of the collector may already have replaced a
word), and each die gives up one token while P exceeds the cap, a sensor of it reads above 100 °C or it holds
more than its limit, but keeps its last; it takes one back after ten marks in a row with P more than 2 % below the cap, while
its sensors read below 95 °C and its limit allows it. -/
def Sys2Proof.Machine.Says.BudgetMarkMovesTokens : Prop :=
  ∀ (s : State) (power volts amps : Nat) (die0 die1 logic hub : List Int) (inlet outlet : Int) (joules xb throttle tclk fixed : Nat) (bad : List Nat),
    s.running = true → someOpen 16 die0 = false → someOpen 16 die1 = false → someOpen 2 [inlet, outlet] = false →
    s.mon.dieOpen = [false, false] → s.mon.coolOpen = false → s.field rPwrStatus 11 9 = 0 →
    Completes (.budgetMark power volts amps die0 die1 logic hub inlet outlet joules xb throttle ⟨tclk, fixed, bad⟩) s (fun t =>
      Counted rTelCtrMEMCORRECTED fixed s t ∧
      (s.tel.level ≠ 0 ∨ s.ringFree = 0 → ∀ w ∈ bad, w % 32 = 0 → inMem w 32 = true → w ∈ t.badWords) ∧
      (1000 * s.act rPwrCap < power → 1 < s.budget.held0 → t.budget.held0 = s.budget.held0 - 1) ∧
      (1000 * s.act rPwrCap < power → 1 < s.budget.held1 → t.budget.held1 = s.budget.held1 - 1) ∧
      (s.budget.held0 = 1 → power ≤ 1000 * s.act rPwrCap → s.mon.lowMarks < 9 → t.budget.held0 = 1) ∧
      (s.budget.held0 < 8 → power * 100 < 1000 * s.act rPwrCap * 98 → 9 ≤ s.mon.lowMarks →
        hotterThan 1519 (hottest (die0.take 16 ++ answering 6 (logic.take 6))) = false →
        t.budget.held0 = s.budget.held0 + 1) ∧
      (s.budget.held1 < 8 → power * 100 < 1000 * s.act rPwrCap * 98 → 9 ≤ s.mon.lowMarks →
        hotterThan 1519 (hottest (die1.take 16 ++ answering 6 ((logic.drop 6).take 6))) = false →
        t.budget.held1 = s.budget.held1 + 1))

/-! ## Presence, the seal, I3C -/

/-- R402, R405, R414: the strap and the button report their edges, each entered in the audit log, or counted where the
buffer of entries is full; a press ends the window, a release starts 60 s of it, the window ends; a broken seal burns its
fuse for good. -/
def Sys2Proof.Machine.Says.PresenceEvents : Prop :=
  ∀ s : State, s.halt.powerGood = true →
    (∀ low full, s.sec.strapLow ≠ low → Completes (.installNEdge low full) s (fun t => t.sec.strapLow = low ∧
      (full = false → Audited 7 s t) ∧ (full = true → Counted rSecCtrPRESENCECOALESCED 1 s t))) ∧
    (∀ full, s.sec.pressed = false → Completes (.presenceButton true full) s (fun t =>
      t.sec.pressed = true ∧ t.sec.window = false)) ∧
    (∀ full, s.sec.pressed = true → Completes (.presenceButton false full) s (fun t => t.sec.pressed = false ∧
      t.sec.window = true ∧ t.sec.windowLeft = 60 * 50000000 ∧ (full = false → Audited 7 s t) ∧
      (full = true → Counted rSecCtrPRESENCECOALESCED 1 s t))) ∧
    (s.sec.window = true → Completes .presenceWindowEnd s (fun t => t.sec.window = false ∧ t.sec.windowLeft = 0)) ∧
    (s.nvm.sealFuse = false → Completes .sealBreak s (fun t => t.nvm.sealFuse = true ∧ Audited 3 s t))

/-- R453: with a dynamic address the target takes an offset by a private write of 3 bytes, and a private read returns the
32-bit register there, 0 outside the HUB, PWR and SEC blocks, and moves on by 8; without one it takes the address that
SETDASA to 0x52, or ENTDAA, assigns. No register and no memory changes. -/
def Sys2Proof.Machine.Says.I3cTarget : Prop :=
  ∀ s : State, s.i3cOn = true →
    (∀ bs, s.i3c.dyn.isSome = true → bs.length = 3 → Completes (.i3cOffsetWrite bs) s (fun t =>
      t.i3c.offset = leNat bs ∧ t.regs = s.regs ∧ t.mem = s.mem)) ∧
    (s.i3c.dyn.isSome = true → Completes .i3cRegisterRead s (fun t =>
      t.readBytes = leBytes 4 (if i3cServed s.i3c.offset then (s.read32 s.i3c.offset).2 else 0) ∧
      t.i3c.offset = (s.i3c.offset + 8) % 2 ^ 24 ∧ t.regs = s.regs ∧ t.mem = s.mem)) ∧
    (∀ a, s.i3c.dyn = none → i3cAddress a = true → Completes (.setdasa 0x52 a) s (fun t =>
      t.i3c.dyn = some a ∧ t.regs = s.regs ∧ t.mem = s.mem)) ∧
    (∀ a, s.i3c.dyn = none → i3cAddress a = true → Completes (.entdaa a) s (fun t =>
      t.i3c.dyn = some a ∧ t.regs = s.regs ∧ t.mem = s.mem))


/-! ## The endpoint -/

/-- R321, R339, R396, R397: PERST_N resets the endpoint alone: every ring's ENABLE is cleared and what is outstanding with
the host fails, while plan, ticks and memory stay; its release starts training, which ends at a generation and a width.
D3hot is shown. -/
def Sys2Proof.Machine.Says.EndpointLink : Prop :=
  ∀ s : State,
    Completes (.perstN true) s (fun t => t.pcie.perst = true ∧ t.host.reads = [] ∧
      (∀ r, r < 4 → t.flag (rCmdCFG r) 0 = false) ∧ t.reg rPcieStatus % 1024 = 0 ∧ t.binding = s.binding ∧
      t.tick = s.tick ∧ SameMem s t) ∧
    (s.pcie.perst = true → Completes (.perstN false) s (fun t => t.pcie.perst = false ∧ t.pcie.training = true ∧
      t.regs = s.regs ∧ SameMem s t)) ∧
    (∀ gen width, s.pcie.training = true → s.coasting 8 = false → s.halt.stage < 2 → 1 ≤ gen → gen ≤ 7 →
      width ∈ [1, 2, 4, 8, 16] → Completes (.pcieLinkTrained gen width) s (fun t =>
        t.field rPcieStatus 2 0 = gen ∧ t.field rPcieStatus 7 3 = width ∧ t.flag rPcieStatus 8 = decide (6 ≤ gen) ∧
        t.pcie.training = false ∧ OnlyRegs [rPcieStatus] s t)) ∧
    (∀ d, Completes (.pmStateChange d) s (fun t => t.flag rPcieStatus 9 = d ∧ OnlyRegs [rPcieStatus] s t ∧ SameMem s t))

/-- R321, R323, R324, R396: configuration requests set and return the size of BAR2 and the completion timeout, and return some
value for any other register, with 0x120000 as the class code, which stands where the Type 0 header has it (log 9); before
READY they carry no data. -/
def Sys2Proof.Machine.Says.ConfigurationRequests : Prop :=
  ∀ s : State, s.pcie.perst = false →
    (s.configReady = true →
      (∀ off v, 30 ≤ v → v ≤ 41 → Completes (.configurationRequest 1 off true v) s (fun t => t.pcie.bar2Log2 = v)) ∧
      (∀ off v, v ∈ [0, 1, 2, 5, 6, 9, 10, 13, 14] → Completes (.configurationRequest 2 off true v) s (fun t =>
        t.pcie.cto = v)) ∧
      (∀ off v, Completes (.configurationRequest 1 off false v) s (fun t => t.readBytes = leBytes 4 s.pcie.bar2Log2 ∧
        t.regs = s.regs)) ∧
      (∀ off v, Completes (.configurationRequest 2 off false v) s (fun t => t.readBytes = leBytes 4 s.pcie.cto)) ∧
      (∀ off v, Completes (.configurationRequest 0 off false v) s (fun t => t.readBytes.length = 4 ∧ t.regs = s.regs)) ∧
      (∀ v, Completes (.configurationRequest 0 8 false v) s (fun t => leNat t.readBytes / 256 = 0x120000))) ∧
    (s.configReady = false → ∀ sel off write v, Completes (.configurationRequest sel off write v) s (fun t =>
      t.readBytes = [] ∧ t.pcie = s.pcie ∧ t.regs = s.regs))

/-- R326, R429: a BAR2 read inside the window returns the bytes at BAR2_BASE plus its offset; outside stack and shared
memory it returns zeros and is counted; where a word reads with an error it returns none, and no read changes memory. -/
def Sys2Proof.Machine.Says.Bar2Reads : Prop :=
  ∀ (s : State) (off n : Nat), 1 ≤ n → off + n ≤ 2 ^ s.pcie.bar2Log2 →
    Completes (.bar2Read off n) s (fun t => SameMem s t ∧
      (inMem (s.reg rPcieBar2Base + off) n = true → s.badRange (s.reg rPcieBar2Base + off) n = false →
        t.readBytes = s.peek (s.reg rPcieBar2Base + off) n ∧ Counted rPcieCtrTXBYTES n s t) ∧
      (inMem (s.reg rPcieBar2Base + off) n = false →
        t.readBytes = List.replicate n 0#8 ∧ Counted rPcieCtrBAR2OUTSIDE 1 s t) ∧
      (inMem (s.reg rPcieBar2Base + off) n = true → s.badRange (s.reg rPcieBar2Base + off) n = true →
        t.readBytes = [] ∧ Counted rTelCtrMEMUNCORRECTABLE 1 s t))

/-- R326, R321, R429: a BAR2 write puts its bytes at BAR2_BASE plus its offset and nowhere else; outside stack and shared
memory it is dropped and counted; one that covers a word in error only in part is dropped; a poisoned one is discarded; and
one into a region that is being staged is held. -/
def Sys2Proof.Machine.Says.Bar2Writes : Prop :=
  ∀ (s : State) (off : Nat) (bs : List Byte), bs ≠ [] → off + bs.length ≤ 2 ^ s.pcie.bar2Log2 →
    (inMem (s.reg rPcieBar2Base + off) bs.length = true → s.partialBad (s.reg rPcieBar2Base + off) bs.length = [] →
      s.heldAt (s.reg rPcieBar2Base + off) bs.length = false →
      (s.reg rPcieBar2Base + off < stackEnd → s.stackDead (stackOf (s.reg rPcieBar2Base + off)).1 = false) →
      Completes (.bar2Write off bs false) s (fun t =>
        t.peek (s.reg rPcieBar2Base + off) bs.length = bs ∧ OnlyBytes (s.reg rPcieBar2Base + off) bs.length s t ∧
        Counted rPcieCtrRXBYTES bs.length s t ∧ OnlyRegs [rPcieCtrRXBYTES] s t)) ∧
    (inMem (s.reg rPcieBar2Base + off) bs.length = true → s.partialBad (s.reg rPcieBar2Base + off) bs.length = [] →
      s.heldAt (s.reg rPcieBar2Base + off) bs.length = true → Completes (.bar2Write off bs false) s (fun t =>
        SameMem s t ∧ t.snap.held = s.snap.held ++ [{ addr := s.reg rPcieBar2Base + off, bytes := bs }])) ∧
    (inMem (s.reg rPcieBar2Base + off) bs.length = false → Completes (.bar2Write off bs false) s (fun t =>
      SameMem s t ∧ Counted rPcieCtrBAR2OUTSIDE 1 s t)) ∧
    (inMem (s.reg rPcieBar2Base + off) bs.length = true → s.partialBad (s.reg rPcieBar2Base + off) bs.length ≠ [] →
      Completes (.bar2Write off bs false) s (fun t => SameMem s t ∧ Counted rTelCtrMEMUNCORRECTABLE 1 s t)) ∧
    Completes (.bar2Write off bs true) s (fun t => t = s)

/-- Every memory operation of BAR2 keeps device memory in its canonical form. -/
def Sys2Proof.Machine.Says.Bar2KeepsMemoryForm : Prop :=
  ∀ (s t : State) (off : Nat) (bs : List Byte) (poisoned : Bool), Memory.wf s.mem = true →
    exec (.bar2Write off bs poisoned) s = .next t → Memory.wf t.mem = true

/-- R327, R411: a DOE object of the discovery protocol is answered at once; an SPDM request of R411 is taken in hand, in a
session once its record opens under the requester's key (log 9); any other SPDM message is answered with the error
UnsupportedRequest; one longer than 64 KiB sets the DOE Error bit. An abort discards what is in hand. No register and no memory
changes. -/
def Sys2Proof.Machine.Says.DoeObjects : Prop :=
  ∀ s : State, s.configReady = true →
    (s.pcie.doe = [] →
      (∀ bs, bs.length ≤ 65536 → Completes (.doeObject 0 bs) s (fun t => t.pcie.doeReply = doeDiscovery bs ∧
        t.pcie.doeWire = doeDiscovery bs ∧ t.pcie.doe = [] ∧ t.regs = s.regs ∧ t.mem = s.mem)) ∧
      (∀ bs, bs.length ≤ 65536 → fieldAt bs 1 1 ∈ spdmRequests → Completes (.doeObject 1 bs) s (fun t =>
        t.pcie.doe = bs ∧ t.pcie.doeType = 1 ∧ t.spdm = s.spdm ∧ t.regs = s.regs ∧ t.mem = s.mem)) ∧
      (∀ bs, bs.length ≤ 65536 → fieldAt bs 1 1 ∉ spdmRequests → Completes (.doeObject 1 bs) s (fun t =>
        t.pcie.doe = [] ∧ t.pcie.doeReply = bs.take 1 ++ [0x7F#8, 7#8, 0#8])) ∧
      (∀ bs q, bs.length ≤ 65536 → s.spdm.session.isSome = true → s.spdm.openRecord s.spdmV bs = some q →
        (fieldAt q 1 1 ∈ spdmRequests → Completes (.doeObject 2 bs) s (fun t =>
          t.pcie.doe = q ∧ t.pcie.doeType = 2 ∧ t.spdm.reqSeq = s.spdm.reqSeq + 1 ∧ t.regs = s.regs ∧ t.mem = s.mem)) ∧
        (fieldAt q 1 1 ∉ spdmRequests → Completes (.doeObject 2 bs) s (fun t =>
          t.pcie.doe = [] ∧ t.pcie.doeReply = q.take 1 ++ [0x7F#8, 7#8, 0#8]))) ∧
      (∀ bs, bs.length ≤ 65536 → s.spdm.session.isSome = true → s.spdm.openRecord s.spdmV bs = none →
        Completes (.doeObject 2 bs) s (fun t => t.pcie.doe = [] ∧ t.spdm = s.spdm ∧
          t.pcie.doeReply = leBytes 1 s.spdmV ++ [0x7F#8, 6#8, 0#8])) ∧
      (∀ bs, bs.length ≤ 65536 → s.spdm.session = none → Completes (.doeObject 2 bs) s (fun t => t.pcie.doe = [] ∧
        t.spdm = s.spdm ∧ t.pcie.doeReply = leBytes 1 s.spdmV ++ [0x7F#8, 2#8, 0#8])) ∧
      (∀ ty bs, 65536 < bs.length → Completes (.doeObject ty bs) s (fun t => t.pcie.doeError = true ∧ t.pcie.doe = []))) ∧
    Completes .doeAbort s (fun t => t.pcie.doe = [] ∧ t.pcie.doeReply = [] ∧ t.pcie.doeError = false ∧ t.regs = s.regs ∧
      t.mem = s.mem)

/-! ## Registers -/

namespace Sys2Proof.Machine

/-- A register that only holds what is written to it: no rule of its own beyond R11, none of a command ring, and, at this
moment, no presence or frozen set in its way. -/
structure PlainReg (s : State) (off : Nat) (r : RegRow) : Prop where
  listed : findReg off = some r
  served : s.served off = true
  open_ : r.inst = false
  free : ∀ i, r.cset = some i → s.setArmed i = false
  noRing : ringReg off = none
  noRule : off ∉ [rCmdCtrl, rTelReadIndex, rTelSrcSel, rHubReset, rYoyoCtrl 0, rYoyoCtrl 1]

/-- What R11 makes of a write of `v`: RW and SH bits take it, RW1C bits written with 1 are cleared, the others stay. -/
def written (r : RegRow) (old v : Nat) : Nat :=
  old - (old &&& (r.rw ||| r.sh)) + (v &&& (r.rw ||| r.sh)) -
    ((old - (old &&& (r.rw ||| r.sh)) + (v &&& (r.rw ||| r.sh))) &&& (v &&& r.w1c))

/-- Registers that a BAR0 access moves by its payload bytes (R340). -/
def busRegs (off : Nat) : List Nat := [off, rPcieCtrRXBYTES, rPcieCtrTXBYTES]

end Sys2Proof.Machine

/-- R11, R13: a whole write of a register gives its bits by their access types, changes no other register but the count of
received bytes, and no memory. -/
def Sys2Proof.Machine.Says.RegisterWriteApplies : Prop :=
  ∀ (s : State) (off v : Nat) (full bar : Bool) (r : RegRow), off % 8 = 0 → off ≠ rPcieCtrRXBYTES → PlainReg s off r →
    v < (if wideAt off then 2 ^ 64 else 2 ^ 32) →
    Completes (.registerWrite off v ⟨full, bar⟩) s (fun t =>
      t.reg off = written r (s.reg off) v ∧ OnlyRegs (busRegs off) s t ∧ SameMem s t ∧
      (bar = false → t.reg rPcieCtrRXBYTES = s.reg rPcieCtrRXBYTES) ∧
      (bar = true → Counted rPcieCtrRXBYTES (if full || wideAt off then 8 else 4) s t))

/-- R404: without presence a write of a register that only the installer may write is ignored, counted and shown, by
whichever path it comes. R355: one of an armed set is ignored and counted. -/
def Sys2Proof.Machine.Says.RegisterWriteIgnored : Prop :=
  ∀ (s : State) (off v : Nat) (full bar : Bool) (r : RegRow), off % 8 = 0 → findReg off = some r → s.served off = true →
    off ∉ [rPcieCtrRXBYTES, rSecCtrREGWRITESIGNORED, rSecStatus, rTelCtrSHWRITESIGNORED] →
    (r.inst = true → s.presence = false → Completes (.registerWrite off v ⟨full, bar⟩) s (fun t =>
      t.reg off = s.reg off ∧ Counted rSecCtrREGWRITESIGNORED 1 s t ∧ t.flag rSecStatus 5 = true ∧ SameMem s t)) ∧
    (∀ i, r.inst = false → r.cset = some i → s.setArmed i = true → Completes (.registerWrite off v ⟨full, bar⟩) s (fun t =>
      t.reg off = s.reg off ∧ Counted rTelCtrSHWRITESIGNORED 1 s t ∧ SameMem s t))

/-- R13: the low half of a wide register latches its high half, which a read of the high half returns whatever has become of
the register, once; a write of the low half is staged, and the write of the high half stores both. No read changes a
register but the count of sent bytes. -/
def Sys2Proof.Machine.Says.HalfAccesses : Prop :=
  ∀ (s : State) (off : Nat) (bar : Bool), off % 8 = 0 → wideAt off = true →
    Completes (.lowHalfRead off false bar) s (fun t => t.readData = BitVec.ofNat 64 (s.busReg off % 2 ^ 32) ∧
      t.latches.find? (fun l => l.1 == off) = some (off, BitVec.ofNat 32 (s.busReg off / 2 ^ 32)) ∧
      OnlyRegs [rPcieCtrTXBYTES] s t ∧ SameMem s t) ∧
    Completes (.lowHalfRead off true bar) s (fun t => t.readData = BitVec.ofNat 64 (s.busReg off) ∧
      t.latches.find? (fun l => l.1 == off) = none ∧ OnlyRegs [rPcieCtrTXBYTES] s t ∧ SameMem s t) ∧
    (∀ x, s.latches.find? (fun l => l.1 == off) = some (off, x) → Completes (.highHalfRead off bar) s (fun t =>
      t.readData = BitVec.ofNat 64 x.toNat ∧ t.latches.find? (fun l => l.1 == off) = none ∧
      OnlyRegs [rPcieCtrTXBYTES] s t ∧ SameMem s t)) ∧
    (s.latches.find? (fun l => l.1 == off) = none → Completes (.highHalfRead off bar) s (fun t =>
      t.readData = BitVec.ofNat 64 (s.busReg off / 2 ^ 32) ∧ OnlyRegs [rPcieCtrTXBYTES] s t ∧ SameMem s t)) ∧
    (∀ r v, PlainReg s off r → r.rw ≠ 0 → off ≠ rPcieCtrRXBYTES →
      Completes (.lowHalfWrite off v bar) s (fun t =>
        t.staging.find? (fun l => l.1 == off) = some (off, BitVec.ofNat 32 v) ∧ t.reg off = s.reg off ∧
        OnlyRegs [rPcieCtrRXBYTES] s t ∧ SameMem s t) ∧
      (∀ x, s.staging.find? (fun l => l.1 == off) = some (off, x) → Completes (.highHalfWrite off v bar) s (fun t =>
        t.reg off = written r (s.reg off) (x.toNat + v % 2 ^ 32 * 2 ^ 32) ∧ t.staging.find? (fun l => l.1 == off) = none ∧
        OnlyRegs (busRegs off) s t ∧ SameMem s t)))

/-- R325: an access to BAR0 of another size or alignment returns zeros or is ignored, and sets BAD_ACCESS; a read of BAR4 returns
zeros and sets nothing. Beyond that only the payload bytes are counted. -/
def Sys2Proof.Machine.Says.Bar0BadAccess : Prop :=
  ∀ (s : State) (n : Nat),
    (∀ write, Completes (.bar0BadAccess ⟨write, false⟩ n) s (fun t =>
      t.flag rPcieStatus 10 = true ∧ (write = false → t.readBytes = List.replicate n 0#8 ∧ Counted rPcieCtrTXBYTES n s t) ∧
      (write = true → t.readBytes = s.readBytes ∧ Counted rPcieCtrRXBYTES n s t) ∧
      OnlyRegs [rPcieStatus, rPcieCtrRXBYTES, rPcieCtrTXBYTES] s t ∧ SameMem s t)) ∧
    Completes (.bar0BadAccess ⟨false, true⟩ n) s (fun t =>
      t.readBytes = List.replicate n 0#8 ∧ Counted rPcieCtrTXBYTES n s t ∧ OnlyRegs [rPcieCtrTXBYTES] s t ∧ SameMem s t)

/-- R328: enabling a stopped ring with a legal size and aligned addresses starts it at head and tail 0 with a clear status, and no read
of an earlier slot goes on;
with an illegal one it stays off and CFG_ERR is set. Disabling it stops it at its next poll. -/
def Sys2Proof.Machine.Says.RingEnabling : Prop :=
  ∀ (s : State) (r v : Nat) (bar : Bool), r < 4 → s.served (rCmdCFG r) = true →
    (s.ringFixed r = false → bitOf v 1 = false → 4 ≤ bitsOf v 6 2 → bitsOf v 6 2 ≤ 16 → v < 2 ^ 32 →
      s.reg (rCmdSTATUSBASE r) % 64 = 0 → s.reg (rCmdBASE r) % 4096 = 0 → s.reg (rCmdHEADADDR r) % 8 = 0 →
      Completes (.ringEnable r v bar) s (fun t => t.flag (rCmdCFG r) 0 = true ∧ t.reg (rCmdHEAD r) = 0 ∧
        t.reg (rCmdTAIL r) = 0 ∧ t.reg (rCmdSTATUS r) = 0 ∧ (t.ring r).fetched = (s.ring r).fetched ∧
        HostRead.slots r ∉ t.host.reads ∧ SameMem s t)) ∧
    (s.ringFixed r = false → bitOf v 1 = false → bitsOf v 6 2 < 4 ∨ 16 < bitsOf v 6 2 → v < 2 ^ 32 →
      Completes (.ringEnable r v bar) s (fun t => t.flag (rCmdCFG r) 0 = false ∧ t.flag (rCmdSTATUS r) 4 = true)) ∧
    (s.flag (rCmdCFG r) 0 = true → v < 2 ^ 32 → Completes (.ringDisable r v bar) s (fun t => t.flag (rCmdCFG r) 0 = false ∧
      (t.ring r).stopping = true ∧ (t.ring r).fetched = (s.ring r).fetched ∧ SameMem s t))

/-- R211, R418, R426: a legal READ_INDEX is taken and an illegal one sets an error bit; SRC_SEL copies every counter and the
alarm latch of the source into the window; CTRL.SNAP copies a Yo-yo's 27 counters. -/
def Sys2Proof.Machine.Says.CollectorRegisters : Prop :=
  ∀ (s : State) (bar : Bool), s.field rHubReady 3 0 ≠ 7 →
    (∀ v, v < 2 ^ 64 → s.reg rTelReadIndex ≤ v → v ≤ s.reg rTelWriteIndex → Completes (.readIndexWrite v bar) s (fun t =>
      t.reg rTelReadIndex = v)) ∧
    (∀ v, v < 2 ^ 64 → v < s.reg rTelReadIndex ∨ s.reg rTelWriteIndex < v → Completes (.readIndexWrite v bar) s (fun t =>
      t.reg rTelReadIndex = s.reg rTelReadIndex ∧ t.flag rTelStatus 3 = true)) ∧
    (∀ x, x < 2 ^ 32 → Completes (.srcSelWrite x bar) s (fun t =>
      t.reg rTelWinTRACEEMITTED = capAt (regTop rTelWinTRACEEMITTED) (s.src x).trE ∧
      t.reg rTelWinTRACEWRITTEN = capAt (regTop rTelWinTRACEWRITTEN) (s.src x).trW ∧
      t.reg rTelWinTRACEDROPPED = capAt (regTop rTelWinTRACEDROPPED) (s.src x).trD ∧
      t.reg rTelWinLOGEMITTED = capAt (regTop rTelWinLOGEMITTED) (s.src x).loE ∧
      t.reg rTelWinLOGWRITTEN = capAt (regTop rTelWinLOGWRITTEN) (s.src x).loW ∧
      t.reg rTelWinLOGSUMMARISED = capAt (regTop rTelWinLOGSUMMARISED) (s.src x).loS ∧
      t.reg rTelWinLOGDROPPED = capAt (regTop rTelWinLOGDROPPED) (s.src x).loD ∧
      t.reg rTelWinALARMCODES = (s.src x).codes.toNat ∧ t.reg rTelSrcSel = x)) ∧
    (∀ d, d < 2 → s.served (rYoyoCtrl d) = true → Completes (.yoyoCtrlSnap d bar) s (fun t =>
      ∀ k, k < 27 → t.reg (rYoyoSnap d k) = s.reg (rYoyoCtrTAPRECEIVED d + 8 * k)))

/-! ## The telemetry collector -/

namespace Sys2Proof.Machine

/-- A plain write of `n` bytes at `a` takes effect at once: nothing holds it, no word of memory is in error, and its stack
runs. -/
def Clear (s : State) (a n : Nat) : Prop :=
  s.badWords = [] ∧ s.heldAt a n = false ∧ (a < stackEnd → s.stackDead (stackOf a).1 = false)

/-- Bytes stand at an address, and no other byte changed. -/
def Wrote (a : Nat) (bs : List Byte) (s t : State) : Prop := t.peek a bs.length = bs ∧ OnlyBytes a bs.length s t

/-- Where the next record goes (R418). -/
def State.nextSlot (s : State) : Nat := s.reg rTelRingBase + s.reg rTelWriteIndex % s.ringCap * 64

end Sys2Proof.Machine

/-- R418, R424, R425, R426: a queued record is written to the next slot of the ring, held back for its source's summary at
level 2, or dropped, by its class and the level in force; the source's count of emitted records moves as
the collector takes one (log 30), and a class that is dropped at the level is counted and nothing written. -/
def Sys2Proof.Machine.Says.CollectorPlacesRecords : Prop :=
  ∀ (s : State) (r : TelRec) (rest : List TelRec), s.tel.queue = r :: rest →
    (r.cls = 1 ∨ r.cls = 4 ∨ (r.cls = 2 ∧ s.tel.level ≤ 1) ∨ (r.cls = 3 ∧ s.tel.level = 0) → 0 < s.ringFree →
      s.reg rTelReadIndex ≤ s.reg rTelWriteIndex → s.reg rTelWriteIndex + 2 < 2 ^ 64 → Clear s s.nextSlot 64 →
      Completes .telemetryRecord s (fun t => t.tel.queue = rest ∧ s.reg rTelWriteIndex < t.reg rTelWriteIndex ∧
        t.peek s.nextSlot 64 = r.bytes ∧ OnlyBytes (s.reg rTelRingBase) (64 * s.ringCap) s t)) ∧
    (r.cls = 3 → s.tel.level ≠ 0 → Completes .telemetryRecord s (fun t => t.tel.queue = rest ∧
      (t.src r.source).trD = (s.src r.source).trD + 1 ∧ (t.src r.source).trE = (s.src r.source).trE + 1 ∧ t.regs = s.regs ∧ SameMem s t)) ∧
    (r.cls = 2 → s.tel.level = 2 → Completes .telemetryRecord s (fun t => t.tel.queue = rest ∧
      (t.src r.source).sumCount = (s.src r.source).sumCount + 1 ∧ (t.src r.source).loE = (s.src r.source).loE + 1 ∧ t.regs = s.regs ∧ SameMem s t)) ∧
    (r.cls = 2 → s.tel.level = 3 → Completes .telemetryRecord s (fun t => t.tel.queue = rest ∧
      (t.src r.source).loD = (s.src r.source).loD + 1 ∧ (t.src r.source).loE = (s.src r.source).loE + 1 ∧ t.regs = s.regs ∧ SameMem s t))

/-- R424, R425, R426: the level falls by one while the lower level's condition holds. The logs held back for a source are
covered by one summary at a later tick edge, or, at level 3 or with summaries not selected (log 72), counted as dropped. -/
def Sys2Proof.Machine.Says.SheddingEnds : Prop :=
  ∀ s : State,
    (s.levelNow < s.tel.level → Completes .shedLevelFall s (fun t => t.tel.level = s.tel.level - 1)) ∧
    (∀ source, (s.src source).sumCount ≠ 0 → (s.src source).sumAt < s.now → s.tel.level < 3 → bitOf s.tel.logSel 1 = true →
      Completes (.summary source) s (fun t => (t.src source).sumCount = 0 ∧
        (t.src source).loS = (s.src source).loS + (s.src source).sumCount ∧ (t.src source).loD = (s.src source).loD ∧
        s.tel.seq < t.tel.seq)) ∧
    (∀ source, (s.src source).sumCount ≠ 0 → (s.src source).sumAt < s.now → (3 ≤ s.tel.level ∨ bitOf s.tel.logSel 1 = false) →
      Completes (.summary source) s (fun t => (t.src source).sumCount = 0 ∧
        (t.src source).loD = (s.src source).loD + (s.src source).sumCount ∧ t.regs = s.regs ∧ SameMem s t))

/-- R422: a record that TEL_SELECT does not select, a trace by its source class and a log by its kind, is not emitted and
counts nowhere; an alarm or a loss record always takes a sequence number. -/
def Sys2Proof.Machine.Says.SelectionGatesEmission : Prop :=
  ∀ (s : State) (source kind code : Nat) (body : List Byte),
    (bitOf s.tel.traceSel (engClass source) = false → s.emit source 3 kind code body = s) ∧
    (bitOf s.tel.logSel (kind - 1) = false → s.emit source 2 kind code body = s) ∧
    (∀ cls, cls = 1 ∨ cls = 4 → s.tel.seq < (s.emit source cls kind code body).tel.seq)

/-! ## Ticks -/

namespace Sys2Proof.Machine

/-- The tick number an ordered-set carries (R315). -/
def osTick (block : List Byte) : Nat := fieldAt block 8 8

/-- What holds of the tick generator in every state a run reaches: a cause on its way is a later tick, a port's last number
is a 64-bit number, and until the first edge the count stands at 0. -/
def TickOk (s : State) : Prop :=
  (∀ n, s.tick.cause = some n → s.now < n ∧ n < 2 ^ 64) ∧ (∀ q ∈ s.tick.ports, q.lastNum < 2 ^ 64) ∧
  (s.tick.first = true → s.now = 0)

/-- The commands that restart the module (R399). -/
def Instr.restarts : Instr → Bool
  | .powerGood _ _ _ => true
  | .moduleReset _ _ => true
  | .resetN _ _ => true
  | .inputReturn _ _ => true
  | _ => false

end Sys2Proof.Machine

/-- R315, R30, R31: an ordered-set with a bad CRC, magic or period is discarded and counted; an accepted one is counted and
noted as its port's last, whatever the generator follows. A port becomes good with the fourth in a row that fits, and the
next number from the port that the generator follows is the cause of the next edge. -/
def Sys2Proof.Machine.Says.OrderedSetsAccepted : Prop :=
  ∀ (s : State) (p arrival : Nat) (block : List Byte), p < 4 →
    (s.tickOsBad block = true → Completes (.tickOrderedSet p block arrival) s (fun t =>
      Counted (rFabCtrTICKOSBAD p) 1 s t ∧ OnlyRegs [rFabCtrTICKOSBAD p] s t ∧ t.tick = s.tick ∧ SameMem s t)) ∧
    (s.tickOsBad block = false →
      ((s.tickPort p).good = true → arrival < (s.tickPort p).lastAt + 75 * s.tick.period) →
      Completes (.tickOrderedSet p block arrival) s (fun t => Counted (rFabCtrTICKOS p) 1 s t ∧ t.now = s.now ∧
        (t.tickPort p).lastNum = osTick block ∧ (t.tickPort p).lastAt = arrival ∧
        ((s.tickPort p).good = false → 3 ≤ (s.tickPort p).runLen → osTick block = (s.tickPort p).lastNum + 1 →
          100 * apart arrival ((s.tickPort p).lastAt + 50 * s.tick.period) ≤ 50 * s.tick.period → (t.tickPort p).good = true) ∧
        ((s.tickPort p).good = true → (s.tickPort p).rejoin = false → s.tick.mode = .fabric → s.tick.source = 2 →
          s.tick.port = p → s.tick.held = none → s.tick.cause = none → osTick block = s.now + 1 →
          t.tick.cause = some (s.now + 1) ∧ (t.tickPort p).good = true)))

/-- R30, R461: 1.5 periods after its last ordered-set a good port stops being good; where no other is, the generator goes
into holdover, or to no source if it has taken no tick. No register and no memory changes. -/
def Sys2Proof.Machine.Says.TickPortsTimeOut : Prop :=
  ∀ (s : State) (p at_ : Nat), p < 4 → (s.tickPort p).good = true → (s.tickPort p).lastAt + 75 * s.tick.period ≤ at_ →
    Completes (.tickPortTimeout p at_) s (fun t => (t.tickPort p).good = false ∧ t.now = s.now ∧ t.regs = s.regs ∧ SameMem s t ∧
      (s.follows p = true → (∀ q, q < 4 → q ≠ p → (s.tickPort q).good = false) →
        t.tick.source = (if s.tick.taken then 3 else 0)))

/-- R28, R29, R460: the first edge carries tick 0; an edge that was passed on carries its number; the local timer adds 1. No
register and no memory changes. -/
def Sys2Proof.Machine.Says.TickEdges : Prop :=
  ∀ s : State,
    (s.tick.first = true → Completes .tickEdge s (fun t => t.now = 0 ∧ t.tick.first = false ∧ t.tick.taken = true ∧
      t.regs = s.regs ∧ SameMem s t)) ∧
    (∀ n, s.tick.first = false → s.tick.cause = some n → n < 2 ^ 64 → Completes .tickEdge s (fun t => t.now = n ∧
      t.tick.cause = none ∧ t.regs = s.regs ∧ SameMem s t)) ∧
    (s.tick.first = false → s.tick.cause = none → s.tick.held = none → s.tick.source = 1 ∨ s.tick.source = 3 →
      s.now + 1 < 2 ^ 64 → Completes .tickEdge s (fun t => t.now = s.now + 1 ∧ t.regs = s.regs ∧ SameMem s t)) ∧
    (s.tick.first = false → s.tick.cause = none → s.tick.source = 2 → Completes .tickEdge s (fun t => t = s))

/-- R28: the tick number never decreases, whatever command runs, but where the module restarts. The invariant that it rests
on is kept by every step. -/
def Obligations.TickNeverDecreases : Prop :=
  ∀ s t : State, TickOk s → step s = .next t →
    TickOk t ∧ ((∀ c rest, s.pending = c :: rest → Instr.restarts c = false) → s.now ≤ t.now)

/-! ## The fabric ports -/

namespace Sys2Proof.Machine

/-- The other ports are as they were, and so is memory. -/
def OnlyPort (p : Nat) (s t : State) : Prop := (∀ q, q < 4 → q ≠ p → t.port q = s.port q) ∧ SameMem s t

/-- A port that went down (R307, R311): what it held for sending is gone, and it is counted and flagged. -/
def WentDown (p : Nat) (s t : State) : Prop :=
  (t.port p).state = 0 ∧ (t.port p).width = 0 ∧ (t.port p).queues.flatten = [] ∧ (t.port p).retry = [] ∧
  (t.port p).resend = [] ∧ (t.port p).trained = false ∧
  Counted (rFabCtrDOWNS p) 1 s t ∧ t.flag (rFabStatus p) 16 = true ∧ OnlyPort p s t

/-- An INIT block as R310 lays it out. -/
def initOk (block : List Byte) : Prop :=
  block.length = 64 ∧ fieldAt block 0 4 = 0x544E4E48 ∧ fieldAt block 0x3C 4 = crc32c (block.take 0x3C)

end Sys2Proof.Machine

namespace Sys2Proof.Machine

/-- A port takes a width and is trained (R307); a width below that of its last UP is flagged as a fall (R318). -/
def TookWidth (p w : Nat) (s t : State) : Prop :=
  (t.port p).trained = true ∧ (t.port p).width = w ∧ (t.port p).state = (s.port p).state ∧
  (t.port p).queues = (s.port p).queues ∧ OnlyRegs [rFabStatus p] s t ∧ OnlyPort p s t ∧
  (w < (s.port p).lastWidth → t.flag (rFabStatus p) 15 = true)

end Sys2Proof.Machine

/-- R305, R306, R307, R311: training and retraining end at the width that the good lanes allow, in a retraining for a fault no
wider than it was, or take the port down where that is below MIN_WIDTH. A lane that an UP port uses goes bad with a
retraining, or with the same end; a port that waits for its INIT exchange takes the width that remains. A second after the
last attempt a port trains again; a retry timeout has all that is held put out again. -/
def Sys2Proof.Machine.Says.PortStates : Prop :=
  ∀ (s : State) (p : Nat), p < 4 →
    (∀ lanes inverted reversed, (s.port p).state = 1 → (s.port p).trained = false →
      (s.wideEnough p (widthOf (laneFlags lanes)) = true → Completes (.trainingEnd p lanes inverted reversed) s (fun t =>
        TookWidth p (widthOf (laneFlags lanes)) s t ∧ (t.port p).lanes = laneFlags lanes ∧
        (t.port p).inverted = inverted % 16 ∧ (t.port p).reversed = reversed)) ∧
      (s.wideEnough p (widthOf (laneFlags lanes)) = false → Completes (.trainingEnd p lanes inverted reversed) s (WentDown p s))) ∧
    (∀ lanes w, (s.port p).state = 3 → (s.port p).trained = false →
      w = (if (s.port p).mayWiden then widthOf (laneFlags lanes) else capAt (s.port p).width (widthOf (laneFlags lanes))) →
      (s.wideEnough p w = true → Completes (.retrainEnd p lanes) s (fun t => TookWidth p w s t ∧
        (t.port p).lanes = laneFlags lanes)) ∧
      (s.wideEnough p w = false → Completes (.retrainEnd p lanes) s (WentDown p s))) ∧
    (∀ lane good, lane < 4 → listGet false (s.port p).lanes lane = true → good = listPut false 4 (s.port p).lanes lane false →
      lane ∈ lanesUsed (s.port p).lanes (s.port p).width →
      ((s.port p).state = 2 → s.wideEnough p (capAt (s.port p).width (widthOf good)) = true →
        Completes (.laneFault p lane) s (fun t => (t.port p).state = 3 ∧ (t.port p).trained = false ∧
          listGet false (t.port p).lanes lane = false ∧ Counted (rFabCtrDEGRADES p) 1 s t ∧ OnlyPort p s t)) ∧
      ((s.port p).state = 2 → s.wideEnough p (capAt (s.port p).width (widthOf good)) = false →
        Completes (.laneFault p lane) s (WentDown p s)) ∧
      ((s.port p).state = 1 → (s.port p).trained = true → s.wideEnough p (widthOf good) = true →
        Completes (.laneFault p lane) s (fun t => TookWidth p (widthOf good) s t ∧ (t.port p).lanes = good))) ∧
    ((s.port p).state = 0 → s.portMayTrain p = true → Completes (.portRetryTimer p) s (fun t => (t.port p).state = 1 ∧
      t.regs = s.regs ∧ OnlyPort p s t)) ∧
    ((s.port p).state = 2 → Completes (.retryTimeout p) s (fun t =>
      (t.port p).resend = (s.port p).retry.map (fun r => r.1) ∧ (t.port p).retry = (s.port p).retry ∧ t.regs = s.regs ∧
      OnlyPort p s t))

/-- R310, R311: the INIT exchange brings a trained port up. From TRAINING, and from a RETRAIN that began in DOWN, numbering and
credits start afresh; from another RETRAIN they continue, and what the other end has not received is put out again. -/
def Sys2Proof.Machine.Says.LinksComeUp : Prop :=
  ∀ (s : State) (p : Nat) (block : List Byte), p < 4 → (s.port p).trained = true → initOk block →
    ((s.port p).state = 1 ∨ ((s.port p).state = 3 ∧ (s.port p).fresh = true) → Completes (.linkInit p block) s (fun t =>
      (t.port p).state = 2 ∧ (t.port p).txSeq = 0 ∧ (t.port p).rxSeq = 0 ∧ (t.port p).retry = [] ∧
      (∀ v, v < 4 → listGet 0 (t.port p).credits v = fieldAt block (8 + 2 * v) 2) ∧
      (t.port p).queues = (s.port p).queues ∧ t.readBytes = s.initBlock p ∧ t.regs = s.regs ∧ OnlyPort p s t)) ∧
    ((s.port p).state = 3 → (s.port p).fresh = false → Completes (.linkInit p block) s (fun t => (t.port p).state = 2 ∧
      (t.port p).txSeq = (s.port p).txSeq ∧ (t.port p).rxSeq = (s.port p).rxSeq ∧
      (t.port p).credits = (s.port p).credits ∧ (t.port p).queues = (s.port p).queues ∧
      (t.port p).retry = (s.port p).retry.filter (fun r => seqAfter (fieldAt block 0x10 2) r.1) ∧
      (t.port p).resend = (t.port p).retry.map (fun r => r.1) ∧ t.readBytes = s.initBlock p ∧ t.regs = s.regs ∧
      OnlyPort p s t))

/-- R308, R311, R312: at a packet boundary a packet that is to be replayed goes out again under its number; else the packet that
the egress picks is sent with the next sequence number, spends its credits and is held for retry; with none to send an IDLE
header returns what is owed, and where nothing is owed nothing goes out. A received IDLE header acknowledges and returns
credits; one in error is answered with NAK. -/
def Obligations.PortsSend : Prop :=
  ∀ (s : State) (p : Nat), p < 4 → (s.port p).state = 2 →
    (∀ waited n rest x credits, (s.port p).resend = n :: rest →
      (s.port p).retry.find? (fun r => r.1 == n) = some (n, x, credits) →
      Completes (.egressSelect p waited) s (fun t => Counted (rFabCtrLINKRETRIES p) 1 s t ∧ OnlyPort p s t ∧
        t.readBytes = x.bytes s.ownId ((s.port p).linkField n credits) ∧ (t.port p).retry = (s.port p).retry ∧
        (t.port p).resend = rest ∧ (t.port p).queues = (s.port p).queues ∧ (t.port p).credits = (s.port p).credits)) ∧
    (∀ waited v x rest, (s.port p).resend = [] → (s.port p).pick = some v → listGet [] (s.port p).queues v = x :: rest →
      Completes (.egressSelect p waited) s (fun t => Counted (rFabCtrTXPACKETS p) 1 s t ∧ OnlyPort p s t ∧
        t.readBytes = x.bytes s.ownId ((s.port p).linkField (((s.port p).txSeq + 1) % 65536) (s.port p).owed) ∧
        (t.port p).txSeq = ((s.port p).txSeq + 1) % 65536 ∧
        (t.port p).retry = (s.port p).retry ++ [((t.port p).txSeq, x, (s.port p).owed)] ∧
        listGet [] (t.port p).queues v = rest ∧
        listGet 0 (t.port p).credits v = listGet 0 (s.port p).credits v - x.units ∧
        (∀ w, w < 4 → w ≠ v → listGet [] (t.port p).queues w = listGet [] (s.port p).queues w ∧
          listGet 0 (t.port p).credits w = listGet 0 (s.port p).credits w) ∧ listGet 0 (t.port p).owed v = 0)) ∧
    (∀ waited, (s.port p).resend = [] → (s.port p).pick = none → Completes (.egressSelect p waited) s (fun t =>
      ((s.port p).owes = true →
        t.readBytes = ({ dst := 0, vc := 0, ptype := 0 } : TxPkt).bytes s.ownId ((s.port p).linkField 0 (s.port p).owed)) ∧
      ((s.port p).owes = false → t.readBytes = s.readBytes) ∧ (t.port p).owes = false ∧
      (t.port p).retry = (s.port p).retry ∧ (t.port p).queues = (s.port p).queues ∧ OnlyPort p s t)) ∧
    (∀ pkt fixed, 64 ≤ pkt.length → fieldAt pkt 5 1 = 0 → bitOf (fieldAt pkt 0x0C 1) 0 = true →
      bitOf (fieldAt pkt 0x0C 1) 1 = false → Completes (.idle p pkt ⟨fixed, 0⟩) s (fun t =>
        (t.port p).retry = (s.port p).retry.filter (fun r => seqAfter (fieldAt pkt 0x0A 2) r.1) ∧
        (∀ v, v < 4 → listGet 0 (t.port p).credits v = listGet 0 (s.port p).credits v + fieldAt pkt (0x10 + 2 * v) 2) ∧
        Counted (rFabCtrFECCORRECTED p) fixed s t ∧ (crcRight pkt = false → Counted (rFabCtrCRCDROPS p) 1 s t) ∧
        OnlyPort p s t)) ∧
    (∀ pkt fixed bad, bad ≠ 0 → Completes (.idle p pkt ⟨fixed, bad⟩) s (fun t => (t.port p).nakDue = true ∧
      Counted (rFabCtrFECUNCORRECTABLE p) bad s t ∧ OnlyPort p s t))

/-! ## Packets that arrive, and gradient reduction -/

namespace Sys2Proof.Machine

/-- The state in which an arriving packet is judged, and its bytes: the head of the local path for port 4; for a port, a
packet that the link layer accepts, with `fixed` codewords corrected, that passes the checks of R309 and R313, and that no
packet of its VC waits before (R312). -/
def State.received (s : State) (port : Nat) (pkt : List Byte) (fixed : Nat) : Option (State × List Byte) :=
  if port = 4 then
    match s.localQ with
    | [] => none
    | x :: rest => if x.ptype < 256 then some ({ s with localQ := rest }, x.bytes s.ownId (List.replicate 16 0#8)) else none
  else if port < 4 then
    let r := s.linkIn port pkt fixed 0
    if r.2 && r.1.pktCheck pkt == 0 && r.1.fitsBushel pkt && !(r.1.port port).rxBuf.any (fun x => x.vc == fieldAt pkt 4 1 % 4) then some (r.1, pkt)
    else none
  else none

/-- A packet names a bushel's role that is open for its step, segment or peck `i` of it (R256). -/
structure Named (u : State) (b : List Byte) (k : Nat) (e : BushelEnt) (i : Nat) : Prop where
  target : u.redTarget b = some (k, e, i)
  opened : (u.bushel k).opened = true
  step : (u.bushel k).step = u.stepNow
  tag : fieldAt b 0x18 2 = u.stepNow % 65536

/-- Beside that it is in time, and the role is not closed (R256). -/
structure Timely (u : State) (b : List Byte) (k : Nat) (e : BushelEnt) (i : Nat) : Prop extends Named u b k e i where
  early : u.now < u.lateFrom e (k % 2) u.stepNow
  notClosed : (u.bushel k).cause = 0

/-- A request for the segment stands at the end of its RAU's queue (R257), and no memory changed. -/
def Queued (u : State) (b : List Byte) (k : Nat) (e : BushelEnt) (i : Nat) (t : State) : Prop :=
  ∃ r, t.rauAt (rauOf e i) = u.rauAt (rauOf e i) ++ [r] ∧ r.entry = k ∧ r.seg = i ∧ r.ptype = fieldAt b 5 1 ∧
    r.vc = fieldAt b 4 1 % 4 ∧ r.nonfinite = bitOf (fieldAt b 0x20 4) 16 ∧
    r.payload = b.drop 64 ∧ r.weight = fieldAt b 0x20 4 % 65536 ∧ SameMem u t

end Sys2Proof.Machine

/-- R256, R257, R258: a segment, a result or a verdict record that passes the tracker joins its RAU's queue, whichever path
it came by; one for a role that has closed is dropped and counted late, and so is a segment of the step in force whose role is
not yet open, which is kept among the late ones of that step. -/
def Sys2Proof.Machine.Says.ReductionPackets : Prop :=
  ∀ (s u : State) (port fixed : Nat) (pkt b : List Byte) (k i : Nat) (e : BushelEnt), s.received port pkt fixed = some (u, b) →
    (Timely u b k e i → (u.rauAt (rauOf e i)).length < 64 →
      (fieldAt b 5 1 = 1 → Completes (.segment port pkt ⟨fixed, 0⟩) s (Queued u b k e i)) ∧
      (fieldAt b 5 1 = 3 → Completes (.result port pkt ⟨fixed, 0⟩) s (Queued u b k e i)) ∧
      (fieldAt b 5 1 = 4 → Completes (.verdictRecord port pkt ⟨fixed, 0⟩) s (Queued u b k e i))) ∧
    (Named u b k e i → (u.bushel k).cause ≠ 0 → fieldAt b 5 1 = 1 →
      Completes (.segment port pkt ⟨fixed, 0⟩) s (fun t => t.rauQ = u.rauQ ∧ (t.bushel k).late = (u.bushel k).late + 1 ∧
        Counted (if port < 4 then rFabCtrREDLATE port else rHubRedLocalLATE) 1 u t ∧ SameMem u t)) ∧
    (u.redTarget b = some (k, e, i) → (u.bushel k).opened = false → fieldAt b 0x18 2 = u.stepNow % 65536 → fieldAt b 5 1 = 1 →
      Completes (.segment port pkt ⟨fixed, 0⟩) s (fun t => t.rauQ = u.rauQ ∧
        (t.bushel k).earlyOf u.stepNow = (u.bushel k).earlyOf u.stepNow + 1 ∧
        Counted (if port < 4 then rFabCtrREDLATE port else rHubRedLocalLATE) 1 u t ∧
        (port < 4 → Counted (rFabCtrREDEARLY port) 1 u t) ∧ SameMem u t))

/-- R260: an END packet whose sender's other packets of its path have all been added is counted once for its sender, with its
sum; a second one of a sender counts as a late. -/
def Sys2Proof.Machine.Says.EndPackets : Prop :=
  ∀ (s u : State) (port fixed n : Nat) (pkt b : List Byte) (k i : Nat) (e : BushelEnt), s.received port pkt fixed = some (u, b) →
    Timely u b k e i → fieldAt b 5 1 = 2 → fieldAt b 0x1A 2 ≠ 0xFFFF → u.ends = [] →
    (∀ q ∈ u.rauQ, ∀ r ∈ q.2, r.path ≠ port) →
    findN (u.jobList e.senders).length (fun m => (u.jobList e.senders)[m]? == some (fieldAt b 2 2)) = some n →
    (n ∉ (u.bushel k).ends →
      Completes (.endPacket port pkt ⟨fixed, 0⟩) s (fun t => (t.bushel k).ends = (u.bushel k).ends ++ [n] ∧
        (t.bushel k).endSum = (u.bushel k).endSum + fieldAt b 0x20 4 ∧ t.rauQ = u.rauQ ∧ t.ends = [] ∧ SameMem u t)) ∧
    (n ∈ (u.bushel k).ends →
      Completes (.endPacket port pkt ⟨fixed, 0⟩) s (fun t => (t.bushel k).ends = (u.bushel k).ends ∧
        (t.bushel k).late = (u.bushel k).late + 1 ∧ (t.bushel k).endSum = (u.bushel k).endSum ∧ SameMem u t))

/-- R288, R292, R298: a mirror segment of the step in force lands in its place; a promote notice is entered in the owner map,
or marks this module deposed; an export packet's bytes go into the window that its source and number name, and the header last,
once all the bytes that it names have come. -/
def Sys2Proof.Machine.Says.OtherPackets : Prop :=
  ∀ (s u : State) (port fixed : Nat) (pkt b : List Byte), s.received port pkt fixed = some (u, b) →
    (fieldAt b 5 1 = 5 → u.mirrorLate b = false → u.snap.copying = false →
      Clear u (u.mirrorBase + 4096 * fieldAt b 0x1C 4) (b.drop 64).length →
      Completes (.mirror port pkt ⟨fixed, 0⟩) s (fun t =>
        Wrote (u.mirrorBase + 4096 * fieldAt b 0x1C 4) (b.drop 64) u t ∧ t.snap.landed = u.landedNow ++ [fieldAt b 0x1C 4] ∧
        t.snap.landingStep = u.stepNow ∧ Counted rSnapCtrMIRRORACCEPTED 1 u t)) ∧
    (fieldAt b 5 1 = 6 → fieldAt b 0x20 2 ≠ u.ownId → u.snap.ownerMap.length < 64 →
      Completes (.promoteNotice port pkt ⟨fixed, 0⟩) s (fun t =>
        t.snap.ownerMap = u.snap.ownerMap ++ [(fieldAt b 0x20 2, fieldAt b 0x22 2)] ∧ SameMem u t)) ∧
    (fieldAt b 5 1 = 6 → fieldAt b 0x20 2 = u.ownId → Completes (.promoteNotice port pkt ⟨fixed, 0⟩) s (fun t =>
      t.snapBit snapDeposed = true ∧ t.updBit updStale = true ∧ t.snap.ownerMap = u.snap.ownerMap ∧ SameMem u t)) ∧
    (∀ w off, fieldAt b 5 1 = 7 →
      u.snap.windows.find? (fun w => w.window == fieldAt b 0x20 4 % 65536 && w.source == fieldAt b 2 2) = some w →
      (bitOf (fieldAt b 0x20 4) 16 = false → w.header = none → off = fieldAt b 0x24 8 → off < w.bytes →
        Clear u (w.base + off) ((b.drop 64).take (w.bytes - off)).length →
        Completes (.exportPacket port pkt ⟨fixed, 0⟩) s (fun t =>
          Wrote (w.base + off) ((b.drop 64).take (w.bytes - off)) u t)) ∧
      (bitOf (fieldAt b 0x20 4) 16 = true → w.got < fieldAt (b.drop 64) 0x38 8 →
        Completes (.exportPacket port pkt ⟨fixed, 0⟩) s (SameMem u)) ∧
      (bitOf (fieldAt b 0x20 4) 16 = true → fieldAt (b.drop 64) 0x38 8 ≤ w.got → 0 < w.bytes →
        Clear u w.base ((b.drop 64).take w.bytes).length →
        Completes (.exportPacket port pkt ⟨fixed, 0⟩) s (fun t => Wrote w.base ((b.drop 64).take w.bytes) u t)))

/-- R257, R250: a RAU takes the oldest request of its queue. A contribution that does not close its segment is stored, or
combined with what the segment holds, and the side record counts it. -/
def Sys2Proof.Machine.Says.RauAdds : Prop :=
  ∀ (s : State) (stack pc : Nat) (r : RauReq) (rest : List RauReq) (e : BushelEnt) (a w : Nat) (new : List Byte),
    s.rauAt (32 * stack + pc) = r :: rest → s.bushelEnt (r.entry / 2) = some e → r.entry % 2 = 0 → a = e.buf + 4096 * r.seg →
    w = s.ld 8 (sideAddr e.side r.seg) → bitOf w 16 = false → w % 65536 < 65535 → w % 65536 + 1 ≠ s.expected e →
    s.stackDead (stackOf a).1 = false → (∀ p, p < 4 → (s.port p).rxBuf = []) →
    new = (if e.bf16 then (chunksOf 2 (r.payload.length + 1) r.payload).flatMap (fun c => [0#8, 0#8] ++ c) else r.payload) →
    Clear s a 4096 → Clear s (sideAddr e.side r.seg) 8 → new.length = 4096 →
    (combineSeg e (s.peek a 4096) new).length = 4096 →
    sideAddr e.side r.seg + 8 ≤ a ∨ a + 4096 ≤ sideAddr e.side r.seg →
    Completes (.rauAdd stack pc) s (fun t => t.rauAt (32 * stack + pc) = rest ∧
      t.peek a 4096 = (if w % 65536 = 0 then new else combineSeg e (s.peek a 4096) new) ∧
      t.ld 8 (sideAddr e.side r.seg) % 65536 = w % 65536 + 1 ∧
      t.ld 8 (sideAddr e.side r.seg) / 2 ^ 32 = (w / 2 ^ 32 + r.weight) % 2 ^ 32 ∧
      (∀ x, (x < a ∨ a + 4096 ≤ x) → (x < sideAddr e.side r.seg ∨ sideAddr e.side r.seg + 8 ≤ x) → t.byte x = s.byte x) ∧
      (t.bushel r.entry).added = (s.bushel r.entry).added + 1)

/-- R288: when the copy of a landing ends, the live slot holds it. -/
def Sys2Proof.Machine.Says.LandingsCopied : Prop :=
  ∀ s : State, s.snap.copying = true → (∀ p, p < 4 → (s.port p).rxBuf = []) →
    Clear s (s.mirrorBase + 4096 * s.slotSegs) (4096 * s.slotSegs) → Completes .landingCopyEnd s (fun t =>
      Wrote (s.mirrorBase + 4096 * s.slotSegs) (s.peek s.mirrorBase (4096 * s.slotSegs)) s t ∧ t.snap.copying = false ∧
      t.snapBit snapLiveValid = true)

/-- R256, R259, R260, R261: a bushel opens each role that is tracked at its open tick, closes by its deadline or its result
tick, and its close is recorded once. -/
def Obligations.BushelsOpenAndClose : Prop :=
  ∀ (s : State) (entry : Nat) (e : BushelEnt), s.bushelEnt entry = some e →
    (s.tick.taken = true → s.standby 1 entry = false → s.stepTick s.stepNow e.openOff ≤ s.now →
      (s.bushel (2 * entry)).opened = false → (s.bushel (2 * entry + 1)).opened = false →
      Completes (.bushelOpen entry) s (fun t => ∀ role, role < 2 → e.tracked role = true →
        t.bushel (2 * entry + role) =
          { step := s.stepNow, opened := true, late := (s.bushel (2 * entry + role)).earlyOf s.stepNow,
            early := (s.bushel (2 * entry + role)).early.filter (fun x => decide (s.stepNow < x.1)) })) ∧
    ((s.bushel (2 * entry)).opened = true → (s.bushel (2 * entry)).cause = 0 →
      s.lateFrom e 0 (s.bushel (2 * entry)).step ≤ s.now → s.redPending (2 * entry) = false →
      Completes (.bushelDeadline entry) s (fun t => (t.bushel (2 * entry)).cause = 2 ∧
        (t.bushel (2 * entry)).closeTick = s.now)) ∧
    ((s.bushel (2 * entry + 1)).opened = true → (s.bushel (2 * entry + 1)).cause = 0 →
      s.lateFrom e 1 (s.bushel (2 * entry + 1)).step ≤ s.now → s.redPending (2 * entry + 1) = false →
      Completes (.resultTick entry) s (fun t => (t.bushel (2 * entry + 1)).cause = 3 ∧
        (t.bushel (2 * entry + 1)).closeTick = s.now)) ∧
    (∀ receive, (s.bushel (2 * entry + b2n receive)).opened = true → (s.bushel (2 * entry + b2n receive)).cause ≠ 0 →
      (s.bushel (2 * entry + b2n receive)).written = false → Completes (.bushelClose entry receive) s (fun t =>
        (t.bushel (2 * entry + b2n receive)).written = true ∧
        (t.bushel (2 * entry + b2n receive)).cause = (s.bushel (2 * entry + b2n receive)).cause ∧ t.rauQ = s.rauQ))

/-! ## The verdict and the update -/

/-- R266, R267: the coordinator forms a verdict once for a step. A reported non-finite contribution makes it SKIP, which
leaves t as it was, restarts the clean count and halves the loss scale, at least to its floor; APPLY adds 1 to t, and below
GROWTH_N clean steps keeps the loss scale. -/
def Sys2Proof.Machine.Says.VerdictsFormed : Prop :=
  ∀ (s : State) (entry : Nat) (e : BushelEnt) (bits : List Byte) (apply : Bool),
    s.bushelEnt entry = some e → e.kind = kindVerdict → (s.bushel (2 * entry)).written = true →
    s.verdict.lastStep ≠ some (s.bushel (2 * entry)).step → bits = ((s.peek e.buf 4096).drop 1024).take 32 →
    apply = (s.judgeVerdict (wordsOf ((s.peek e.buf 4096).take 1024)) bits).1 →
    Completes (.verdictForm entry) s (fun t => t.verdict.lastStep = some (s.bushel (2 * entry)).step ∧ SameMem s t ∧
      t.regs = s.regs ∧ t.verdict.prevScale = s.lossScale ∧ ((∃ b ∈ bits, b ≠ 0#8) → apply = false) ∧
      (apply = false → t.verdict.t = s.verdict.t ∧ t.verdict.clean = 0 ∧ t.verdict.scale =
        (if f32Lt (toF32 ((ofF32 s.lossScale).scale2 (-1))) (f32Pow2 (signedOf 8 (s.act rHubVerdictCtrl / 2 ^ 16)))
          then f32Pow2 (signedOf 8 (s.act rHubVerdictCtrl / 2 ^ 16)) else toF32 ((ofF32 s.lossScale).scale2 (-1)))) ∧
      ((s.bushel (2 * entry)).step = 0 → t.verdict.history = BitVec.ofNat 64 (b2n apply)) ∧
      (apply = true → t.verdict.t = s.verdict.t + 1#64 ∧
        (s.verdict.clean + 1 < s.act rHubVerdictCtrl % 65536 →
          t.verdict.clean = s.verdict.clean + 1 ∧ t.verdict.scale = s.lossScale)))

/-- R269: at the result tick of its verdict bushel an owner resolves the step once. A record that says APPLY puts its step on
the update list and its t into UPD_T; one that says SKIP only the t. Without a record the step is pending, and a second one
without makes the shard stale; a stale shard resolves nothing. -/
def Sys2Proof.Machine.Says.VerdictsResolved : Prop :=
  ∀ (s : State) (entry : Nat) (e : BushelEnt) (g : Bushel) (rec_ : List Byte),
    s.bushelEnt entry = some e → e.kind = kindVerdict → e.receive = true → g = s.bushel (2 * entry + 1) → g.opened = true →
    s.upd.resolved ≠ some g.step → s.stepTick g.step e.resultOff ≤ s.now → s.redPending (2 * entry + 1) = false →
    rec_ = s.peek e.buf 4096 →
    (s.updBit updStale = true → Completes (.verdictResolution entry) s (fun t =>
      t.upd = { resolved := some g.step } ∧ t.reg rHubUpdT = s.reg rHubUpdT ∧ SameMem s t)) ∧
    (s.updBit updStale = false → s.updBit updPending = false → 0 < g.closedSegs →
      Completes (.verdictResolution entry) s (fun t => t.reg rHubUpdT = fieldAt rec_ 0x10 8 ∧
        t.upd.resolved = some g.step ∧ t.upd.missed = false ∧ t.updBit updPending = false ∧ SameMem s t ∧
        (bitOf (fieldAt rec_ 6 2) 0 = false → t.upd.work = [] ∧ Counted rHubCtrUPDSKIPPED 1 s t) ∧
        (bitOf (fieldAt rec_ 6 2) 0 = true → Counted rHubCtrUPDAPPLIED 1 s t ∧
          t.upd.work.map (fun w => (w.step, w.catchUp, w.tUse)) = [(g.step, false, fieldAt rec_ 0x10 8)]))) ∧
    (s.updBit updStale = false → s.updBit updPending = false → g.closedSegs = 0 →
      Completes (.verdictResolution entry) s (fun t => t.updBit updPending = true ∧ t.upd.missed = true ∧
        t.upd.work = [] ∧ Counted rHubCtrUPDMISSED 1 s t ∧ t.reg rHubUpdT = s.reg rHubUpdT)) ∧
    (s.updBit updStale = false → s.updBit updPending = true → g.closedSegs = 0 →
      Completes (.verdictResolution entry) s (fun t => t.updBit updPending = false ∧ t.updBit updStale = true ∧
        t.upd.work = [] ∧ Counted rHubCtrUPDMISSED 1 s t))

namespace Sys2Proof.Machine

/-- A packet of a kind starts on an engine that has none in hand, and does not stop at once (R35, R36, R49, R207): `u` is the
state it has started in, `r` the run. -/
structure Starts (s : State) (e kind : Nat) (u : State) (r : Run) : Prop where
  idle : s.run e = none
  next : s.nextIs e kind (fun _ => true) = true
  begun : u = s.startPacket e kind
  run : u.run e = some r
  ofKind : r.kind = kind
  goesOn : r.stopped = false

/-- A packet of a kind is in hand on an engine and goes on, or starts: `u` is the state in which it takes its next step. -/
def Goes (s : State) (e kind : Nat) (u : State) (r : Run) : Prop :=
  Starts s e kind u r ∨ (s.run e = some r ∧ s.goes e kind = true ∧ u = s)

/-- The packet in hand has taken its next step, of `n` that it has in all: it goes on, or retires with the last (R38). -/
def Stepped (e n : Nat) (r : Run) (t : State) : Prop :=
  ∃ q, t.run e = some q ∧ q.prog = r.prog + 1 ∧ q.executed = r.executed + 1 ∧ q.retired = decide (n ≤ r.prog + 1) ∧
    q.stopped = r.stopped

/-- The packet in hand has issued everything, and has not faulted. -/
def Retired (e : Nat) (t : State) : Prop := ∃ q, t.run e = some q ∧ q.retired = true ∧ q.stopped = false

/-- The packet in hand stopped on a fault (R427). -/
def Faulted (e code : Nat) (t : State) : Prop := ∃ q, t.run e = some q ∧ q.stopped = true ∧ q.status = 0x50 ∧ q.fault = code

end Sys2Proof.Machine

/-- R269, R271, R275, R290, R291: an update packet runs once its step is resolved. An inert one, and one of a step with nothing
to apply, change no byte; a stale shard's, and one whose record was missed with nowhere to keep the means, stop with
VERDICT_MISSED. An entry of a frozen group, a step of the packet as every entry is (log 72), changes no byte. -/
def Sys2Proof.Machine.Says.UpdatePackets : Prop :=
  ∀ (s u : State) (die i : Nat) (r : Run),
    (Starts s (engineId 3 die i) 0x0B u r → s.updReady (engineId 3 die i) = true →
      (u.standby 2 r.pid = true → Completes (.update die i) s (fun t => Retired (engineId 3 die i) t ∧ SameMem u t ∧
        t.regs = u.regs)) ∧
      (u.standby 2 r.pid = false → u.updBit updStale = true → Completes (.update die i) s (Faulted (engineId 3 die i) 0x0B)) ∧
      (u.standby 2 r.pid = false → u.updBit updStale = false → u.upd.missed = true → u.ld 8 (r.body + 8) = 0 →
        Completes (.update die i) s (fun t => Faulted (engineId 3 die i) 0x0B t ∧ t.updBit updStale = true ∧
          t.updBit updPending = false)) ∧
      (u.standby 2 r.pid = false → u.updBit updStale = false → u.upd.missed = false → u.upd.work = [] →
        Completes (.update die i) s (fun t => Retired (engineId 3 die i) t ∧ SameMem u t ∧ t.regs = u.regs))) ∧
    (∀ (work : List UpdStep) (w : UpdStep) (x : UpdEnt), Goes s (engineId 3 die i) 0x0B u r →
      (s.run (engineId 3 die i) = none → s.updReady (engineId 3 die i) = true) →
      (r.prog = 0 → u.standby 2 r.pid = false ∧ u.updBit updStale = false ∧ u.upd.missed = false) → r.holding = false →
      work = (if r.prog = 0 then u.upd.work else r.work) → work[r.prog / (u.updEnts r.body).length]? = some w →
      (u.updEnts r.body)[r.prog % (u.updEnts r.body).length]? = some x → w.catchUp = false →
      (u.bushelIn r.bind.addr x.bushel).isSome = true → u.updFault (u.ruleFor r.began x.group w.tUse).1 x = 0 →
      (u.ruleFor r.began x.group w.tUse).1.freeze = true →
      Completes (.update die i) s (fun t =>
        Stepped (engineId 3 die i) (work.length * (u.updEnts r.body).length) r t ∧ SameMem u t))

/-- R252, R253, R263, R287: a send that starts or goes on takes its next entry and queues its segments, with no byte of device
memory changed, whether or not each packet finds a port; behind the last entry it retires, a mirror send behind its hub
state. One entry is one step of the packet (log 72). A mirror send of a module without a mirror is empty. -/
def Sys2Proof.Machine.Says.SendsRetire : Prop :=
  ∀ (s u : State) (r : Run),
    (∀ e, Goes s hubEngine 0x0A u r → r.prog < u.ld 4 r.body → (∃ w, u.load (u.ld 8 (r.body + 8)) 2 = .ok w) →
      u.bushelIn r.bind.addr (u.ld 4 (r.body + 16 + 8 * r.prog)) = some e →
      (∀ i, i < e.segs → ∃ bs, u.load (e.src + 4096 * i) 4096 = .ok bs) →
      Completes .bushelSend s (fun t => Stepped hubEngine (u.ld 4 r.body) r t ∧ SameMem u t ∧ t.rauQ = u.rauQ)) ∧
    (∀ e, Goes s hubEngine 0x0D u r → r.prog < u.ld 4 r.body →
      u.bushelIn r.bind.addr (u.ld 4 (r.body + 16 + 8 * r.prog)) = some e →
      (∀ j, j < (e.held 0).2 → ∃ bs, u.load (e.src + 4096 * j) 4096 = .ok bs) →
      Completes .parameterBroadcast s (fun t => Stepped hubEngine (u.ld 4 r.body) r t ∧ SameMem u t ∧ t.rauQ = u.rauQ)) ∧
    (Goes s hubEngine 0x0C u r → (r.prog = 0 → r.bind.job.bytes ≠ [] ∧ r.bind.job.field 0x28 2 ≠ 0xFFFF ∧
        u.snapBit snapDeposed = false) → r.prog ≤ u.ld 4 r.body →
      (r.prog < u.ld 4 r.body → ∀ j, j < u.ld 4 (r.body + 24 + 16 * r.prog) →
        ∃ bs, u.load (u.ld 6 (r.body + 16 + 16 * r.prog) + 4096 * j) 4096 = .ok bs) →
      Completes .mirrorSend s (fun t => Stepped hubEngine (u.ld 4 r.body + 1) r t ∧ SameMem u t)) ∧
    (Goes s hubEngine 0x0C u r → r.prog = 0 → r.bind.job.field 0x28 2 = 0xFFFF → Completes .mirrorSend s (fun t =>
      t.ports = u.ports ∧ SameMem u t ∧ ∃ q, t.run hubEngine = some q ∧ q.retired = true ∧ q.status = 1))

/-! ## Mirrors, generations, exports -/

namespace Sys2Proof.Machine

/-- The pages of a generation (R295): its manifest, its module state block, its regions as they stand, and the cursor. -/
def State.genBody (s : State) (j : GenJob) : List Byte :=
  let body := manifest j.regions ++ j.bytes ++ j.regions.flatMap (fun r => s.peek r.base r.bytes) ++ j.cursor.getD []
  padTo (alignUp body.length 4096) body

end Sys2Proof.Machine

/-- R291, R292: a landing that the boundary finds missing is flagged, and where the job says so arms the promotion of a mirror
that may promote itself, or else raises an alarm. A promotion that is due takes effect once; one that may not take place any longer
raises the alarm then (log 72). -/
def Sys2Proof.Machine.Says.LandingsAndPromotion : Prop :=
  ∀ s : State,
    (s.binding.active.isSome = true → s.stepNow ≠ 0 → s.snap.checkedStep ≠ some s.stepNow → s.mirroredId ≠ 0xFFFF →
      (s.snap.landingDone = true → s.snap.landingStep = s.stepNow - 1 → Completes .landingBoundaryCheck s (fun t =>
        t.snap = { s.snap with checkedStep := some s.stepNow } ∧ t.regs = s.regs ∧ SameMem s t)) ∧
      (s.snap.landingDone = false → Completes .landingBoundaryCheck s (fun t =>
        t.snapBit snapLandingMissed = true ∧ t.snap.checkedStep = some s.stepNow ∧
        (bitOf (s.job.field 0x2E 2) 0 = true → s.mayPromote = true →
          t.snap.promoteAt = some (s.stepTick s.stepNow 0)) ∧
        (bitOf (s.job.field 0x2E 2) 0 = true → s.mayPromote = false → t.snap.promoteAt = s.snap.promoteAt ∧
          bitOf ((t.src srcHub).codes.toNat) 0x21 = true)))) ∧
    (∀ n, s.snap.promoteAt = some n → n ≤ s.now →
      (s.mayPromote = true → Completes .promotion s (fun t => t.snap.activated = true ∧
        t.snap.promoteAt = none ∧ t.mirroredId = 0xFFFF ∧ t.snapBit snapPromoted = true ∧ Counted rSnapCtrPROMOTIONS 1 s t ∧
        SameMem s t)) ∧
      (s.mayPromote = false → Completes .promotion s (fun t => t.snap.promoteAt = none ∧
        t.snap.activated = s.snap.activated ∧ bitOf ((t.src srcHub).codes.toNat) 0x21 = true)))

/-- R293 to R297, R302: a generation goes from its boundary through staging and draining to its commit, and only the commit
makes it one of those held. A boundary that falls due while another is in hand defers it; one at which packets of earlier
steps still run keeps its turn until they have ended. A block that fails is retired, with
a spare in its place while one is left. -/
def Sys2Proof.Machine.Says.GenerationsHeld : Prop :=
  ∀ s : State,
    (∀ b, s.snap.cfgNext = none → s.binding.active = some b → s.tick.taken = true → b.first ≤ s.now → s.halted = false →
      s.snap.turn = none → s.snap.considered ≠ some s.stepNow → s.snap.cfgGiven = true → s.snapWanted s.stepNow = true →
      (s.snap.staging = none → s.snap.drain = none → s.exportStaging = false → s.updBit updPending = false →
        s.updBit updStale = false →
        (s.earlierRunning s.stepNow = false → Completes .stagingBegin s (fun t => t.snapBit snapStaging = true ∧ SameMem s t ∧
          t.snap.gens = s.snap.gens ∧ t.snap.considered = some s.stepNow ∧ ∃ j, t.snap.staging = some j ∧
          j.gen = s.nextGen ∧ j.step = s.stepNow ∧ j.tick = s.now ∧ j.regions = s.snap.cfg.regions ∧
          j.planId = b.planId)) ∧
        (s.earlierRunning s.stepNow = true → Completes .stagingBegin s (fun t => t.snap.turn = some s.stepNow ∧
          t.snap.staging = none ∧ t.regs = s.regs ∧ SameMem s t))) ∧
      (s.snap.staging.isSome = true ∨ s.snap.drain.isSome = true ∨ s.exportStaging = true ∨ s.updBit updPending = true ∨
          s.updBit updStale = true →
        Completes .stagingBegin s (fun t => t.snap.owed = true ∧ t.snap.staging = s.snap.staging ∧
          Counted rSnapCtrDEFERRED 1 s t ∧ SameMem s t))) ∧
    (∀ b step, s.snap.cfgNext = none → s.binding.active = some b → s.halted = false → s.snap.turn = some step →
      s.earlierRunning step = false → Completes .stagingBegin s (fun t => t.snap.turn = none ∧ SameMem s t ∧
        ∃ j, t.snap.staging = some j ∧ j.gen = s.nextGen ∧ j.step = step ∧ j.regions = s.snap.cfg.regions)) ∧
    (∀ j heldCycles, s.halted = false → s.snap.staging = some j → j.cursorLen = 0 → j.failed = false → s.flag rPwrRailOff 14 = false →
      (∀ r ∈ j.regions, s.badRange r.base r.bytes = false) → Completes (.stagingEnd heldCycles) s (fun t =>
        t.snap.staging = none ∧ t.snapBit snapDraining = true ∧ ∃ d, t.snap.drain = some d ∧ d.gen = j.gen ∧
        d.slot = j.slot ∧ d.bytes = s.genBody j ∧
        t.snap.gens = s.snap.gens.filter (fun g => g.slot != j.slot))) ∧
    (∀ j, s.snap.drain = some j → s.halt.stage < 4 → s.flag rPwrRailOff 14 = false → Completes .generationCommit s (fun t =>
      t.snap.drain = none ∧ t.snapBit snapDraining = false ∧ Counted rSnapCtrGENCOMMITTED 1 s t ∧ SameMem s t ∧
      ∃ g, t.snap.gens = s.snap.gens ++ [g] ∧ g.gen = j.gen ∧ g.slot = j.slot ∧ g.bytes = j.bytes ∧
        g.commit.take 16 = leBytes 4 0x43474E48 ++ leBytes 2 1 ++ leBytes 2 j.slot ++ leBytes 8 j.jobId)) ∧
    (∀ block, block ∉ s.snap.retired → block < slotBlocks + s.snap.sparesUsed → Completes (.flashFailure block) s (fun t =>
      t.snap.retired = s.snap.retired ++ [block] ∧ Counted rSnapCtrBLOCKSRETIRED 1 s t ∧ SameMem s t ∧
      (0 < s.reg rSnapCtrSPARESLEFT → t.reg rSnapCtrSPARESLEFT = s.reg rSnapCtrSPARESLEFT - 1)))

/-- R298: an export is staged at its boundary, its regions copied, and the copy then shipped, in three commands. -/
def Sys2Proof.Machine.Says.ExportsShip : Prop :=
  ∀ (s : State) (x : ExportJob) (heldCycles : Nat), s.snap.shipping = some x → s.snap.cfgNext = none → s.halted = false →
    (x.phase = 0 → s.binding.active.isSome = true → x.atTick ≤ s.now → s.earlierRunning s.stepNow = false →
      s.snap.staging = none → s.snap.turn = none → s.snap.cfgGiven = false → s.updBit updPending = false → s.updBit updStale = false →
      Completes (.exportStaging heldCycles) s (fun t => t.snapBit snapStaging = true ∧ SameMem s t ∧
        ∃ b, s.binding.active = some b ∧ t.snap.shipping = some { x with phase := 1, tick := s.now, step := s.stepNow, t := s.reg rHubUpdT, planId := b.planId, rngBase := b.rngBase })) ∧
    (x.phase = 1 → (∀ r ∈ x.regions, s.badRange r.base r.bytes = false) → s.snap.held = [] → s.snap.staging = none →
      s.badWords = [] → (x.stagingBase < stackEnd → s.stackDead (stackOf x.stagingBase).1 = false) →
      Completes (.exportStaging heldCycles) s (fun t => t.snap.shipping = some { x with phase := 2 } ∧
        Wrote x.stagingBase (x.regions.flatMap (fun r => s.peek r.base r.bytes)) s t ∧ t.snapBit snapExporting = true ∧
        Counted rSnapCtrHELDWRITECYCLES heldCycles s t)) ∧
    (2 ≤ x.phase → Completes (.exportStaging heldCycles) s (fun t => t.snap.shipping = none ∧ SameMem s t ∧
      t.snapBit snapExporting = false))

/-! ## Swaps -/

/-- R343, R363: an armed unbinding whose boundary has come ends the plan: no engine serves it any longer. While a packet of an
outgoing copy runs it is put off, counted and flagged. -/
def Sys2Proof.Machine.Says.UnbindingTakesEffect : Prop :=
  ∀ (s : State) (n : Nat), s.binding.unbindAt = some n → s.unbindReady = true → s.triedNow 0 = false →
    (s.outgoing (s.armedFor n) = false → Completes .unbindAtBoundary s (fun t => t.binding.active = none ∧
      t.binding.unbindAt = none ∧ t.bushels = [] ∧ t.flag rHubCfgStatus 7 = true ∧ ∀ e, (t.engine e).binds = [])) ∧
    (∀ b, s.outgoing (s.armedFor n) = true → s.binding.active = some b → Completes .unbindAtBoundary s (fun t =>
      t.binding.active = some b ∧ t.engines = s.engines ∧ Counted rTelCtrCFGDEFERRED 1 s t ∧ t.flag rHubCfgStatus 14 = true))

/-- R359, R362, R363, R441: a set whose tick has come swaps: every active copy of it takes its shadow, the set is armed no
longer and its SWAPPED bit is set; the rule table's copies move on by one; the tick takes its new mode and period; an armed
binding becomes the plan in force, with the owner map empty. While a packet of an outgoing copy runs the swap is put off. -/
def Sys2Proof.Machine.Says.SwapsTakeEffect : Prop :=
  ∀ (s : State) (k : Nat), k < 7 → (List.range 7).filter (fun i => s.swapReady i && !s.triedNow i) = [k] →
    s.armedFor (s.swapTick k) = [k] → (s.unbindReady = false ∨ s.triedNow 0 = true) →
    (s.outgoing [k] = false → 0 < k → Completes .configSwap s (fun t => t.setArmed k = false ∧
      t.flag rHubCfgStatus (7 + k) = true ∧ (∀ o ∈ setOffsets k, t.act o = s.reg o) ∧
      (k = 1 → t.rules.active = s.rules.shadow ∧ t.rules.prior = s.rules.active) ∧
      (k = 2 → t.tick.mode = s.tick.shMode ∧ t.tick.period = s.tick.shPeriod) ∧ t.binding.active = s.binding.active)) ∧
    (∀ b, s.outgoing [k] = false → k = 0 → s.binding.armed = some b → Completes .configSwap s (fun t =>
      t.binding.active = some b ∧ t.binding.armed = none ∧ t.snap.ownerMap = [] ∧ t.bushels = [] ∧
      t.flag rHubCfgStatus 7 = true)) ∧
    (∀ b, s.outgoing [k] = true → s.binding.active = some b → Completes .configSwap s (fun t =>
      t.binding.active = some b ∧ t.engines = s.engines ∧ t.rules = s.rules ∧ Counted rTelCtrCFGDEFERRED 1 s t ∧
      t.flag rHubCfgStatus 14 = true))

/-! ## The SPDM responder -/

namespace Sys2Proof.Machine

/-- A request in hand over an established connection, outside a session: version `v` chosen, algorithms agreed. -/
structure Connected (s : State) (q : List Byte) (code v : Nat) : Prop where
  inHand : s.pcie.doe = q
  long : 4 ≤ q.length
  code_ : fieldAt q 1 1 = code
  plain : s.pcie.doeType = 1
  chosen : s.spdm.version = some v
  sent : fieldAt q 0 1 = v
  agreed : s.spdm.algs = true

/-- A request in hand inside a session, in a module that has booted. -/
structure InSession (s : State) (q : List Byte) (code v : Nat) : Prop where
  inHand : s.pcie.doe = q
  long : 4 ≤ q.length
  code_ : fieldAt q 1 1 = code
  secured : s.pcie.doeType = 2
  open_ : s.spdm.session.isSome = true
  chosen : s.spdm.version = some v
  sent : fieldAt q 0 1 = v
  agreed : s.spdm.algs = true
  booted : s.field rHubReady 3 0 ≠ 7

/-- A request was answered: nothing is in hand any more, and no register and no memory changed. -/
def DoeDone (s t : State) : Prop := t.pcie.doe = [] ∧ t.regs = s.regs ∧ t.mem = s.mem

end Sys2Proof.Machine

/-- R411, R412: the requests that make a connection and read the module's identity and measurements. Layouts are those of
DSP0274, which the spec names and does not give (log 9). -/
def Sys2Proof.Machine.Says.SpdmConnection : Prop :=
  ∀ (s : State) (q : List Byte) (v : Nat),
    (s.pcie.doe = q → 4 ≤ q.length → fieldAt q 1 1 = 0x84 → s.pcie.doeType = 1 → Completes .getVersion s (fun t =>
      DoeDone s t ∧ t.pcie.doeReply = [0x10#8, 4#8, 0#8, 0#8, 0#8, 2#8] ++ leBytes 2 0x1200 ++ leBytes 2 0x1300 ∧
      t.spdm.version = none ∧ t.spdm.algs = false ∧ t.spdm.session = none)) ∧
    (s.pcie.doe = q → 4 ≤ q.length → fieldAt q 1 1 = 0xE1 → s.pcie.doeType = 1 → s.spdm.vca ≠ [] → s.spdm.version = none →
      fieldAt q 0 1 = 0x12 ∨ fieldAt q 0 1 = 0x13 → Completes .getCapabilities s (fun t => DoeDone s t ∧
        t.spdm.version = some (fieldAt q 0 1) ∧ fieldAt t.pcie.doeReply 1 1 = 0x61 ∧ fieldAt t.pcie.doeReply 8 4 = spdmFlags)) ∧
    (s.pcie.doe = q → 4 ≤ q.length → fieldAt q 1 1 = 0xE3 → s.pcie.doeType = 1 → s.spdm.version = some v → s.spdm.algs = false →
      fieldAt q 0 1 = v → fieldAt q 8 4 &&& 0x10 = 0x10 → fieldAt q 12 4 &&& 1 = 1 → Completes .negotiateAlgorithms s (fun t =>
        DoeDone s t ∧ t.spdm.algs = true ∧ fieldAt t.pcie.doeReply 12 4 = 0x10 ∧ fieldAt t.pcie.doeReply 16 4 = 1)) ∧
    (Connected s q 0x81 v → Completes .getDigests s (fun t => DoeDone s t ∧ t.pcie.doeReply.drop 4 = sha256 s.spdmChain)) ∧
    (Connected s q 0x82 v → fieldAt q 2 1 % 16 = 0 → fieldAt q 4 2 < s.spdmChain.length → Completes .getCertificate s (fun t =>
      DoeDone s t ∧ t.pcie.doeReply.drop 8 = (s.spdmChain.drop (fieldAt q 4 2)).take (fieldAt q 6 2))) ∧
    (Connected s q 0x83 v → fieldAt q 2 1 = 0 → 36 ≤ q.length → Completes .challenge s (fun t => DoeDone s t ∧
      t.pcie.doeReply.drop 4 ≠ [] ∧ fieldAt t.pcie.doeReply 1 1 = 3 ∧ t.spdm.certs = [])) ∧
    (Connected s q 0xE0 v → bitOf (fieldAt q 2 1) 0 = false → fieldAt q 3 1 = 0 → Completes .getMeasurements s (fun t =>
      DoeDone s t ∧ fieldAt t.pcie.doeReply 2 1 = s.blocks.length)) ∧
    (Connected s q 0xE0 v → bitOf (fieldAt q 2 1) 0 = false → fieldAt q 3 1 ≠ 0 → fieldAt q 3 1 ≠ 0xFF →
      fieldAt q 3 1 ∈ s.blocks → Completes .getMeasurements s (fun t => DoeDone s t ∧ fieldAt t.pcie.doeReply 4 1 = 1 ∧
        (t.pcie.doeReply.drop 8).take (s.block (fieldAt q 3 1)).length = s.block (fieldAt q 3 1)))

/-- R411, R412: a session is opened over a connection unless the module failed to boot or one is open; inside it FINISH needs
the requester's verify data, and the others need FINISH. An answer in a session goes out as a record (log 9). -/
def Sys2Proof.Machine.Says.SpdmSessions : Prop :=
  ∀ (s : State) (q : List Byte) (v : Nat),
    (Connected s q 0xE4 v → s.field rHubReady 3 0 ≠ 7 → s.spdm.session = none → fieldAt q 3 1 = 0 → 106 ≤ q.length →
      p256OnCurve (beNat ((q.drop 40).take 32)) (beNat ((q.drop 72).take 32)) = true → Completes .keyExchange s (fun t =>
        DoeDone s t ∧ t.spdm.session.isSome = true ∧ t.spdm.finished = false ∧ fieldAt t.pcie.doeReply 1 1 = 0x64)) ∧
    (Connected s q 0xE4 v → s.field rHubReady 3 0 = 7 → Completes .keyExchange s (fun t => DoeDone s t ∧
      t.spdm = s.spdm ∧ fieldAt t.pcie.doeReply 1 1 = 0x7F)) ∧
    (InSession s q 0xE5 v → s.spdm.finished = false →
      (q.drop 4 = hmac256 (s.spdm.finishKey v "req hs data" (s.sessionHash (s.spdm.keys.take (s.spdm.keys.length - 32))))
          (s.sessionHash (s.spdm.keys ++ q.take 4)) → Completes .finish s (fun t => DoeDone s t ∧ t.spdm.finished = true ∧
          t.spdm.reqSeq = 0 ∧ t.spdm.rspSeq = 0)) ∧
      (q.drop 4 ≠ hmac256 (s.spdm.finishKey v "req hs data" (s.sessionHash (s.spdm.keys.take (s.spdm.keys.length - 32))))
          (s.sessionHash (s.spdm.keys ++ q.take 4)) → Completes .finish s (fun t => DoeDone s t ∧ t.spdm.session = none ∧
        fieldAt t.pcie.doeReply 1 1 = 0x7F))) ∧
    (InSession s q 0xE8 v → s.spdm.finished = true → Completes .heartbeat s (fun t => DoeDone s t ∧
      t.spdm = { s.spdm with rspSeq := s.spdm.rspSeq + 1 } ∧ fieldAt t.pcie.doeReply 1 1 = 0x68 ∧
      t.pcie.doeWire = s.spdm.sealRecord v t.pcie.doeReply)) ∧
    (InSession s q 0xE9 v → s.spdm.finished = true → 1 ≤ fieldAt q 2 1 → fieldAt q 2 1 ≤ 3 → Completes .keyUpdate s (fun t =>
      DoeDone s t ∧ t.spdm.updates = s.spdm.updates + (if fieldAt q 2 1 = 3 then 0 else 1) ∧
      t.spdm.session = s.spdm.session)) ∧
    (InSession s q 0xEC v → s.spdm.finished = true → Completes .endSession s (fun t => DoeDone s t ∧ t.spdm.session = none ∧
      fieldAt t.pcie.doeReply 1 1 = 0x6C))

/-! ## The command rings -/

namespace Sys2Proof.Machine

/-- A ring that does nothing at a poll. -/
def State.quiet (s : State) (r : Nat) : Prop := s.ringRuns r = false ∧ (s.ring r).stopping = false

/-- The command behind the one at the front, if one has been fetched, has a defined opcode, so that it waits for its own
row. -/
def NextDefined (s : State) (r : Nat) : Prop := ∀ d, (s.ring r).fetched[1]? = some d → (roleOf d.op).isSome = true

/-- R335, R336: a command has been answered: its reply stands in its status slot, the ring's LAST and DONE show it, it has
left the queue of the fetched ones, and its ring holds no lock. `v` is the state it is answered in. -/
def Replied (r : Nat) (d : Cmd) (a : Reply) (v t : State) : Prop :=
  t.reg (rCmdLAST r) = (d.sequence + a.code * 2 ^ 32) % 2 ^ 64 ∧ Counted (rCmdDONE r) 1 v t ∧
  t.hostPeek (d.status + 32 * (d.index % d.slots)) 32 = replyBytes d v.now (v.ring r).waited a ∧
  (t.ring r).fetched = (v.ring r).fetched.drop 1 ∧ (t.ring r).holding = false ∧ (t.ring r).waitFrom = none ∧
  ∀ h ∈ t.host.locks, h.2 ≠ r

/-- A row of the table that executes a ring's command. -/
structure CmdRow where
  ring : Nat
  mine : Cmd → Bool
  hold : Bool
  body : Body

/-- The rows that execute commands of a ring, with what each does. PLL_RELOCK has a row of its own form. -/
def Instr.row : Instr → Option CmdRow
  | .planBind ring hold => some ⟨ring, fun d => d.op == 0x0101, hold, bodyPlanBind⟩
  | .planUnbind ring hold => some ⟨ring, fun d => d.op == 0x0102, hold, bodyPlanUnbind⟩
  | .planCancel ring hold => some ⟨ring, fun d => d.op == 0x0103, hold, bodyPlanCancel⟩
  | .kvTableSet ring hold => some ⟨ring, fun d => d.op == 0x0110, hold, bodyKvTableSet⟩
  | .kvCreate ring hold => some ⟨ring, fun d => d.op == 0x0111, hold, bodyKvCreate⟩
  | .kvDestroy ring hold => some ⟨ring, fun d => d.op == 0x0112, hold, bodyKvDestroy⟩
  | .tickCfg ring hold => some ⟨ring, fun d => d.op == 0x0201, hold, bodyTickCfg⟩
  | .yoyoTableSet ring hold => some ⟨ring, fun d => d.op == 0x0301, hold, bodyYoyoTableSet⟩
  | .poolAdd ring hold => some ⟨ring, fun d => d.op == 0x0310, hold, bodyPoolAdd⟩
  | .poolRemove ring hold => some ⟨ring, fun d => d.op == 0x0311, hold, bodyPoolRemove⟩
  | .poolList ring hold => some ⟨ring, fun d => d.op == 0x0312, hold, bodyPoolList⟩
  | .jobTableSet ring hold => some ⟨ring, fun d => d.op == 0x0401, hold, bodyJobTableSet⟩
  | .ownerMapRead ring hold => some ⟨ring, fun d => d.op == 0x0402, hold, bodyOwnerMapRead⟩
  | .ruleWrite ring hold => some ⟨ring, fun d => d.op == 0x0501, hold, bodyRuleWrite⟩
  | .ruleRead ring hold => some ⟨ring, fun d => d.op == 0x0502, hold, bodyRuleRead⟩
  | .ruleCopy ring hold => some ⟨ring, fun d => d.op == 0x0503, hold, bodyRuleCopy⟩
  | .snapCfg ring hold => some ⟨ring, fun d => d.op == 0x0601, hold, bodySnapCfg⟩
  | .snapNow ring hold => some ⟨ring, fun d => d.op == 0x0602, hold, bodySnapNow⟩
  | .snapRestore ring hold => some ⟨ring, fun d => d.op == 0x0603, hold, bodySnapRestore⟩
  | .snapExport ring hold => some ⟨ring, fun d => d.op == 0x0604, hold, bodySnapExport⟩
  | .exportWindowOpen ring hold => some ⟨ring, fun d => d.op == 0x0605, hold, bodyWindowOpen⟩
  | .exportWindowClose ring hold => some ⟨ring, fun d => d.op == 0x0606, hold, bodyWindowClose⟩
  | .mirrorPromote ring hold => some ⟨ring, fun d => d.op == 0x0607, hold, bodyMirrorPromote⟩
  | .genList ring hold => some ⟨ring, fun d => d.op == 0x0608, hold, bodyGenList⟩
  | .telRingSet ring hold => some ⟨ring, fun d => d.op == 0x0701, hold, bodyTelRingSet⟩
  | .telSelect ring hold => some ⟨ring, fun d => d.op == 0x0702, hold, bodyTelSelect⟩
  | .telAlarmClear ring hold => some ⟨ring, fun d => d.op == 0x0703, hold, bodyTelAlarmClear⟩
  | .coreFence ring hold => some ⟨ring, fun d => d.op == 0x0801, hold, bodyCoreFence⟩
  | .coreUnfence ring hold => some ⟨ring, fun d => d.op == 0x0802, hold, bodyCoreUnfence⟩
  | .coreSpareRow ring hold => some ⟨ring, fun d => d.op == 0x0803, hold, bodyCoreSpareRow⟩
  | .coreSubstitute ring hold => some ⟨ring, fun d => d.op == 0x0804, hold, bodyCoreSubstitute⟩
  | .coreTest ring hold fails => some ⟨ring, fun d => d.op == 0x0805, hold, (bodyCoreTest fails)⟩
  | .laneRecal ring hold good => some ⟨ring, fun d => d.op == 0x0810, hold, (bodyLaneRecal good)⟩
  | .rowRepair ring hold => some ⟨ring, fun d => d.op == 0x0812, hold, bodyRowRepair⟩
  | .flashRetire ring hold => some ⟨ring, fun d => d.op == 0x0813, hold, bodyFlashRetire⟩
  | .fwStage ring hold => some ⟨ring, fun d => d.op == 0x0820, hold, bodyFwStage⟩
  | .fwActivate ring hold => some ⟨ring, fun d => d.op == 0x0821, hold, bodyFwActivate⟩
  | .cfgArm ring hold dead => some ⟨ring, fun d => d.op == 0x0901, hold, (bodyCfgArm dead)⟩
  | .cfgDisarm ring hold => some ⟨ring, fun d => d.op == 0x0902, hold, bodyCfgDisarm⟩
  | .cfgCopy ring hold => some ⟨ring, fun d => d.op == 0x0903, hold, bodyCfgCopy⟩
  | .cfgValidate ring hold dead => some ⟨ring, fun d => d.op == 0x0904, hold, (bodyCfgValidate dead)⟩
  | .roleCfg ring hold => some ⟨ring, fun d => d.op == 0x0A01, hold, bodyRoleCfg⟩
  | .auditRead ring hold => some ⟨ring, fun d => d.op == 0x0A02, hold, bodyAuditRead⟩
  | .makerFuse ring hold => some ⟨ring, fun d => d.op == 0x0A10, hold, bodyMakerFuse⟩
  | .makerCal ring hold => some ⟨ring, fun d => d.op == 0x0A11, hold, bodyMakerCal⟩
  | .bootWrite ring hold => some ⟨ring, fun d => d.op == 0x0A12 && (fun a => !(a == 0x11 || a == 0x12 || a == 0x13)) d.makerAction, hold, bodyBootWrite⟩
  | .svnAdvance ring hold => some ⟨ring, fun d => d.op == 0x0A12 && (fun a => a == 0x11) d.makerAction, hold, bodySvnAdvance⟩
  | .rootRotate ring hold => some ⟨ring, fun d => d.op == 0x0A12 && (fun a => a == 0x12) d.makerAction, hold, bodyRootRotate⟩
  | .certWrite ring hold => some ⟨ring, fun d => d.op == 0x0A12 && (fun a => a == 0x13) d.makerAction, hold, bodyCertWrite⟩
  | .pwrCap ring hold => some ⟨ring, fun d => d.op == 0x0B01, hold, bodyPwrCap⟩
  | .pwrRange ring hold => some ⟨ring, fun d => d.op == 0x0B02, hold, bodyPwrRange⟩
  | .clkSource ring hold => some ⟨ring, fun d => d.op == 0x0B03, hold, bodyClkSource⟩
  | _ => none

/-- A command stands at the front of a ring that is served, and does not wait. -/
structure AtFront (s : State) (r : Nat) (d : Cmd) : Prop where
  ring : r < 4
  served : s.field rHubReady 3 0 ≠ 7
  front : s.frontCmd r = some d
  going : (s.ring r).waitFrom = none
  running : s.halted = false
  next : NextDefined s r

/-- A command at the front executes now: it holds its locks already, or its checks pass, it can take them all, no other command
in progress has its target, and its row is not to stop there; `u` is the state it executes on (R332, R333, R342). -/
structure Runs (s : State) (r : Nat) (d : Cmd) (hold : Bool) (u : State) : Prop extends AtFront s r d where
  path : ((s.ring r).holding = true ∧ u = s) ∨
    ((s.ring r).holding = false ∧ hold = false ∧ s.cmdChecks d = none ∧ s.takeLocks r d.locks.length = (u, true) ∧
      u.targetBusy r d = false)

/-- The command was answered with a code and a first reply word (R335). -/
def Answered (r : Nat) (d : Cmd) (code r0 : Nat) (t : State) : Prop :=
  t.reg (rCmdLAST r) = d.sequence + code * 2 ^ 32 ∧
  fieldAt (t.hostPeek (d.status + 32 * (d.index % d.slots)) 32) 6 1 = code ∧
  fieldAt (t.hostPeek (d.status + 32 * (d.index % d.slots)) 32) 16 4 = r0 % 2 ^ 32

end Sys2Proof.Machine

/-- R328, R330, R331, R323, R334: a poll reads the head of a ring in host memory, or again the slot that failed, fetches a
window ring up to its head, and lets a disabling take effect. A head that is read has the slots up to it read, one after the
other; one too far ahead halts the ring. A read that fails is retried once before the ring stops. A control core that fails
a self-check answers INTERNAL. -/
def Sys2Proof.Machine.Says.RingsFetch : Prop :=
  ∀ (s : State) (r : Nat), r < 4 →
    ((∀ q, q < 4 → q ≠ r → s.quiet q) → s.ringRuns r = true → s.fetching = true → s.windowRing r = false →
      (s.ring r).stopping = false → HostRead.ring r ∉ s.host.reads → HostRead.slots r ∉ s.host.reads →
      ((s.ring r).slotRetry = false → Completes (.commandPoll ⟨[], []⟩) s (fun t =>
        t.host.reads = s.host.reads ++ [HostRead.ring r] ∧ t.regs = s.regs ∧ SameMem s t)) ∧
      ((s.ring r).slotRetry = true → s.behind r ≠ 0 → Completes (.commandPoll ⟨[], []⟩) s (fun t =>
        t.host.reads = s.host.reads ++ [HostRead.slots r] ∧ (t.ring r).slotRetry = false ∧ t.regs = s.regs ∧ SameMem s t))) ∧
    ((∀ q, q < 4 → q ≠ r → s.quiet q) → s.ringRuns r = true → s.fetching = true → s.windowRing r = true →
      (s.ring r).stopping = false → (s.ring r).fetched = [] → s.reg (rCmdTAIL r) < 2 ^ 32 →
      s.reg (rCmdHEAD r) = (s.reg (rCmdTAIL r) + 1) % 2 ^ 32 →
      (roleOf (fieldAt (s.ringSlot r (4096 * (s.reg (rCmdTAIL r) % 1024)) 64) 0 2)).isSome = true →
      Completes (.commandPoll ⟨[], []⟩) s (fun t => t.reg (rCmdTAIL r) = (s.reg (rCmdTAIL r) + 1) % 2 ^ 32 ∧
        ∃ d, (t.ring r).fetched = [d] ∧ d.index = s.reg (rCmdTAIL r) ∧
          d.header = s.ringSlot r (4096 * (s.reg (rCmdTAIL r) % 1024)) 64)) ∧
    ((∀ q, q < 4 → q ≠ r → s.quiet q) → (s.ring r).stopping = true → Completes (.commandPoll ⟨[], []⟩) s (fun t =>
      (t.ring r).stopping = false ∧ HostRead.ring r ∉ t.host.reads ∧ (t.ring r).fetched = (s.ring r).fetched)) ∧
    (∀ d, (∀ q, q < 4 → s.quiet q) → s.halted = false → s.frontCmd r = some d → NextDefined s r →
      Completes (.commandPoll ⟨[], [r]⟩) s (fun t => Replied r d { code := 0xFF } (s.alarm srcHub 0x2A) t ∧
        bitOf ((t.src srcHub).codes.toNat) 0x2A = true)) ∧
    (∀ i head n, s.host.reads[i]? = some (.ring r) → s.windowRing r = false →
      head = leNat (s.hostPeek (s.reg (rCmdHEADADDR r)) 4) → n = (head + 2 ^ 32 - s.reg (rCmdTAIL r)) % 2 ^ 32 →
      (n ≤ s.ringSlots r → s.fetching = true → s.ringRuns r = true → (s.ring r).stopping = false →
        Completes (.hostCompletion i false []) s (fun t => t.reg (rCmdHEAD r) = head ∧
          t.host.reads = s.host.reads.eraseIdx i ++ (if n = 0 then [] else [HostRead.slots r]) ∧
          (t.ring r).fetched = (s.ring r).fetched ∧ (t.ring r).fetchFail = 0 ∧ SameMem s t)) ∧
      (s.ringSlots r < n → Completes (.hostCompletion i false []) s (fun t => t.reg (rCmdHEAD r) = head ∧
        t.flag (rCmdSTATUS r) 0 = true ∧ t.ringRuns r = false ∧ t.host.reads = s.host.reads.eraseIdx i))) ∧
    (∀ i, s.host.reads[i]? = some (.slots r) → (s.ring r).fetched = [] → s.reg (rCmdTAIL r) < 2 ^ 32 →
      s.reg (rCmdHEAD r) = (s.reg (rCmdTAIL r) + 1) % 2 ^ 32 →
      (roleOf (fieldAt (s.ringSlot r (4096 * (s.reg (rCmdTAIL r) % s.ringSlots r)) 64) 0 2)).isSome = true →
      Completes (.hostCompletion i false []) s (fun t => t.host.reads = s.host.reads.eraseIdx i ∧
        t.reg (rCmdTAIL r) = (s.reg (rCmdTAIL r) + 1) % 2 ^ 32 ∧ (t.ring r).fetchFail = 0 ∧
        ∃ d, (t.ring r).fetched = [d] ∧ d.header = s.ringSlot r (4096 * (s.reg (rCmdTAIL r) % s.ringSlots r)) 64)) ∧
    (∀ i slot, s.host.reads[i]? = some (if slot then HostRead.slots r else HostRead.ring r) →
      ((s.ring r).fetchFail = 0 → Completes (.completionTimeout i) s (fun t =>
        (t.ring r).fetchFail = 1 ∧ (t.ring r).slotRetry = slot ∧ Counted rPcieCtrFETCHRETRIES 1 s t ∧
        t.host.reads = s.host.reads.eraseIdx i)) ∧
      ((s.ring r).fetchFail ≠ 0 → Completes (.completionTimeout i) s (fun t =>
        t.flag (rCmdSTATUS r) 1 = true ∧ t.ringRuns r = false ∧ t.host.reads = s.host.reads.eraseIdx i))) ∧
    (∀ i g a n, s.host.reads[i]? = some (.pool g a n) → Completes (.completionTimeout i) s (fun t =>
      Counted rPcieCtrPOOLREADERRORS 1 s t ∧ t.host.reads = s.host.reads.eraseIdx i ∧ SameMem s t))

/-- R332, R333, R335, R336, R342: what a row of a ring's command does, whatever the command: a check that fails is answered,
and so is a lock that is held where the command may not wait, and a target that another command in progress has; one that may wait waits with nothing changed; a row that stops
at its locks holds them; else the command executes once, and is answered. -/
def Sys2Proof.Machine.Says.CommandProtocol : Prop :=
  ∀ (c : Instr) (row : CmdRow) (s u : State) (d : Cmd) (all : Bool), Instr.row c = some row → AtFront s row.ring d →
    row.mine d = true →
    (∀ a, (s.ring row.ring).holding = false → s.cmdChecks d = some a → Completes c s (fun t => Replied row.ring d a s t ∧
      SameMem s t ∧ t.binding = s.binding ∧ t.rules = s.rules ∧ t.snap = s.snap ∧ t.nvm = s.nvm)) ∧
    ((s.ring row.ring).holding = false → s.cmdChecks d = none → s.takeLocks row.ring d.locks.length = (u, all) →
      (all = false → d.noWait = true → Completes c s (fun t => Replied row.ring d { code := 0x40 } u t ∧ SameMem s t)) ∧
      (all = false → d.noWait = false → Completes c s (fun t => (t.ring row.ring).waitFrom.isSome = true ∧
        (t.ring row.ring).fetched = (s.ring row.ring).fetched ∧ t.regs = s.regs ∧ SameMem s t)) ∧
      (all = true → u.targetBusy row.ring d = true → Completes c s (fun t => Replied row.ring d { code := 0x12 } u t ∧
        SameMem s t)) ∧
      (all = true → u.targetBusy row.ring d = false → row.hold = true → Completes c s (fun t => (t.ring row.ring).holding = true ∧
        (t.ring row.ring).fetched = (s.ring row.ring).fetched ∧ t.host.locks = u.host.locks ∧ t.regs = s.regs ∧ SameMem s t))) ∧
    (Runs s row.ring d row.hold u → NextDefined (row.body row.ring d u).1 row.ring → Completes c s (fun t =>
      Replied row.ring d (row.body row.ring d u).2 (row.body row.ring d u).1 t))

/-- R332: a lock that is released passes to the command that began to wait first, which executes; one that has waited longer
than WAIT_LIMIT is answered with TIMEOUT. -/
def Sys2Proof.Machine.Says.LocksPassOn : Prop :=
  ∀ (s v u : State) (r waited dead : Nat) (d : Cmd), r < 4 → s.frontCmd r = some d →
    (s.oldestWaiter = some r → waited ≤ s.field rCmdCtrl 15 8 * 100000 →
      v = (s.count rCmdLockWaitUs waited).setRing r { s.ring r with waited := true, waitFrom := none } →
      v.takeLocks r d.locks.length = (u, true) →
      NextDefined (bodyOf dead d r d u).1 r → Completes (.lockGrant waited dead) s (fun t =>
        Replied r d (bodyOf dead d r d u).2 (bodyOf dead d r d u).1 t)) ∧
    ((s.ring r).waitFrom.isSome = true → s.field rCmdCtrl 15 8 * 100000 < waited → NextDefined s r →
      Completes (.lockWaitTimeout r waited) s (fun t => t.reg (rCmdLAST r) = (d.sequence + 0x40 * 2 ^ 32) % 2 ^ 64 ∧
        Counted (rCmdDONE r) 1 s t ∧ Counted rCmdLockWaitUs waited s t ∧
        (t.ring r).fetched = (s.ring r).fetched.drop 1 ∧ (t.ring r).waitFrom = none ∧ (∀ h ∈ t.host.locks, h.2 ≠ r) ∧
        SameMem s t))

/-! ## The commands: plan, KV regions, tick, residency, jobs -/

/-- R343: a binding whose checks pass is armed for its tick, and the plan in force stays; an unbinding is armed for its
boundary; what is armed and not yet due is disarmed. -/
def Sys2Proof.Machine.Says.PlanCommands : Prop :=
  ∀ (s u : State) (r : Nat) (d : Cmd) (hold : Bool), Runs s r d hold u →
    (d.op = 0x0101 → d.reserved 3 false = none → u.bindBad (d.p 0) (d.p 1) = none →
      (u.checkPlan (d.p 0) (d.p 1) (u.binding.registered.getD {})).2 = none → Completes (.planBind r hold) s (fun t =>
        Answered r d 0 0 t ∧ SameMem s t ∧ t.binding.active = u.binding.active ∧ t.binding.armedTick = d.p 1 ∧
        t.flag rHubCfgStatus 0 = true ∧
        ∃ b, t.binding.armed = some b ∧ b.addr = d.p 0 ∧ b.first = d.p 1 ∧ b.rngBase = d.p 2)) ∧
    (∀ b, d.op = 0x0102 → d.reserved 1 false = none → u.binding.active = some b → u.binding.armed = none →
      u.binding.unbindAt = none → b.period ≠ 0 →
      (d.p 0 = 0 → Completes (.planUnbind r hold) s (fun t => Answered r d 0 0 t ∧ SameMem s t ∧
        t.binding.unbindAt = some (u.nextBoundary b) ∧ t.binding.active = some b)) ∧
      (u.now < d.p 0 → b.boundary (d.p 0) = true → Completes (.planUnbind r hold) s (fun t => Answered r d 0 0 t ∧
        SameMem s t ∧ t.binding.unbindAt = some (d.p 0) ∧ t.binding.active = some b))) ∧
    (d.op = 0x0103 → d.reserved 0 false = none → u.binding.armed.isSome = true → u.tooLate 0 = false →
      Completes (.planCancel r hold) s (fun t => Answered r d 0 0 t ∧ SameMem s t ∧ t.binding.armed = none ∧
        t.binding.armedTick = 0 ∧ t.binding.active = u.binding.active)) ∧
    (d.op = 0x0103 → d.reserved 0 false = none → u.binding.armed = none → u.binding.unbindAt = none →
      Completes (.planCancel r hold) s (fun t => Answered r d 1 0 t ∧ t.binding = u.binding))

/-- R157, R158, R164, R343: the region table is placed while no region exists; a region that passes its checks exists from
then on, with its slot size in its entry; one that nobody uses is destroyed. -/
def Sys2Proof.Machine.Says.KvCommands : Prop :=
  ∀ (s u : State) (r : Nat) (d : Cmd) (hold : Bool), Runs s r d hold u →
    (d.op = 0x0110 → d.reserved 1 false = none → u.kv.any (fun x => x.2.present) = false → d.p 0 % 64 = 0 →
      inStack (d.p 0) (16384 * 64) = true → Completes (.kvTableSet r hold) s (fun t => Answered r d 0 0 t ∧ SameMem s t ∧
        t.kvTable = some (d.p 0))) ∧
    (∀ table k, d.op = 0x0111 → d.reserved 1 true = none → u.kvTable = some table → d.p 0 < 16384 →
      (u.kvUse (d.p 0)).present = false → d.len = 64 → d.payload.length = 64 → kvDescBad d.payload = none →
      k = kvDescOf d.payload → inStack k.base (k.slotSize * k.capacity + 16 * ceilDiv k.capacity 128) = true →
      Clear u (table + 64 * d.p 0) 64 →
      k.base + k.slotSize * k.capacity ≤ table + 64 * d.p 0 ∨ table + 64 * d.p 0 + 64 ≤ k.base →
      Completes (.kvCreate r hold) s (fun t => Answered r d 0 k.slotSize t ∧ (t.kvUse (d.p 0)).present = true ∧
        t.peek (table + 64 * d.p 0) 64 = d.payload.take 0x38 ++ leBytes 4 k.slotSize ++ leBytes 4 0)) ∧
    (d.op = 0x0112 → d.reserved 1 false = none → u.kvExists (d.p 0) = true → (u.kvUse (d.p 0)).lock = none →
      (u.kvUse (d.p 0)).waiters = [] → (u.kvUse (d.p 0)).readers = [] → Completes (.kvDestroy r hold) s (fun t =>
        Answered r d 0 0 t ∧ SameMem s t ∧ t.kvExists (d.p 0) = false)) ∧
    (d.op = 0x0112 → d.reserved 1 false = none → u.kvExists (d.p 0) = false → Completes (.kvDestroy r hold) s (fun t =>
      Answered r d 1 0 t ∧ t.kv = u.kv))

/-- R159, stated whole: a creation whose sinks and recent window do not leave room is answered with BAD_PARAM, with a
FRAME_EVICT region's frames counted whole. -/
def Obligations.KvCreateCapacity : Prop :=
  ∀ (s u : State) (r : Nat) (d : Cmd) (hold : Bool) (k : KvDesc), Runs s r d hold u → d.op = 0x0111 →
    d.reserved 1 true = none → u.kvTable.isSome = true → d.p 0 < 16384 → (u.kvUse (d.p 0)).present = false → d.len = 64 →
    k = kvDescOf d.payload →
    (k.capacity ≤ k.sinks + k.recent →
      Completes (.kvCreate r hold) s (fun t => t.reg (rCmdLAST r) = d.sequence + 0x11 * 2 ^ 32 ∧ SameMem s t ∧ t.kv = u.kv)) ∧
    (bitOf k.flags 0 = true → k.capacity < k.tpf * (ceilDiv k.sinks k.tpf + ceilDiv k.recent k.tpf + 1) →
      Completes (.kvCreate r hold) s (fun t => t.reg (rCmdLAST r) = d.sequence + 0x11 * 2 ^ 32 ∧ SameMem s t ∧ t.kv = u.kv))

/-- R344, stated whole: TICK_CFG asks for role O, writes mode and period of the shadow set, refuses while a tick swap is armed
and a period outside R27's range, and leaves the mode and the period in force to the swap. -/
def Obligations.TickCfgWritesShadow : Prop :=
  roleOf 0x0201 = some 0 ∧
  ∀ (s u : State) (r : Nat) (d : Cmd) (hold : Bool), Runs s r d hold u → d.op = 0x0201 → d.reserved 2 false = none → d.p 0 < 2 →
    (u.setArmed 2 = false → 100 ≤ d.p 1 → d.p 1 ≤ 2000000 → Completes (.tickCfg r hold) s (fun t => Answered r d 0 0 t ∧
      t.tick.shMode = (if d.p 0 = 1 then .fabric else .local) ∧ t.tick.shPeriod = d.p 1 ∧
      t.tick.mode = s.tick.mode ∧ t.tick.period = s.tick.period ∧ t.now = s.now ∧ SameMem s t)) ∧
    (u.setArmed 2 = true → Completes (.tickCfg r hold) s (fun t => Answered r d 0x12 0 t ∧ t.tick = s.tick ∧ SameMem s t)) ∧
    (u.setArmed 2 = false → d.p 1 < 100 ∨ 2000000 < d.p 1 → Completes (.tickCfg r hold) s (fun t =>
      Answered r d 0x11 0x18 t ∧ t.tick = s.tick ∧ SameMem s t))

/-- R347, stated whole: OWNER_MAP_READ asks for role O, writes 4 bytes for each substitution, the old ID and then the new, and
answers their count. That a destination outside stack and shared memory is refused is the model's choice (log 64). -/
def Obligations.OwnerMapReadWritesMap : Prop :=
  roleOf 0x0402 = some 0 ∧
  ∀ (s u : State) (r : Nat) (d : Cmd) (hold : Bool), Runs s r d hold u → d.op = 0x0402 → d.reserved 1 false = none →
    inMem (d.p 0) (4 * u.snap.ownerMap.length) = true → Clear u (d.p 0) (4 * u.snap.ownerMap.length) →
    Completes (.ownerMapRead r hold) s (fun t => Answered r d 0 u.snap.ownerMap.length t ∧
      Wrote (d.p 0) (u.snap.ownerMap.flatMap (fun x => leBytes 2 x.1 ++ leBytes 2 x.2)) u t ∧ t.snap = u.snap)

/-- R192, R200, R345, R346: a Yo-yo's descriptor table is placed while no plan is bound or armed; extents of the host pool are
added with the lowest free number, removed where nothing uses them, and listed by number; a job table that passes its checks
is registered with its lists. -/
def Sys2Proof.Machine.Says.PoolAndJobCommands : Prop :=
  ∀ (s u : State) (r : Nat) (d : Cmd) (hold : Bool), Runs s r d hold u →
    (d.op = 0x0301 → d.reserved 2 false = none → u.binding.active = none → u.binding.armed = none → d.p 0 < 2 →
      d.p 1 % 2 ^ 24 = 0 → inHalf (d.p 0) (d.p 1) (2 ^ 24) = true → Completes (.yoyoTableSet r hold) s (fun t =>
        Answered r d 0 0 t ∧ (t.yoyo (d.p 0)).table = some (d.p 1) ∧ SameMem s t)) ∧
    (∀ num, d.op = 0x0310 → d.reserved 3 false = none → d.p 0 % mib2 = 0 → d.p 1 % mib2 = 0 → d.p 2 % mib2 = 0 → d.p 2 ≠ 0 →
      d.p 0 + d.p 2 ≤ poolEnd - poolBase → (∀ x ∈ u.host.extents, meets (d.p 0) (d.p 2) x.offset x.bytes = false) →
      u.host.extents.length < 4096 → (u.host.extents.map (fun x => x.bytes)).sum + d.p 2 ≤ poolEnd - poolBase →
      findN 4096 (fun i => !u.host.extents.any (fun x => x.num == i)) = some num → Completes (.poolAdd r hold) s (fun t =>
        Answered r d 0 num t ∧ SameMem s t ∧
        t.host.extents = u.host.extents ++ [{ offset := d.p 0, host := d.p 1, bytes := d.p 2, num := num }])) ∧
    (∀ x, d.op = 0x0311 → d.reserved 1 false = none → u.host.extents.find? (fun x => x.offset == d.p 0) = some x →
      u.extentUsed x = false → u.binding.armed = none → u.setArmed 3 = false → Completes (.poolRemove r hold) s (fun t =>
        Answered r d 0 0 t ∧ t.host.extents = u.host.extents.filter (fun y => y.offset != d.p 0) ∧ SameMem s t)) ∧
    (∀ xs, d.op = 0x0312 → d.reserved 1 false = none → xs = u.host.extents.mergeSort (fun a b => decide (a.num ≤ b.num)) →
      d.p 0 % 16 = 0 → inMem (d.p 0) (16 * xs.length) = true → Clear u (d.p 0) (16 * xs.length) →
      Completes (.poolList r hold) s (fun t => Answered r d 0 xs.length t ∧
        Wrote (d.p 0) (xs.flatMap (fun x => leBytes 8 x.offset ++ leBytes 8 x.host)) u t)) ∧
    (d.op = 0x0401 → d.reserved 1 false = none → inStack (d.p 0) 64 = true → u.badRange (d.p 0) 64 = false →
      u.jobBad (d.p 0) = none → u.ld 2 (d.p 0 + 6) = u.act rHubFabricId % 65536 →
      ((List.range (u.ld 4 (d.p 0 + 0x1C))).map (fun i => (u.jobDir (u.ld 8 (d.p 0 + 0x20)) i).2.1)).sum ≤ 4194304 →
      u.setArmed 4 = false → Completes (.jobTableSet r hold) s (fun t => Answered r d 0 0 t ∧ SameMem s t ∧
        ∃ j, t.binding.registered = some j ∧ j.bytes = u.peek (d.p 0) 64 ∧ j.lists = (List.range (u.ld 4 (d.p 0 + 0x1C))).map
          (fun i => u.jobIds (u.jobDir (u.ld 8 (d.p 0 + 0x20)) i).1 (u.jobDir (u.ld 8 (d.p 0 + 0x20)) i).2.1)))

/-- R348, R351, R418, R422, R423: rule entries are written to the shadow while it is not armed, any copy is read, the shadow
becomes the active copy again; the telemetry ring is placed and starts empty, the selection is taken, and an alarm latch is
cleared. -/
def Sys2Proof.Machine.Says.RuleAndTelemetryCommands : Prop :=
  ∀ (s u : State) (r : Nat) (d : Cmd) (hold : Bool), Runs s r d hold u →
    (d.op = 0x0501 → d.reserved 2 true = none → 1 ≤ d.p 1 → d.p 1 ≤ 63 → d.p 0 ≤ 255 → d.p 0 + d.p 1 ≤ 256 →
      d.len = 64 * d.p 1 → d.payload.length = 64 * d.p 1 → u.setArmed 1 = false → Completes (.ruleWrite r hold) s (fun t =>
        Answered r d 0 0 t ∧ SameMem s t ∧ t.rules.active = u.rules.active ∧ t.rules.prior = u.rules.prior ∧
        Tbl.getMany zeroByte t.rules.shadow (64 * d.p 0) (64 * d.p 1) = d.payload ∧
        (∀ x, x < 64 * d.p 0 ∨ 64 * d.p 0 + 64 * d.p 1 ≤ x → Tbl.get zeroByte t.rules.shadow x =
          Tbl.get zeroByte u.rules.shadow x))) ∧
    (d.op = 0x0501 → d.reserved 2 true = none → 1 ≤ d.p 1 → d.p 1 ≤ 63 → d.p 0 ≤ 255 → d.p 0 + d.p 1 ≤ 256 →
      d.len = 64 * d.p 1 → u.setArmed 1 = true → Completes (.ruleWrite r hold) s (fun t => Answered r d 0x12 0 t ∧
        t.rules = u.rules ∧ SameMem s t)) ∧
    (d.op = 0x0502 → d.reserved 2 false = none → d.p 0 ≤ 2 → d.p 1 % 64 = 0 → inMem (d.p 1) 16384 = true →
      Clear u (d.p 1) 16384 → Completes (.ruleRead r hold) s (fun t => Answered r d 0 0 t ∧ t.rules = u.rules ∧
        Wrote (d.p 1) (Tbl.getMany zeroByte (if d.p 0 = 0 then u.rules.active else if d.p 0 = 1 then u.rules.shadow
          else u.rules.prior) 0 16384) u t)) ∧
    (d.op = 0x0503 → d.reserved 0 false = none → u.setArmed 1 = false → Completes (.ruleCopy r hold) s (fun t =>
      Answered r d 0 0 t ∧ t.rules = { u.rules with shadow := u.rules.active } ∧ SameMem s t)) ∧
    (d.op = 0x0701 → d.reserved 2 false = none → d.p 0 % mib2 = 0 → d.p 1 % mib2 = 0 → 0x4000000 ≤ d.p 1 →
      d.p 1 ≤ 0x100000000 → inStack (d.p 0) (d.p 1) = true → inStack (d.p 0) 64 = true →
      Completes (.telRingSet r hold) s (fun t => Answered r d 0 0 t ∧ SameMem s t ∧ t.reg rTelRingBase = d.p 0 ∧
        t.reg rTelRingBytes = d.p 1 ∧ t.reg rTelWriteIndex = 0 ∧ t.reg rTelReadIndex = 0)) ∧
    (d.op = 0x0702 → d.reserved 2 false = none → d.p 0 &&& traceBits = d.p 0 → d.p 1 &&& logBits = d.p 1 →
      Completes (.telSelect r hold) s (fun t => Answered r d 0 0 t ∧ t.tel.traceSel = d.p 0 ∧ t.tel.logSel = d.p 1 ∧
        SameMem s t)) ∧
    (d.op = 0x0703 → d.reserved 1 false = none → (u.src (d.p 0)).codes ≠ 0#64 → Completes (.telAlarmClear r hold) s (fun t =>
      Answered r d 0 0 t ∧ (t.src (d.p 0)).codes = 0#64 ∧ (t.src (d.p 0)).count = (u.src (d.p 0)).count)) ∧
    (d.op = 0x0703 → d.reserved 1 false = none → (u.src (d.p 0)).codes = 0#64 → Completes (.telAlarmClear r hold) s (fun t =>
      Answered r d 1 0 t ∧ t.tel = u.tel))

/-! ## The commands: snapshots -/

/-- R291, R293, R297, R298, R301, R350: a snapshot configuration takes effect at once with no plan bound, and at the next
boundary with one; a snapshot is asked for; a valid generation is restored and an invalid record refused; an export is taken
in hand; windows open and close; a mirror that may promotes itself; the valid generations are listed. -/
def Obligations.SnapshotCommands : Prop :=
  ∀ (s u : State) (r : Nat) (d : Cmd) (hold : Bool), Runs s r d hold u →
    (∀ w, d.op = 0x0601 → d.reserved 0 true = none → d.snapBad = none → w = u.takeSnapCfg →
      (d.snapCfg.n = w.snap.cfg.n ∧ d.snapCfg.slotBytes = w.snap.cfg.slotBytes) ∨ d.snapCfg.discard = true →
      (u.binding.active = none → Completes (.snapCfg r hold) s (fun t => Answered r d 0 0 t ∧ SameMem s t ∧
        t.snap.cfg = d.snapCfg ∧ t.snap.cfgGiven = true ∧ t.snap.cfgNext = none)) ∧
      (∀ b, u.binding.active = some b → b.period ≠ 0 → Completes (.snapCfg r hold) s (fun t => Answered r d 0 0 t ∧
        SameMem s t ∧ t.snap.cfg = w.snap.cfg ∧ t.snap.cfgNext = some (u.nextBoundary b, d.snapCfg)))) ∧
    (d.op = 0x0602 → d.reserved 0 false = none → u.snap.cfgGiven = true → u.snap.now = none →
      Completes (.snapNow r hold) s (fun t => Answered r d 0 0 t ∧ t.snap.now = some u.now ∧ t.snap.gens = u.snap.gens ∧
        SameMem s t)) ∧
    (∀ w x j, d.op = 0x0603 → d.reserved 3 false = none → d.p 1 = 0 → u.binding.active = none → u.setArmed 1 = false →
      w = u.takeSnapCfg → x = w.restoreSrc d → u.binding.registered = some j →
      (recordValid x.pub x.record = true → fieldAt x.record 0x38 8 ≤ x.bytes.length → digestMatches x.record x.bytes = true →
        fieldAt x.record 8 8 = j.field 8 8 → leNat (x.state 49240 8) = j.field 0x10 8 →
        (∀ p ∈ x.places, inStack p.1.base p.1.bytes = true) → Completes (.snapRestore r hold) s (fun t =>
          Answered r d 0 (fieldAt x.record 0x10 8 % 2 ^ 32) t ∧ t.reg rHubUpdT = fieldAt x.record 0x20 8 ∧
          t.updBit updStale = false ∧ t.updBit updPending = false ∧ t.snapBit snapDeposed = false ∧
          t.snap.gens = w.snap.gens)) ∧
      (recordValid x.pub x.record = false → Completes (.snapRestore r hold) s (fun t => Answered r d 0x22 0 t ∧ SameMem s t ∧
        t.rules = u.rules ∧ Counted rSecCtrSIGFAILS 1 u t))) ∧
    (d.op = 0x0604 → d.reserved 1 true = none → d.dirty 1 3 = false → d.dirty 5 3 = false →
      d.regionsDirty 0x38 (d.pay 0x30 8) = none → u.snap.shipping = none → u.exportBad d = none →
      Completes (.snapExport r hold) s (fun t => Answered r d 0 0 t ∧ SameMem s t ∧ ∃ x, t.snap.shipping = some x ∧
        x.phase = 0 ∧ x.regions = d.regions 0x38 (d.pay 0x30 8) ∧ x.stagingBase = d.pay 0x20 8 ∧ x.dst = d.pay 0x10 8)) ∧
    (d.op = 0x0605 → d.reserved 4 false = none → u.snap.windows.any (fun w => w.window == d.p 0) = false → d.p 0 ≤ 15 →
      d.p 1 < 0xFFFF → d.p 2 % 64 = 0 → inStack (d.p 2) 1 = true → inStack (d.p 2) (d.p 3) = true →
      Completes (.exportWindowOpen r hold) s (fun t => Answered r d 0 0 t ∧ SameMem s t ∧ t.snap.windows = u.snap.windows ++
        [{ window := d.p 0, source := d.p 1, base := d.p 2, bytes := d.p 3 }])) ∧
    (d.op = 0x0606 → d.reserved 1 false = none → u.snap.windows.any (fun w => w.window == d.p 0) = true →
      Completes (.exportWindowClose r hold) s (fun t => Answered r d 0 0 t ∧ SameMem s t ∧
        t.snap.windows = u.snap.windows.filter (fun w => w.window != d.p 0))) ∧
    (d.op = 0x0607 → d.reserved 0 false = none → u.mayPromote = true →
      (∀ b, u.binding.active = some b → Completes (.mirrorPromote r hold) s (fun t => Answered r d 0 0 t ∧ SameMem s t ∧
        t.snap.promoteAt = some (u.nextBoundary b) ∧ t.snap.activated = u.snap.activated)) ∧
      (u.binding.active = none → Completes (.mirrorPromote r hold) s (fun t => Answered r d 0 0 t ∧ SameMem s t ∧
        t.snap.activated = true ∧ t.snapBit snapPromoted = true))) ∧
    (∀ gs, d.op = 0x0608 → d.reserved 1 false = none → gs = u.takeSnapCfg.validGens → d.p 0 % 64 = 0 →
      inMem (d.p 0) (256 * gs.length) = true → (∀ g ∈ gs, g.commit.length = 256) → Clear u (d.p 0) (256 * gs.length) →
      Completes (.genList r hold) s (fun t => Answered r d 0 gs.length t ∧ Wrote (d.p 0) (gs.flatMap (fun g => g.commit)) u t))

/-! ## The commands: maintenance, configuration, security -/

/-- R78, R81, R86, R352, R368: a core is fenced once it is idle, and unfenced; a fenced core takes a spare map, a spare
position or a self-test, whose failing rows are kept. -/
def Sys2Proof.Machine.Says.CoreCommands : Prop :=
  ∀ (s u : State) (r : Nat) (d : Cmd) (hold : Bool), Runs s r d hold u → d.p 0 ≤ 1 → d.p 1 ≤ 63 →
    (d.op = 0x0801 → d.reserved 2 false = none → (u.core d.coreKey).fenced = false → Completes (.coreFence r hold) s (fun t =>
      Answered r d 0 0 t ∧ SameMem s t ∧ t.core d.coreKey = { u.core d.coreKey with fenceReq := true })) ∧
    (d.op = 0x0802 → d.reserved 2 false = none → (u.core d.coreKey).fenced = true → Completes (.coreUnfence r hold) s (fun t =>
      Answered r d 0 0 t ∧ SameMem s t ∧ (t.core d.coreKey).fenced = false ∧ (t.core d.coreKey).fenceReq = false)) ∧
    (d.op = 0x0803 → d.reserved 3 false = none → (u.core d.coreKey).fenced = true → spareMapBad (d.p 2) = none →
      Completes (.coreSpareRow r hold) s (fun t => Answered r d 0 0 t ∧ SameMem s t ∧
        t.reg (rCoreSpareMap (d.p 0) (d.p 1)) = d.p 2 ∧
        t.inst.spareMaps = Tbl.insert (posKey (d.p 0) (u.position (d.p 0) (d.p 1))) (d.p 2) u.inst.spareMaps)) ∧
    (d.op = 0x0804 → d.reserved 3 false = none → (u.core d.coreKey).fenced = true → 64 ≤ d.p 2 → d.p 2 ≤ 67 →
      (∀ i, i < 64 → u.position (d.p 0) i ≠ d.p 2) → (u.rowFails (d.p 0) (d.p 2)).length < 3 →
      Completes (.coreSubstitute r hold) s (fun t => Answered r d 0 0 t ∧ SameMem s t ∧
        t.position (d.p 0) (d.p 1) = d.p 2 ∧ t.reg (rCoreSpareMap (d.p 0) (d.p 1)) = u.positionMap (d.p 0) (d.p 2) % 2 ^ 64 ∧
        (t.core d.coreKey).substituted = true)) ∧
    (∀ fails bad, d.op = 0x0805 → d.reserved 2 false = none → (u.core d.coreKey).fenced = true →
      bad = (rowsInUse (u.reg (rCoreSpareMap (d.p 0) (d.p 1)))).filter (fun r => fails.contains r) →
      Completes (.coreTest r hold fails) s (fun t => Answered r d 0 (match bad with | [] => 0 | x :: _ => x + 1) t ∧
        SameMem s t ∧ t.rowFails (d.p 0) (u.position (d.p 0) (d.p 1)) = bad)) ∧
    (∀ op, d.op = op → (u.core d.coreKey).fenced = false →
      (op = 0x0803 → d.reserved 3 false = none → Completes (.coreSpareRow r hold) s (Answered r d 0x12 0)) ∧
      (op = 0x0805 → d.reserved 2 false = none → Completes (.coreTest r hold []) s (Answered r d 0x12 0)))

/-- R81, R368: a fence that was asked for begins once neither stream of the core has a packet and no ramp runs. -/
def Sys2Proof.Machine.Says.FencesBegin : Prop :=
  ∀ (s : State) (die c : Nat), die < 2 → c < 64 → (s.core (coreKey die c)).fenceReq = true →
    (s.core (coreKey die c)).ramp.phase = 0 → s.run (engineId 1 die c) = none → s.run (engineId 2 die c) = none →
    Completes (.fenceBegin die c) s (fun t =>
      t.core (coreKey die c) = { s.core (coreKey die c) with fenceReq := false, fenced := true } ∧
      (∀ k, k ≠ coreKey die c → t.core k = s.core k) ∧ t.regs = s.regs ∧ SameMem s t)

/-- R302, R352, R367, R369, R407: a port that is down and may train retrains with the lanes found good; a re-lock stops its domain until its
end; a row of memory and a block of flash are replaced while spares are left; a signed image is staged, activated, and taken
by one engine after another. -/
def Obligations.ServiceCommands : Prop :=
  ∀ (s u : State) (r : Nat) (d : Cmd) (hold : Bool),
    (∀ good, Runs s r d hold u → d.op = 0x0810 → d.reserved 2 false = none → d.p 0 ≤ 3 → d.p 1 ≤ 15 →
      (u.port (d.p 0)).state = 0 → Completes (.laneRecal r hold good) s (fun t => t.reg (rCmdLAST r) = d.sequence ∧
        (u.portMayTrain (d.p 0) = true → (t.port (d.p 0)).state = 3 ∧ (t.port (d.p 0)).fresh = true ∧
          Counted (rFabCtrDEGRADES (d.p 0)) 1 u t) ∧
        (u.portMayTrain (d.p 0) = false → (t.port (d.p 0)).state = 0) ∧ SameMem s t ∧ ∀ l, l < 4 → listGet false (t.port (d.p 0)).lanes l =
          (if bitOf (d.p 1) l then bitOf good l else listGet false (u.port (d.p 0)).lanes l))) ∧
    (AtFront s r d → d.op = 0x0811 → (s.ring r).holding = false → s.cmdChecks d = none → d.reserved 1 false = none →
      d.p 0 ≤ 4 → s.targetBusy r d = false → (∀ x ∈ s.clk.relocks, x.ring ≠ some r) → Completes (.pllRelock r) s (fun t =>
        t.clk.relocks = s.clk.relocks ++ [{ pll := d.p 0, ring := some r }] ∧ (t.ring r).holding = true ∧
        t.relocking (d.p 0) = true ∧ t.regs = s.regs ∧ SameMem s t)) ∧
    (Runs s r d hold u → d.op = 0x0812 → d.reserved 3 false = none → d.p 0 ≤ 11 → d.p 1 ≤ 31 →
      u.rowSpares (32 * d.p 0 + d.p 1) ≠ 0 → Completes (.rowRepair r hold) s (fun t => Answered r d 0 0 t ∧ SameMem s t ∧
        t.rowSpares (32 * d.p 0 + d.p 1) = u.rowSpares (32 * d.p 0 + d.p 1) - 1 ∧
        t.inst.rows = u.inst.rows ++ [(d.p 0, d.p 1, d.p 2)])) ∧
    (Runs s r d hold u → d.op = 0x0813 → d.reserved 1 false = none → d.p 0 < slotBlocks + u.snap.sparesUsed →
      d.p 0 ∉ u.snap.retired → (∀ g, u.validGens.getLast? = some g → d.p 0 ∉ g.blocks) → 0 < u.reg rSnapCtrSPARESLEFT →
      Completes (.flashRetire r hold) s (fun t => Answered r d 0 0 t ∧ SameMem s t ∧
        t.snap.retired = u.snap.retired ++ [d.p 0] ∧ t.reg rSnapCtrSPARESLEFT = u.reg rSnapCtrSPARESLEFT - 1)) ∧
    (∀ img, Runs s r d hold u → d.op = 0x0820 → d.reserved 3 false = none → 256 ≤ d.p 1 → d.p 1 ≤ 0x4000000 →
      inMem (d.p 0) (d.p 1) = true → d.p 2 ≤ 9 → img = u.peek (d.p 0) (d.p 1) → u.badRange (d.p 0) (d.p 1) = false →
      fwHeaderBad img (d.p 1) (d.p 2) = none →
      (u.imageSigned img = true → (u.fwOf (d.p 2)).staged = none → Completes (.fwStage r hold) s (fun t =>
        Answered r d 0 0 t ∧ SameMem s t ∧ t.fwOf (d.p 2) = { u.fwOf (d.p 2) with staged := some img })) ∧
      (u.imageSigned img = false → Completes (.fwStage r hold) s (fun t => Answered r d 0x22 0 t ∧ SameMem s t ∧
        t.fw = u.fw ∧ Counted rSecCtrSIGFAILS 1 u t))) ∧
    (∀ img, Runs s r d hold u → d.op = 0x0821 → d.p 0 = 0 → d.p 1 = 0 → d.reserved 3 false = none → d.p 2 ≤ 9 →
      (u.fwOf (d.p 2)).staged = some img → (u.fwOf (d.p 2)).activating = false → Completes (.fwActivate r hold) s (fun t =>
        Answered r d 0 0 t ∧ SameMem s t ∧ (t.fwOf (d.p 2)).activating = true ∧ (t.fwOf (d.p 2)).switched = [] ∧
        (t.fwOf (d.p 2)).staged = some img)) ∧
    (∀ k img e, (s.fwOf k).staged = some img → (s.fwOf k).activating = true →
      (fwParts k)[(s.fwOf k).switched.length]? = some e → (k ≠ 0 → s.run e = none) →
      (k = 0 → (s.ring (engInst e)).holding = false) → Completes (.fwSwitch k) s (fun t =>
        ((s.fwOf k).switched.length + 1 = (fwParts k).length → t.fwOf k = { image := img }) ∧
        ((s.fwOf k).switched.length + 1 ≠ (fwParts k).length →
          t.fwOf k = { s.fwOf k with switched := (s.fwOf k).switched ++ [e] })))

/-- R354, R355, R358, R360, R372: named sets are armed for a tick, disarmed, copied back and validated; the cap, its range and
a clock source go into their shadows while those are not armed. -/
def Obligations.ConfigurationCommands : Prop :=
  ∀ (s u : State) (r : Nat) (d : Cmd) (hold : Bool), Runs s r d hold u →
    (∀ dead, d.op = 0x0901 → d.reserved 2 false = none → d.maskBad = none → u.now < d.p 1 →
      (∀ b, u.binding.active = some b → b.boundary (d.p 1) = true) → (∀ i ∈ maskSets (d.p 0), u.setArmed i = false) →
      u.setsReply (some (d.p 1)) dead (d.p 0) = none → Completes (.cfgArm r hold dead) s (fun t => Answered r d 0 0 t ∧
        SameMem s t ∧ ∀ i ∈ maskSets (d.p 0), t.setArmed i = true ∧ t.reg (rHubCfgTick i) = d.p 1)) ∧
    (∀ i, d.op = 0x0902 → d.reserved 1 false = none → d.maskBad = none → i ∈ maskSets (d.p 0) → u.setArmed i = true →
      u.tooLate i = false → Completes (.cfgDisarm r hold) s (fun t => Answered r d 0 0 t ∧ SameMem s t ∧
        t.setArmed i = false)) ∧
    (d.op = 0x0903 → d.reserved 1 false = none → d.maskBad = none → (∀ i ∈ maskSets (d.p 0), u.setArmed i = false) →
      Completes (.cfgCopy r hold) s (fun t => Answered r d 0 0 t ∧ SameMem s t ∧
        (∀ i ∈ maskSets (d.p 0), ∀ o ∈ setOffsets i, t.reg o = u.act o) ∧
        (1 ∈ maskSets (d.p 0) → t.rules.shadow = u.rules.active) ∧
        (2 ∈ maskSets (d.p 0) → t.tick.shMode = u.tick.mode ∧ t.tick.shPeriod = u.tick.period))) ∧
    (∀ dead, d.op = 0x0904 → d.reserved 1 false = none → d.maskBad = none → (∀ i ∈ maskSets (d.p 0), u.setArmed i = false) →
      (u.setsReply none dead (d.p 0) = none → Completes (.cfgValidate r hold dead) s (fun t => Answered r d 0 0 t ∧
        SameMem s t ∧ t.reg rHubCfgStatus = u.reg rHubCfgStatus)) ∧
      (∀ x, u.setsBad none dead (d.p 0) = some x → Completes (.cfgValidate r hold dead) s (fun t =>
        Answered r d 0x12 x.1 t ∧ SameMem s t ∧ t.reg rHubCfgStatus = u.reg rHubCfgStatus))) ∧
    (d.op = 0x0B01 → d.reserved 1 false = none → u.field rPwrRange 12 0 ≤ d.p 0 → d.p 0 ≤ u.field rPwrRange 28 16 →
      (u.setArmed 5 = false → Completes (.pwrCap r hold) s (fun t => Answered r d 0 0 t ∧ t.field rPwrCap 12 0 = d.p 0 ∧
        t.act rPwrCap = u.act rPwrCap ∧ SameMem s t)) ∧
      (u.setArmed 5 = true → Completes (.pwrCap r hold) s (fun t => Answered r d 0x12 0 t ∧
        t.reg rPwrCap = u.reg rPwrCap))) ∧
    (d.op = 0x0B02 → d.reserved 2 false = none → 1500 ≤ d.p 0 → d.p 0 ≤ d.p 1 → d.p 1 ≤ 3800 → u.setArmed 5 = false →
      Completes (.pwrRange r hold) s (fun t => t.reg (rCmdLAST r) = d.sequence ∧ t.field rPwrRange 12 0 = d.p 0 ∧
        t.field rPwrRange 28 16 = d.p 1 ∧ d.p 0 ≤ t.field rPwrCap 12 0 ∧ t.field rPwrCap 12 0 ≤ d.p 1 ∧
        (d.p 0 ≤ u.field rPwrCap 12 0 → u.field rPwrCap 12 0 ≤ d.p 1 → t.field rPwrCap 12 0 = u.field rPwrCap 12 0) ∧
        SameMem s t)) ∧
    (d.op = 0x0B03 → d.reserved 2 false = none → d.p 0 ≤ 8 → d.p 1 ∈ pllSources (d.p 0) → u.setArmed 6 = false →
      Completes (.clkSource r hold) s (fun t => Answered r d 0 0 t ∧
        t.field rClkSrc (2 * d.p 0 + 1) (2 * d.p 0) = d.p 1 ∧ SameMem s t))

/-- R357, R395, R406, R408, R409, R410, R414: the role configuration is taken; entries of the audit log are copied out; a maker
command whose envelope is well formed takes a new nonce, and acts if it is signed for this module, else it is refused with
nothing changed. -/
def Obligations.SecurityCommands : Prop :=
  ∀ (s u : State) (r : Nat) (d : Cmd) (hold : Bool), Runs s r d hold u →
    (d.op = 0x0A01 → d.reserved 0 true = none → d.len = 64 → 1 ≤ d.pay 0 1 → d.pay 0 1 ≤ 3 → d.pay 1 1 ≤ 1 → 16 ≤ d.pay 2 2 →
      d.dirty 4 60 = false → Completes (.roleCfg r hold) s (fun t => Answered r d 0 0 t ∧ SameMem s t ∧
        t.inst = { u.inst with strapEn := bitOf (d.pay 0 1) 0, buttonEn := bitOf (d.pay 0 1) 1, bootPref := d.pay 1 1,
                               interval := d.pay 2 2 })) ∧
    (∀ first l, d.op = 0x0A02 → d.reserved 3 false = none → 1 ≤ d.p 1 → d.p 1 ≤ 65536 → d.p 0 < u.reg rSecAuditNext →
      first = (if d.p 0 < u.reg rSecAuditOldest then u.reg rSecAuditOldest else d.p 0) →
      l = (u.sec.entries.drop (first - u.reg rSecAuditOldest)).take (d.p 1) → inMem (d.p 2) (128 * l.length) = true →
      l.flatten.length = 128 * l.length → Clear u (d.p 2) (128 * l.length) → Completes (.auditRead r hold) s (fun t =>
        Answered r d 0 l.length t ∧ Wrote (d.p 2) l.flatten u t)) ∧
    (∀ words, d.op = 0x0A10 → d.reserved 0 true = none → d.envelopeBad 1 (d.makerArg == 0) (d.makerLen % 8 == 0) = none →
      u.envelopeSigned d = true → burnAll d u.nvm.fuseWords
        ((indexed (fusePairs (u.makerBody d))).map (fun x => (x.1, x.2.1, x.2.2))) u.nvm.repair = (words, none) →
      Completes (.makerFuse r hold) s (fun t => Answered r d 0 0 t ∧ t.nvm = { u.nvm with repair := words } ∧ SameMem s t)) ∧
    (d.op = 0x0A11 → d.reserved 0 true = none → d.envelopeBad 2 (d.makerArg == 0) true = none →
      (u.envelopeSigned d = true → Completes (.makerCal r hold) s (fun t => Answered r d 0 0 t ∧
        t.nvm = { u.nvm with calib := u.makerBody d } ∧ SameMem s t)) ∧
      (u.envelopeSigned d = false → Completes (.makerCal r hold) s (fun t => Answered r d 0x22 0 t ∧ t.nvm = u.nvm ∧
        Counted rSecCtrSIGFAILS 1 u t ∧ (∃ n, t.reg rSecMakerNonce = (Config.freeValue 19 n).toNat) ∧ SameMem s t))) ∧
    (d.op = 0x0A12 → d.makerAction = 0x10 → d.reserved 0 true = none →
      d.envelopeBad 0x10 (decide (d.makerArg ≤ 1)) true = none → u.envelopeSigned d = true →
      u.imageValid (u.makerBody d) = true → d.makerArg ≠ u.field rHubReady 4 4 → Completes (.bootWrite r hold) s (fun t =>
        Answered r d 0 0 t ∧ SameMem s t ∧ t.nvm = (if d.makerArg = 0 then { u.nvm with imageA := u.makerBody d }
          else { u.nvm with imageB := u.makerBody d }))) ∧
    (d.op = 0x0A12 → d.makerAction = 0x11 → d.reserved 0 true = none → d.envelopeBad 0x11 true (d.makerLen == 0) = none →
      u.envelopeSigned d = true → u.nvm.svn < d.makerArg → d.makerArg ≤ fieldAt u.runningImage 8 4 →
      Completes (.svnAdvance r hold) s (fun t => Answered r d 0 0 t ∧ t.nvm = { u.nvm with svn := d.makerArg } ∧
        SameMem s t)) ∧
    (d.op = 0x0A12 → d.makerAction = 0x12 → d.reserved 0 true = none →
      d.envelopeBad 0x12 (decide (d.makerArg ≤ 3)) (d.makerLen == 0) = none → u.envelopeSigned d = true →
      u.nvm.rootSlot < d.makerArg → Completes (.rootRotate r hold) s (fun t => Answered r d 0 0 t ∧
        t.nvm = { u.nvm with rootSlot := d.makerArg } ∧ SameMem s t)) ∧
    (d.op = 0x0A12 → d.makerAction = 0x13 → d.reserved 0 true = none →
      d.envelopeBad 0x13 (d.makerArg == 0) (decide (d.makerLen ≤ 16384)) = none → u.envelopeSigned d = true →
      leafKey (u.makerBody d) = some u.identityPub → Completes (.certWrite r hold) s (fun t => Answered r d 0 0 t ∧
        t.nvm = { u.nvm with chain := u.makerBody d } ∧ SameMem s t))

/-! ## Packets in hand and their windows -/

namespace Sys2Proof.Machine

/-- An engine has a packet of a kind in hand, which goes on. -/
structure InHand (s : State) (e kind : Nat) (r : Run) : Prop where
  run : s.run e = some r
  goes : s.goes e kind = true

/-- The packet in hand has carried out one instruction more, and goes on or retires. -/
def Advanced (e : Nat) (r : Run) (t : State) : Prop :=
  ∃ q, t.run e = some q ∧ q.executed = r.executed + 1 ∧ q.status = r.status ∧ q.stopped = false

/-- No word of memory is in error, every stack runs, and no region is being staged: a plain write takes effect at once. -/
def Sound (s : State) : Prop := s.badWords = [] ∧ (∀ n, s.stackDead n = false) ∧ s.heldRegions = []

/-- A record that is emitted now begins no shedding episode, whose own record goes to the ring in memory at once (R424, R425). -/
def Still (s : State) : Prop := s.tel.level ≠ 0 ∨ s.ringFree = 0

/-- An alarm code is latched on a source. -/
def Alarmed (source code : Nat) (t : State) : Prop := (t.src source).codes.getLsbD code = true

end Sys2Proof.Machine

/-- R37, R164, R197: a packet whose last instruction has retired, or that stopped, leaves its engine once it holds nothing
busy; no other engine's packet changes, its KV locks are given up, and each grain it uses has one use less, the last one
releasing it. -/
def Sys2Proof.Machine.Says.PacketsComplete : Prop :=
  ∀ (s : State) (e cycles : Nat) (r : Run), s.run e = some r → r.retired = true ∨ r.stopped = true → r.replayOf = none →
    s.runBusy e r = false → (∀ h ∈ s.snap.held, h.engine ≠ some e) →
    Completes (.packetComplete e cycles) s (fun t => t.run e = none ∧ (∀ x, x ≠ e → t.run x = s.run x) ∧
      (∀ k, (t.kvUse k).lock ≠ some e) ∧
      (Still s → s.grainsOf r.pid = [] → s.drainGrainsOf r.pid = [] → SameMem s t) ∧
      ∀ g, s.grainsOf r.pid = [g] → s.drainGrainsOf r.pid = [] →
        (1 < (s.grain g).usesLeft → (t.grain g).usesLeft + 1 = (s.grain g).usesLeft) ∧
        ((s.grain g).usesLeft = 1 → (s.grain g).hold = false → (s.grain g).complete = true → s.replayHolds g = false →
          (t.grain g).state = 0))

/-- R38, R207: at its end-tick edge a CONTINUE packet in hand is LATE and goes on, an ABORT packet stops with a window
fault; one whose drain waits for a grain that cannot come back stops with GRAIN_UNAVAILABLE under either policy. Of one that
has not started, a grain that cannot come back makes it fault so; else ABORT never starts, and CONTINUE waits. -/
def Sys2Proof.Machine.Says.WindowsEnd : Prop :=
  ∀ (s : State) (e waited : Nat),
    (∀ r, s.run e = some r → r.judged = false → r.stopped = false → r.replayOf = none → r.stop ≤ s.now →
      (s.drainLost e = none → Completes (.windowEnd ⟨e, waited⟩) s (fun t => Alarmed e 5 t ∧ (r.abort = true → Faulted e 5 t) ∧
        ∃ q, t.run e = some q ∧ q.judged = true ∧
          (r.abort = true → q.recItem = r.executed) ∧
          (r.abort = false → q.late = true ∧ q.status = r.status ∧ q.stopped = false))) ∧
      (∀ p, s.drainLost e = some p → Completes (.windowEnd ⟨e, waited⟩) s (fun t => Alarmed e 7 t ∧ Faulted e 7 t ∧
        ∃ q, t.run e = some q ∧ q.recItem = p.item ∧ q.recInstr = p.instr ∧ q.recChunk = p.chunk))) ∧
    (∀ p binds st ix, s.run e = none → s.nextPacket e = some (p, binds, st, ix) → p.stop ≤ s.now →
      ((∃ g ∈ s.grainsOf p.packet.pid, (s.grain g).coming = false) →
        Completes (.windowEnd ⟨e, waited⟩) s (fun t => t.run e = none ∧ Alarmed e 7 t ∧ (t.engine e).idx = ix + 1)) ∧
      ((∀ g ∈ s.grainsOf p.packet.pid, (s.grain g).coming = true) →
        (p.packet.abort = true → Completes (.windowEnd ⟨e, waited⟩) s (fun t => t.run e = none ∧ Alarmed e 5 t ∧
          (t.engine e).binds = binds ∧ (t.engine e).step = st ∧ (t.engine e).idx = ix + 1)) ∧
        (p.packet.abort = false → Completes (.windowEnd ⟨e, waited⟩) s (fun t => t = s))))

/-! ## Matrix sequences -/

/-- R36, R89, R105, R106: a matrix sequence that starts takes its dimensions; one on a fenced core, or whose dimensions are
not legal, or that carries a shape word it does not use, stops; one with an empty dimension is DONE_EMPTY at once; else its
items are those that its dimensions give, and it claims them or begins with its first. -/
def Sys2Proof.Machine.Says.MatrixSequencesStart : Prop :=
  ∀ (s u : State) (die c st : Nat) (r : Run) (q : Seq), st < 2 → Starts s (streamEngine die c st) 1 u r →
    s.holdFree die c st 1 = true → q = u.seqOf r →
    (r.spareWords 4 = true → Completes (.matrixSequence die c st) s (Faulted (streamEngine die c st) 1)) ∧
    (r.spareWords 4 = false → u.coreFenced die c = true →
      Completes (.matrixSequence die c st) s (Faulted (streamEngine die c st) 0x0A)) ∧
    (r.spareWords 4 = false → u.coreFenced die c = false → q.k % 32 ≠ 0 ∨ 65536 < q.batch ∨ 2 ^ 32 ≤ q.items →
      Completes (.matrixSequence die c st) s (Faulted (streamEngine die c st) 1)) ∧
    (r.spareWords 4 = false → u.coreFenced die c = false → q.k % 32 = 0 → q.batch ≤ 65536 → q.items < 2 ^ 32 →
      (q.m = 0 ∨ q.n = 0 ∨ q.batch = 0 → Completes (.matrixSequence die c st) s (fun t => SameMem u t ∧
        ∃ p, t.run (streamEngine die c st) = some p ∧ p.retired = true ∧ p.status = 1)) ∧
      (q.m ≠ 0 → q.n ≠ 0 → q.batch ≠ 0 → Completes (.matrixSequence die c st) s (fun t => SameMem u t ∧
        ∃ p, t.run (streamEngine die c st) = some p ∧ p.stopped = false ∧ p.cur.items = q.items ∧
          p.cur.needClaim = q.claim ∧ (q.claim = false → p.cur.next = q.first ∧ (q.items ≤ q.first → p.retired = true)))))

namespace Sys2Proof.Machine

/-- A claim is due on the counter at `a`, for an epoch (R103, R104). -/
structure ClaimDue (s : State) (die c st : Nat) (r : Run) (a epoch : Nat) : Prop where
  stream : st < 2
  run : s.run (streamEngine die c st) = some r
  goes : s.goes (streamEngine die c st) r.kind = true
  due : r.cur.needClaim = true
  notEnded : r.cur.claimsEnded = false
  free : r.cur.claimed = none
  counter : ∃ tc use, s.claimOf r = some (tc, use) ∧ a = claimBase die + 16 * tc ∧ epoch = r.step % 2 ^ 24 * 256 + use
  sound : s.badRange a 16 = false
  items : r.cur.items < 2 ^ 32

end Sys2Proof.Machine

/-- R103, R104: a claim in the counter's epoch, or in a newer one, which restarts the counter at 0 with this packet's limit,
returns the next index and counts it; at the limit it returns none. A claim of an older epoch changes nothing and ends the
packet's claims as superseded. A limit that differs is counted, and marks the packet. -/
def Sys2Proof.Machine.Says.TileClaims : Prop :=
  ∀ (s : State) (die c st a epoch next limit : Nat) (r : Run), ClaimDue s die c st r a epoch →
    next = (if s.ld 4 a = epoch then s.ld 4 (a + 4) else 0) →
    limit = (if s.ld 4 a = epoch then s.ld 4 (a + 8) else r.cur.items) →
    (s.ld 4 a = epoch ∨ newerEpoch epoch (s.ld 4 a) = true →
      (next < limit → Completes (.tileClaim die c st) s (fun t => t.ld 4 a = epoch ∧ t.ld 4 (a + 4) = next + 1 ∧
        t.ld 4 (a + 8) = limit ∧ OnlyBytes a 16 s t ∧ Counted (rCoreCtrCLAIMSTAKEN die c) 1 s t ∧
        (r.cur.items ≠ limit → t.ld 4 (a + 12) = (s.ld 4 (a + 12) + 1) % 2 ^ 32) ∧
        ∃ q, t.run (streamEngine die c st) = some q ∧ q.cur.claimed = some next ∧ q.cur.needClaim = false ∧
          (r.cur.items ≠ limit → q.mismatch = true))) ∧
      (limit ≤ next → Completes (.tileClaim die c st) s (fun t => t.ld 4 a = epoch ∧ t.ld 4 (a + 4) = next ∧
        OnlyBytes a 16 s t ∧ t.regs = s.regs ∧ ∃ q, t.run (streamEngine die c st) = some q ∧ q.cur.claimed = none ∧
          q.cur.claimsEnded = true ∧ q.superseded = r.superseded))) ∧
    (s.ld 4 a ≠ epoch → newerEpoch epoch (s.ld 4 a) = false → Completes (.tileClaim die c st) s (fun t => SameMem s t ∧
      t.regs = s.regs ∧ ∃ q, t.run (streamEngine die c st) = some q ∧ q.superseded = true ∧ q.cur.claimsEnded = true))

namespace Sys2Proof.Machine

/-- Run `p` has item `i` in hand, at its first instruction, with the 32 bytes of its pointer-list entry. -/
def Run.withItem (r : Run) (i b : Nat) (bs : List Byte) : Run :=
  { r with cur := { r.cur with item := some i, claimed := none, chunk := 0, pc := 0, lpos := 0, entryOf := some b, entry := bs } }

end Sys2Proof.Machine

/-- R91 to R94, R98, R104, R108: a packet's next item begins with its pointer-list entry, which is read once: its LOADs and its
other instructions each stand at the first of their sort. One with no valid tile is passed over; one that fails a check stops
the packet, whose record names the item. -/
def Sys2Proof.Machine.Says.ItemsBegin : Prop :=
  ∀ (s : State) (die c st i b : Nat) (r p : Run) (q : Seq) (it : Item) (bs : List Byte) (l : List Ins), st < 2 →
    InHand s (streamEngine die c st) 1 r → q = s.seqOf r → r.nextItem q.claim = some i → b = (q.itemAt i).1 →
    (r.cur.entryOf = some b ∧ bs = r.cur.entry) ∨ (r.cur.entryOf ≠ some b ∧ s.load (q.ptr + 32 * b) 32 = .ok bs) →
    p = r.withItem i b bs → it = p.itemOf q → l = s.insList r.body it →
    (s.itemCheck (streamEngine die c st) p it = 0 → it.hasTile = true → q.chunks ≠ 0 → l ≠ [] →
      Completes (.itemBegin die c st) s (fun t =>
        SameMem s t ∧ ∃ x, t.run (streamEngine die c st) = some x ∧ x.cur.item = some i ∧ x.cur.entry = bs ∧
          x.cur.lpos = nextPos l q.chunks 0 Ins.isLoad ∧ x.executed = r.executed ∧ x.stopped = false ∧
          (nextPos l q.chunks 0 (fun y => !y.isLoad) < q.chunks * l.length →
            x.posIn l = nextPos l q.chunks 0 (fun y => !y.isLoad)))) ∧
    (s.itemCheck (streamEngine die c st) p it = 0 → it.hasTile = false → q.claim = false → q.step ≠ 0 →
      Completes (.itemBegin die c st) s (fun t => SameMem s t ∧ ∃ x, t.run (streamEngine die c st) = some x ∧
        x.cur.item = none ∧ x.cur.next = i + q.step ∧ x.retired = decide (q.items ≤ i + q.step))) ∧
    (s.itemCheck (streamEngine die c st) p it ≠ 0 → Completes (.itemBegin die c st) s (fun t =>
      Faulted (streamEngine die c st) (s.itemCheck (streamEngine die c st) p it) t ∧
        ∃ x, t.run (streamEngine die c st) = some x ∧ x.recItem = i))

namespace Sys2Proof.Machine

/-- The next instruction of the matrix sequence a stream has in hand that is no LOAD, or its next LOAD (R98). -/
structure AtIns (s : State) (die c st : Nat) (r : Run) (load : Bool) (d : Due) : Prop where
  stream : st < 2
  hand : InHand s (streamEngine die c st) 1 r
  next : (if load then s.nextLoad r else s.nextIns r) = some d

/-- Rows or columns that a LOAD brings in, and the first of them. -/
def Due.loadRows (d : Due) : Nat := if d.x.op = 2 then d.it.cols d.x.gj else d.it.rows d.x.gi
def Due.loadFirst (d : Due) : Nat := 128 * (if d.x.op = 2 then d.it.nt d.x.gj else d.it.mt d.x.gi)
def Due.kj (d : Due) : Nat := d.it.q.chunkLen d.chunk

/-- The runs that a LOAD reads (R95, R99, R129). -/
def Due.loadRuns (d : Due) : List (Nat × Nat) :=
  (d.it.operand (d.x.op == 2) (bitOf d.x.flags 1)).runs d.it.q.k d.loadFirst d.loadRows (d.chunk * d.it.q.kChunk) d.kj

/-- What a LOAD does (R97, R98): with nothing to load, nothing; through the transposing buffer it joins those that wait for
it; directly, it is in hand with the rows it has read, which are not written yet. -/
def Loading (s : State) (k st : Nat) (d : Due) (t : State) : Prop :=
  if d.loadRows = 0 ∨ d.kj = 0 then t.cores = s.cores
  else if bitOf d.x.flags 1 then
    ∃ l, (t.core k).tbuf = (s.core k).tbuf ++ [l] ∧ l.stream = st ∧ l.dst = (d.it.loadRegion d.x d.chunk).1 ∧
      l.reads = d.loadRuns ∧ (t.core k).loads = (s.core k).loads ∧ (t.core k).ob = (s.core k).ob
  else
    ∃ l, (t.core k).loads = (s.core k).loads ++ [l] ∧ l.stream = st ∧ l.dst = (d.it.loadRegion d.x d.chunk).1 ∧
      l.chunks = loadChunks (if d.x.op = 2 then d.it.fb else d.it.fa) d.it.q.kChunk d.kj d.loadRows
        (s.readRuns d.loadRuns []).1 ∧
      (t.core k).ob = (s.core k).ob

/-- A LOAD does not wait: it loads nothing, or no earlier MMA has its region still to feed (R98), and no earlier LOAD of its
stream stands before it (R462). -/
def State.loadFree (s : State) (k st : Nat) (r : Run) (d : Due) : Prop :=
  d.loadRows = 0 ∨ d.kj = 0 ∨
    (d.loadWaits r = false ∧
      (∀ l ∈ (s.core k).loads, l.stream = st → bitOf d.x.flags 1 = true ∧ l.transposed = true) ∧
      (bitOf d.x.flags 1 = false → ∀ l ∈ (s.core k).tbuf, l.stream ≠ st))

end Sys2Proof.Machine

/-- R97, R98, R129, R462: a LOAD is issued and the sequence goes on; the rows of a direct one are read as it is issued. One
whose rows cannot be read stops the packet. REPEAT_N only goes on. -/
def Sys2Proof.Machine.Says.LoadsIssue : Prop :=
  ∀ (s : State) (die c st k : Nat) (r : Run) (d : Due), k = coreKey die c →
    (∀ i, AtIns s die c st r true d → (d.x.op = 1 ∧ i = .loadA die c st) ∨ (d.x.op = 2 ∧ i = .loadB die c st) →
      s.loadFree k st r d →
      ((d.loadRows = 0 ∨ d.kj = 0 ∨ bitOf d.x.flags 1 = true ∨ (s.readRuns d.loadRuns []).2 = 0) →
        Completes i s (fun t => Advanced (streamEngine die c st) r t ∧ SameMem s t ∧ Loading s k st d t)) ∧
      (d.loadRows ≠ 0 → d.kj ≠ 0 → bitOf d.x.flags 1 = false → (s.readRuns d.loadRuns []).2 ≠ 0 → Completes i s (fun t =>
        Faulted (streamEngine die c st) (s.readRuns d.loadRuns []).2 t ∧ t.cores = s.cores ∧ (Still s → SameMem s t)))) ∧
    (AtIns s die c st r false d → d.x.op = 4 → Completes (.repeatN die c st) s (fun t =>
      Advanced (streamEngine die c st) r t ∧ SameMem s t ∧ t.cores = s.cores))

namespace Sys2Proof.Machine

/-- A byte of a core's operand buffer. -/
def Core.obByte (g : Core) (a : Nat) : Byte := Tbl.get (fun _ => 0#8) g.ob a

/-- The bytes of a load's chunk lie apart from another's. -/
def ChunksApart (p q : Nat × List Byte) : Prop := p.1 + p.2.length ≤ q.1 ∨ q.1 + q.2.length ≤ p.1

end Sys2Proof.Machine

/-- R98, R130 to R134, R143: the transposing buffer begins the oldest LOAD that waits for it and whose packet goes on, stream B
before stream F; one whose rows cannot be read stops its packet. A LOAD that is written puts its bytes into the operand
buffer, and no other byte there. -/
def Sys2Proof.Machine.Says.LoadsLand : Prop :=
  ∀ (s : State) (die c : Nat) (l : LoadJob) (live : List LoadJob), die < 2 → c < 64 →
    (live = (s.core (coreKey die c)).tbuf.filter (fun l => s.goes (streamEngine die c l.stream) 1) →
      (live.filter (fun l => l.stream == 1) ++ live.filter (fun l => l.stream == 0)).head? = some l →
      ((s.readRuns l.reads []).2 = 0 →
        Completes (.tbufLoadStart die c) s (fun t => SameMem s t ∧ (t.core (coreKey die c)).tbuf =
          (s.core (coreKey die c)).tbuf.erase l ∧ (t.core (coreKey die c)).ob = (s.core (coreKey die c)).ob ∧
          ∃ m, (t.core (coreKey die c)).loads = (s.core (coreKey die c)).loads ++ [m] ∧ m.stream = l.stream ∧ m.dst = l.dst ∧
            m.transposed = l.transposed ∧
            m.chunks = (tbufChunks ((Fmt.ofCode l.fmt).getD .bf16) l.kChunk l.kj l.valid (s.readRuns l.reads []).1).1)) ∧
      ((s.readRuns l.reads []).2 ≠ 0 →
        Completes (.tbufLoadStart die c) s (Faulted (streamEngine die c l.stream) (s.readRuns l.reads []).2))) ∧
    (∀ (tb : Bool) (st cycles : Nat), l.stream = st →
      (s.core (coreKey die c)).loads.find? (fun l => l.transposed == tb && (tb || l.stream == st)) = some l →
      Completes (.loadWritten die c st tb cycles) s (fun t =>
        (t.core (coreKey die c)).loads = (s.core (coreKey die c)).loads.erase l ∧
        (∀ a, (∀ p ∈ l.chunks, a < l.dst + p.1 ∨ l.dst + p.1 + p.2.length ≤ a) →
          (t.core (coreKey die c)).obByte a = (s.core (coreKey die c)).obByte a) ∧
        (l.chunks.Pairwise ChunksApart → ∀ p ∈ l.chunks, ∀ j, (h : j < p.2.length) →
          (t.core (coreKey die c)).obByte (l.dst + p.1 + j) = p.2[j]) ∧
        (tb = true → Counted (rCoreCtrTBUFLOADS die c) 1 s t) ∧ (tb = false → t.regs = s.regs) ∧ SameMem s t))

/-- R75, R101, R139: a new tile takes the register set fed longest ago, whose tile is parked, with its initial value; a parked
tile that is named again comes back into a set with the values it had. No other tile keeps that set, and a set that a
draining tile keeps is waited for. The tile of an attention or convolution packet takes a set in the same way. -/
def Sys2Proof.Machine.Says.TilesExchanged : Prop :=
  ∀ (s : State) (die c st stall set : Nat) (r : Run) (g : Core), g = s.core (coreKey die c) → st < 2 → c < 64 →
    (∀ y ∈ g.drainQ, y.set ≠ some set) →
    (∀ d : Due, AtIns s die c st r false d → d.x.op = 3 → d.it.names d.x = true →
      set = g.oldestSet (setsOf st d.it.q.share) →
      (g.openTile st d.x.gi d.x.gj = none → g.openCount st < d.it.q.capacity →
        (s.initTile d.it d.x.gi d.x.gj).2 = 0 → Completes (.tileExchange die c st stall) s (fun t =>
          Counted (rCoreCtrSETSTALLS die c) stall s t ∧ SameMem s t ∧
          (∃ y, (t.core (coreKey die c)).openTile st d.x.gi d.x.gj = some y ∧ y.set = some set ∧
            y.vals = (s.initTile d.it d.x.gi d.x.gj).1) ∧
          ∀ y ∈ (t.core (coreKey die c)).tiles, y.set = some set → y.stream = st ∧ y.gi = d.x.gi ∧ y.gj = d.x.gj)) ∧
      (∀ y, g.openTile st d.x.gi d.x.gj = some y → y.set = none →
        Completes (.tileExchange die c st stall) s (fun t => Counted (rCoreCtrSETSTALLS die c) stall s t ∧ SameMem s t ∧
          (t.core (coreKey die c)).openTile st d.x.gi d.x.gj = some { y with set := some set } ∧
          (t.core (coreKey die c)).tiles.length = g.tiles.length))) ∧
    (∀ kind, kind = 2 ∨ kind = 3 → InHand s (streamEngine die c st) kind r → r.toFeed = true →
      set = g.oldestSet (setsOf st (s.shareOf r)) → (∀ y ∈ g.tiles, y.stream = st → y.set = none) →
      Completes (.tileExchange die c st stall) s (fun t => Counted (rCoreCtrSETSTALLS die c) stall s t ∧ SameMem s t ∧
        (∃ y ∈ (t.core (coreKey die c)).tiles, y.stream = st ∧ y.set = some set) ∧
        (t.core (coreKey die c)).tiles.length = g.tiles.length + 1))

/-- R97, R98, R101, R140: an MMA feeds its chunk's operand rows into its tile, which goes to the drain after the last chunk;
its slices are counted. One that names no valid tile only goes on; one that would open more tiles than the packet holds
stops it. -/
def Sys2Proof.Machine.Says.TilesFed : Prop :=
  ∀ (s : State) (die c st waited set : Nat) (r : Run) (d : Due) (y : Tile) (g : Core) (vals : List (List W32)), g = s.core (coreKey die c) →
    AtIns s die c st r false d → d.x.op = 3 →
    (d.it.names d.x = true → g.openTile st d.x.gi d.x.gj = some y → y.set = some set →
      d.kj = 0 ∨ (g.feeds st = true ∧ d.operandsIn r g st = true) →
      vals = (g.fed d.it d.x d.chunk y).vals →
      Completes (.mma die c st waited) s (fun t => Advanced (streamEngine die c st) r t ∧ SameMem s t ∧
        Counted (rCoreCtrSLICES die c) (d.kj / d.it.width) s t ∧
        (d.chunk + 1 ≠ d.it.q.chunks → (t.core (coreKey die c)).drainQ = g.drainQ ∧
          ∃ x, (t.core (coreKey die c)).openTile st d.x.gi d.x.gj = some x ∧ x.vals = vals ∧ x.set = some set) ∧
        (d.chunk + 1 = d.it.q.chunks → (t.core (coreKey die c)).openTile st d.x.gi d.x.gj = none ∧
          ∃ x, (t.core (coreKey die c)).drainQ = g.drainQ ++ [x] ∧ x.vals = vals ∧ x.set = some set ∧
            x.ctx.chain = y.ctx.chain ∧ x.ctx.cBase = y.ctx.cBase))) ∧
    (d.it.names d.x = false → Completes (.mma die c st waited) s (fun t => Advanced (streamEngine die c st) r t ∧
      SameMem s t ∧ t.cores = s.cores ∧ t.regs = s.regs)) ∧
    (d.it.names d.x = true → g.openTile st d.x.gi d.x.gj = none → d.it.q.capacity ≤ g.openCount st →
      Completes (.mma die c st waited) s (Faulted (streamEngine die c st) 3))

namespace Sys2Proof.Machine

/-- A tile stands at the head of a core's drain queue, and its engine runs. -/
structure DrainAt (s : State) (die c : Nat) (y : Tile) (rest : List Tile) : Prop where
  dieLt : die < 2
  coreLt : c < 64
  head : (s.core (coreKey die c)).drainQ = y :: rest
  runs : s.engineBlocked y.ctx.engine = false

/-- A chain that is one WRITE to memory of a plain format without stochastic rounding (R120), over a tile of whole rows
that lie apart in stack or shared memory. -/
structure PlainWrite (c : DrainCtx) (w : W64) (k : Cvt) (v : List (List W32)) : Prop where
  chain : c.chain = [w]
  op : stepOp w = 0x0C
  plain : bitOf (stepCtl w) 0 = false ∧ bitOf (stepCtl w) 1 = false
  cvt : Cvt.ofByte (stepCvt w) = some k
  fmt : k.sr = false ∧ k.fmt.scaled = false ∧ k.fmt.elemBits % 8 = 0
  cols : 0 < c.cols ∧ c.cols ≤ c.ldc
  rows : v.length = c.rows ∧ ∀ x ∈ v, x.length = c.cols
  inMem : ∀ i, i < c.rows → inMem (c.rowAt (addOff c.cBase (stepWriteOff w)) k.fmt.elemBits i) (k.fmt.elemBytes c.cols) = true

end Sys2Proof.Machine

/-- R75, R110, R119, R120, R123, R124, R207: a fed tile drains. A tile without a chain writes nothing; one with a single WRITE
leaves each row, in the step's format, at its place in C, and no other byte changed. It stalls, its register set free, while its data is late and
while a grain its chain reads is still to be restored, which it demands; when the data has arrived it goes on. -/
def Obligations.TilesDrain : Prop :=
  ∀ (s : State) (die c : Nat) (y : Tile) (rest : List Tile), DrainAt s die c y rest →
    ((s.core (coreKey die c)).stalled = false → Completes (.tileDrain die c true) s (fun t =>
      (t.core (coreKey die c)).stalled = true ∧ (t.core (coreKey die c)).drainQ = { y with set := none } :: rest ∧ SameMem s t)) ∧
    ((s.core (coreKey die c)).stalled = false → y.ctx.chain = [] → Completes (.tileDrain die c false) s (fun t =>
      (t.core (coreKey die c)).drainQ = rest ∧ SameMem s t ∧
      Counted (rCoreCtrDRAINROWS (engDie y.ctx.engine) (engInst y.ctx.engine)) 128 s t)) ∧
    (∀ w k, (s.core (coreKey die c)).stalled = false → PlainWrite y.ctx w k y.vals → Sound s →
      Completes (.tileDrain die c false) s (fun t => (t.core (coreKey die c)).drainQ = rest ∧
        (∀ i, (h : i < y.vals.length) →
          t.peek (y.ctx.rowAt (addOff y.ctx.cBase (stepWriteOff w)) k.fmt.elemBits i) (k.fmt.elemBytes y.ctx.cols) =
            packElems k.fmt.elemBits ((y.vals[i]).map (fun x =>
              convPlain k.fmt k.ovfNan .rne (ofF32 (entryValue y.ctx x))))) ∧
        ∀ a, (∀ i, i < y.ctx.rows → a < y.ctx.rowAt (addOff y.ctx.cBase (stepWriteOff w)) k.fmt.elemBits i ∨
          y.ctx.rowAt (addOff y.ctx.cBase (stepWriteOff w)) k.fmt.elemBits i + k.fmt.elemBytes y.ctx.cols ≤ a) →
          t.byte a = s.byte a)) ∧
    (∀ g, (s.core (coreKey die c)).stalled = false → chainGrains y.ctx.chain = [g] → (s.grain g).stored' = true →
      (s.grain g).pending = false → g ∉ (s.core (coreKey die c)).lost → Completes (.tileDrain die c false) s (fun t =>
        (t.core (coreKey die c)).stalled = true ∧ (t.core (coreKey die c)).drainQ = { y with set := none } :: rest ∧
        g ∈ (t.yoyo (grainDie g)).demandQ ∧ SameMem s t)) ∧
    (∀ cycles, (s.core (coreKey die c)).stalled = true → y.ctx.chain = [] →
      Completes (.drainStallResume die c cycles) s (fun t => (t.core (coreKey die c)).drainQ = rest ∧
        (t.core (coreKey die c)).stalled = false ∧ Counted (rCoreCtrDRAINWAITCYCLES die c) cycles s t ∧ SameMem s t))

namespace Sys2Proof.Machine

/-- The stream whose tile the feeder presents next (R80, R140): the one it has begun while that has a ready tile, else a ready
tile of stream B before one of stream F. -/
def State.feedPick (s : State) (die c : Nat) : Option Nat :=
  match (s.core (coreKey die c)).chosen with
  | some st => if s.mmaReady die c st then some st else none
  | none => if s.mmaReady die c 1 then some 1 else if s.mmaReady die c 0 then some 0 else none

/-- The ramp of core `c` of a die. -/
def State.rampOf (s : State) (die c : Nat) : Ramp := (s.core (coreKey die c)).ramp

end Sys2Proof.Machine

/-- R79 to R82, R140, R383: at its arbitration point the feeder goes on, or takes a ready tile of stream B before one of
stream F; from idle it asks for a ramp token, from ramp-out it resumes, and with no ready tile it ramps out or holds. The duty
rises and falls by one eighth a ramp step, no further than the die's budget tokens, and stays at an eighth, where the counter
still runs; a hold ends in idle. -/
def Sys2Proof.Machine.Says.FeederRamps : Prop :=
  ∀ (s : State) (die c at_ : Nat) (g : Ramp), die < 2 → c < 64 → g = s.rampOf die c →
    ((s.core (coreKey die c)).fenced = false →
      (∀ st, s.feedPick die c = some st → Completes (.arbitrationPoint die c at_) s (fun t => SameMem s t ∧ t.regs = s.regs ∧
        (t.core (coreKey die c)).chosen = some st ∧ (g.phase = 3 → (t.rampOf die c).phase = 1) ∧
        (g.phase = 0 → g.request = none → (t.rampOf die c).request = some at_ ∧
          listGet [] t.tokenQ die = listGet [] s.tokenQ die ++ [(at_, c)]))) ∧
      (s.feedPick die c = none → Completes (.arbitrationPoint die c at_) s (fun t => SameMem s t ∧
        OnlyRegs [rCoreCtrBUBBLES die c] s t ∧ t.tokenQ = s.tokenQ ∧
        (t.core (coreKey die c)).chosen = (s.core (coreKey die c)).chosen ∧
        (g.phase = 1 ∨ g.phase = 2 → (t.rampOf die c).phase = 3) ∧ (g.phase = 2 → (t.rampOf die c).duty = 8) ∧
        (g.phase = 1 → (t.rampOf die c).duty = g.duty ∧ Counted (rCoreCtrBUBBLES die c) (s.runRamp die g at_).2 s t)))) ∧
    Completes (.rampStepEnd die c) s (fun t => SameMem s t ∧ OnlyRegs [rCoreCtrBUBBLES die c] s t ∧
      (g.phase = 1 → g.duty < 8 → (t.rampOf die c).duty =
        (if g.duty < (if die = 0 then s.budget.held0 else s.budget.held1) then g.duty + 1 else g.duty)) ∧
      (g.phase = 1 → g.duty = 8 → (t.rampOf die c).phase = 2) ∧
      (g.phase = 3 → 1 < g.duty → (t.rampOf die c).duty = g.duty - 1) ∧
      (g.phase = 3 → g.duty = 1 → (t.rampOf die c).duty = 1 ∧ (t.rampOf die c).phase = 3 ∧
        (g.upTo = g.stepAt → 1 ≤ (if die = 0 then s.budget.held0 else s.budget.held1) →
          (t.rampOf die c).ph = (g.ph + g.len / 8) % 8))) ∧
    (g.phase = 3 → g.duty = 1 → Completes (.feederHoldEnd die c) s (fun t =>
      (t.rampOf die c).phase = 0 ∧ SameMem s t ∧ t.regs = s.regs))

/-- R79, R82, R87: while the die has a ramp token free, the request that goes before all others is granted, and its core ramps
in from an eighth; if it had waited, the cycles are counted and the order goes on behind it. The token returns when the ramp's
length has passed. What counts as contended, and the order before the first such grant, are the model's choice (log 72). -/
def Sys2Proof.Machine.Says.RampTokensMove : Prop :=
  ∀ (s : State) (die at_ : Nat), die < 2 →
    (listGet [] s.tokenQ die ≠ [] → s.rampHeld die < 8 → Completes (.rampTokenGrant die at_) s (fun t => SameMem s t ∧
      ∃ w ∈ listGet [] s.tokenQ die, (∀ y ∈ listGet [] s.tokenQ die, tokenBefore (listGet 63 s.tokenLast die) w y = true) ∧
        listGet [] t.tokenQ die = (listGet [] s.tokenQ die).erase w ∧ Counted (rCoreCtrRAMPINS die w.2) 1 s t ∧
        ((s.rampOf die w.2).waiting = true → Counted (rCoreCtrTOKENWAITCYCLES die w.2) (at_ - w.1 - 1) s t ∧
          listGet 63 t.tokenLast die = w.2) ∧
        t.rampOf die w.2 = { s.rampOf die w.2 with
          phase := 1, duty := 1, ph := 0, token := true, grantAt := at_, stepAt := at_, upTo := at_, request := none,
          waiting := false })) ∧
    (8 ≤ s.rampHeld die → Completes (.rampTokenGrant die at_) s (fun t => t = s)) ∧
    (∀ c, c < 64 → (s.rampOf die c).token = true → (s.rampOf die c).grantAt + (s.rampOf die c).len ≤ at_ + 1 →
      Completes (.rampTokenReturn die c at_) s (fun t => t.rampOf die c = { s.rampOf die c with token := false } ∧
        SameMem s t ∧ t.regs = s.regs))

/-! ## Attention and convolution items -/

namespace Sys2Proof.Machine

/-- What a kind-2 packet's start leaves, by the outcome of its checks over the list and lengths in the run `p`: its items, or
nothing to do, or a fault. -/
def AttStarted (u : State) (e : Nat) (p : Run) (a : Att) (lens : List Nat) (code : Nat) (t : State) : Prop :=
  if code = 0 then SameMem u t ∧ ∃ q, t.run e = some q ∧ q.stopped = false ∧ q.cur.items = attTotal (p.attShapes a lens) ∧
    q.cur.needClaim = a.claim ∧ q.aux = lens
  else if code = 0xFF then SameMem u t ∧ ∃ q, t.run e = some q ∧ q.retired = true ∧ q.status = 1
  else Faulted e code t

/-- An item in hand has been fed, from the run `q` that its work left: its tiles are on their way through the drain. -/
def ItemFed (e : Nat) (v : State) (q : Run) (t : State) : Prop :=
  t.mem = v.mem ∧ ∃ p, t.run e = some p ∧ p.executed = q.executed + 1 ∧ p.cur.pc = 1 ∧ p.cur.item = q.cur.item

/-- An attention packet of a direction has an item in hand, or takes it. -/
structure AttAt (s : State) (die c st : Nat) (back : Bool) (r : Run) (a : Att) (i b h j : Nat) : Prop where
  stream : st < 2
  hand : InHand s (streamEngine die c st) 2 r
  header : a = s.attOf r
  dir : a.back = back
  item : attItem (r.attShapes a r.aux) i = some (b, h, j)

/-- The command that carries an attention packet of a direction on. -/
def attCmd (back : Bool) (die c st : Nat) : Instr := if back then .attentionBackward die c st else .attentionForward die c st

/-- The bytes of an entry's status record (R166). -/
def AttEntry.record (x : AttEntry) : List Byte :=
  let byte := x.bits + 16 * b2n (x.empty != 0)
  leBytes 1 (if byte = 0 then 0 else 2) ++ leBytes 1 byte ++ leBytes 2 0 ++ leBytes 4 x.empty ++ leBytes 4 x.visited ++
    leBytes 4 x.skipped

end Sys2Proof.Machine

/-- R147: an attention packet that starts, forward or backward, reads its list once, is checked against its shapes, its core
and its regions, and takes its items; a list that cannot be read stops it. -/
def Sys2Proof.Machine.Says.AttentionStarts : Prop :=
  ∀ (s u : State) (die c st : Nat) (r : Run) (a : Att) (back : Bool), st < 2 → Starts s (streamEngine die c st) 2 u r →
    s.holdFree die c st 2 = true → a = u.attOf r →
    s.nextIs (streamEngine die c st) 2 (fun b => s.attBack b == back) = true →
    (∀ p bs lens, (a.count = 0 ∧ bs = []) ∨ (a.count ≠ 0 ∧ u.load a.list (64 * a.count) = .ok bs) →
      p = { r with cur := { r.cur with entry := bs } } → lens = (List.range a.count).map (u.attLen p a) →
      (a.kv = true → ∀ i, i < a.count → u.badRange (u.kvAt (p.seqEntry a i).region) 64 = false) →
      (∀ x ∈ p.attShapes a lens, x.2.1 * x.2.2 ≠ 0) →
      Completes (attCmd back die c st) s
        (AttStarted u (streamEngine die c st) p a lens (u.attStart p a lens (u.coreFenced die c)))) ∧
    (∀ code, a.count ≠ 0 → u.load a.list (64 * a.count) = .fault code → code ≠ 0 →
      Completes (attCmd back die c st) s (Faulted (streamEngine die c st) code))

/-- R108, R147, R148, R156, R164 to R166: the packet's next item begins, after its checks, unless its region is being evicted, and
its unit then reads the region; the item in hand is fed, with a register set and the feeder on its stream; when its tiles
have drained it completes, and with the last item of its entry the status record is written. A row that met no allowed key
keeps its state, and ends as zeros, with a log-sum of −∞, counted as empty. -/
def Sys2Proof.Machine.Says.AttentionItems : Prop :=
  (∀ (s : State) (die c st i b h j : Nat) (back : Bool) (r : Run) (a : Att) (e : SeqEntry),
    AttAt s die c st back r a i b h j → e = r.seqEntry a b →
    (r.cur.item = none → r.nextItem a.claim = some i → (a.kv = true → (s.kvUse e.region).evicting = false) →
      ∀ code, code = (if back then s.attBackOk r a b h j else s.attOk (streamEngine die c st) r a b h j) →
        (code = 0 → Completes (attCmd back die c st) s (fun t => SameMem s t ∧
          (a.kv = true → streamEngine die c st ∈ (t.kvUse e.region).readers) ∧
          ∃ p, t.run (streamEngine die c st) = some p ∧ p.cur.item = some i ∧ p.cur.pc = 0 ∧ p.executed = r.executed)) ∧
        (code ≠ 0 → Completes (attCmd back die c st) s (fun t => Faulted (streamEngine die c st) code t ∧
          ∃ p, t.run (streamEngine die c st) = some p ∧ p.recItem = i))) ∧
    (∀ v q y, r.cur.item = some i → r.cur.pc = 0 → v.run (streamEngine die c st) = some q →
      (s.core (coreKey die c)).tiles.find? (fun t => t.stream == st && t.set.isSome) = some y →
      (s.core (coreKey die c)).feeds st = true →
      (back = false → (s.attScan r a b h j).fault = 0 →
        s.attForward (streamEngine die c st) r a b h j (s.attScan r a b h j) y = (v, 0) →
        Completes (attCmd back die c st) s (ItemFed (streamEngine die c st) v q)) ∧
      (∀ n, back = true → s.attBackward (streamEngine die c st) r a b h j y = (v, 0, n) →
        Completes (attCmd back die c st) s (ItemFed (streamEngine die c st) v q)) ∧
      (back = false → (s.attScan r a b h j).fault ≠ 0 →
        Completes (attCmd back die c st) s (Faulted (streamEngine die c st) (s.attScan r a b h j).fault))) ∧
    (r.cur.item = some i → r.cur.pc ≠ 0 → (∀ y ∈ (s.core (coreKey die c)).drainQ, y.stream ≠ st) →
      ∀ x, x = s.attEntry r (r.attKey a (streamEngine die c st) b) →
        (x.done + 1 < attOwn (r.attShapes a r.aux) b → Completes (attCmd back die c st) s (fun t => SameMem s t ∧
          (t.attEntry r (r.attKey a (streamEngine die c st) b)).done = x.done + 1 ∧
          ∃ p, t.run (streamEngine die c st) = some p ∧ p.cur.item = none ∧ p.executed = r.executed)) ∧
        (attOwn (r.attShapes a r.aux) b ≤ x.done + 1 → Sound s → inMem (a.status + 16 * b) 16 = true →
          Completes (attCmd back die c st) s (fun t => t.peek (a.status + 16 * b) 16 = x.record ∧
            OnlyBytes (a.status + 16 * b) 16 s t ∧
            ∃ p, t.run (streamEngine die c st) = some p ∧ p.cur.item = none ∧ p.executed = r.executed)))) ∧
  (∀ (pf : Fmt) (unit : Nat) (tau : Int) (v : List ORow) (o : List W32) (n : Nat),
    softStep pf unit tau v { o := o } (List.replicate n none) =
      ({ o := o }, List.replicate n 0#32, List.replicate n 0) ∧
    softEnd pf { o := o } = (o.map (fun _ => 0#32), f32NegInf, true))

namespace Sys2Proof.Machine

/-- A convolution command, and the direction its packets have. -/
def ConvCmd (die c st : Nat) (cmd : Instr) (op : Nat) : Prop :=
  (cmd = .convForward die c st ∧ op = 0) ∨ (cmd = .convInputGradient die c st ∧ op = 1) ∨
    (cmd = .convWeightGradient die c st ∧ op = 2)

/-- Run `r` has item `i` in hand, of which no tile has been fed; its claim is due at once when it has one tile only. -/
def Run.atItem (r : Run) (k : Conv) (i : Nat) : Run :=
  { r with cur := { r.cur with
      item := some i, claimed := none, pc := 0,
      needClaim := k.claim && !r.cur.claimsEnded && (k.tiles i).2.length == 1 } }

end Sys2Proof.Machine

/-- R105, R172, R174, R176: a convolution that starts is checked against its core and its dimensions; one with an empty output
is DONE_EMPTY; else its items are those its dimensions give. Its next item begins after its checks. The next tile of the item
in hand is fed, with a register set and, where it has chunks, the feeder on its stream, and goes to the drain; after its last
tile the item ends. -/
def Obligations.ConvolutionItems : Prop :=
  ∀ (s : State) (die c st : Nat) (cmd : Instr) (op : Nat), st < 2 → ConvCmd die c st cmd op →
    (∀ u r k, Starts s (streamEngine die c st) 3 u r → s.holdFree die c st 3 = true →
      s.nextIs (streamEngine die c st) 3 (fun b => s.convOp b == op) = true → k = u.convOf r →
      (u.coreFenced die c = true → Completes cmd s (Faulted (streamEngine die c st) 0x0A)) ∧
      (u.coreFenced die c = false → r.spareWords 4 = true → Completes cmd s (Faulted (streamEngine die c st) 1)) ∧
      (u.coreFenced die c = false → r.spareWords 4 = false → k.geo.t.i ≤ 16777215 → k.geo.h.i ≤ 16777215 →
        k.geo.w.i ≤ 16777215 → k.items < 2 ^ 32 → (k.ndim = 2 → k.geo.t.i = 1) →
        (k.batch = 0 → Completes cmd s (fun t => SameMem u t ∧
          ∃ p, t.run (streamEngine die c st) = some p ∧ p.retired = true ∧ p.status = 1)) ∧
        (k.batch ≠ 0 → k.geo.outPos ≠ 0 → Completes cmd s (fun t => SameMem u t ∧
          ∃ p, t.run (streamEngine die c st) = some p ∧ p.stopped = false ∧ p.cur.items = k.items ∧
            p.cur.needClaim = k.claim)))) ∧
    (∀ r k i f, InHand s (streamEngine die c st) 3 r → s.convOp r.body = op → k = s.convOf r → r.cur.item = none →
      r.nextItem k.claim = some i → s.convCheck (streamEngine die c st) (r.atItem k i) k i = f →
      (f.1 = 0 → Completes cmd s (fun t => SameMem s t ∧ t.cores = s.cores ∧
        t.run (streamEngine die c st) = some (r.atItem k i))) ∧
      (f.1 ≠ 0 → Completes cmd s (fun t => Faulted (streamEngine die c st) f.1 t ∧
        ∃ p, t.run (streamEngine die c st) = some p ∧ p.recItem = f.2.item ∧ p.recGi = f.2.gi ∧ p.recGj = f.2.gj))) ∧
    (∀ r k i x y got, InHand s (streamEngine die c st) 3 r → s.convOp r.body = op → k = s.convOf r → r.cur.item = some i →
      k.tileAt i r.cur.pc = some x →
      (s.core (coreKey die c)).tiles.find? (fun t => t.stream == st && t.set.isSome) = some y →
      k.pieces x.mt = [] ∨ (s.core (coreKey die c)).feeds st = true →
      s.convParts k x 0 (k.pieces x.mt) [] = got →
      (got.2.1 = 0 → Completes cmd s (fun t => SameMem s t ∧
        (∃ z, (t.core (coreKey die c)).drainQ = (s.core (coreKey die c)).drainQ ++ [z] ∧ z.vals = k.tileVals x got.1) ∧
        ∃ p, t.run (streamEngine die c st) = some p ∧ p.executed = r.executed + 1 ∧ p.stopped = false ∧
          p.cur.item = (if r.cur.pc + 1 < (k.tiles i).2.length then some i else none))) ∧
      (got.2.1 ≠ 0 → Completes cmd s (fun t => Faulted (streamEngine die c st) got.2.1 t ∧ t.cores = s.cores ∧
        ∃ p, t.run (streamEngine die c st) = some p ∧ p.recItem = i ∧ p.recGi = x.gi ∧ p.recGj = x.gj ∧
          p.recChunk = got.2.2)))

/-! ## Transforms and transfers -/

namespace Sys2Proof.Machine

/-- A packet of a kind whose header names `op` is in hand and goes on, or starts: `u` is the state its next row is carried out
in. -/
structure Steps (s : State) (e kind op : Nat) (u : State) (r : Run) : Prop where
  goes : Goes s e kind u r
  opNext : s.run e = none → s.nextIs e kind (fun b => s.ld 1 b == op) = true
  opHand : s.run e = some r → s.ld 1 r.body = op

/-- The next row of a part has been carried out, with `x` its result (R38, R183): the packet goes on, retires with the last row,
or stops where it faults. -/
def RowDone (e n : Nat) (x : State × Nat) (t : State) : Prop :=
  ∀ q, x.1.run e = some q → (x.2 = 0 → t.mem = x.1.mem ∧ Stepped e n q t) ∧ (x.2 ≠ 0 → Faulted e x.2 t)

/-- Rows of a transform's whole packet, by op (R183), and one of them. -/
def Wtu.total (w : Wtu) (op : Nat) : Nat :=
  if op = 1 then w.batch * w.frames * w.th * w.tw
  else if op = 2 then w.geo.t.k * w.cout
  else w.batch * w.geo.t.out * w.th * w.tw
def State.wgRow (s : State) (op e : Nat) (w : Wtu) (k : Nat) : State × Nat :=
  if op = 1 then s.wgInput e w k else if op = 2 then s.wgWeight e w k else s.wgOutput e w k

/-- A sum of products of integers. -/
def intDot (xs ys : List Int) : Int := (xs.zip ys).foldl (fun n p => n + p.1 * p.2) 0

/-- One output of a one-dimensional transform: the inverse transform of the products of transformed data and kernel. -/
def wgOut (variant i : Nat) (d g : List Int) : Int :=
  intDot (listGet [] (wgA variant).2 i)
    (((wgG variant).2.zip (wgB variant).2).map (fun p => intDot p.1 g * intDot p.2 d))

end Sys2Proof.Machine

/-- R38, R180 to R182: a transform packet that starts or goes on carries out the next row of its part, and stops at one that
faults; an empty one is DONE_EMPTY. The transforms, as the model takes them (log 40), are minimal filtering: with exact
arithmetic an output is the sum of its three taps. -/
def Obligations.WinogradTransforms : Prop :=
  (∀ (s u : State) (die unit op : Nat) (cmd : Instr) (r : Run) (w : Wtu) (part : Nat × Nat),
    (cmd = .input die unit ∧ op = 1) ∨ (cmd = .weight die unit ∧ op = 2) ∨ (cmd = .output die unit ∧ op = 3) →
    Steps s (engineId 5 die unit) 6 op u r → w = u.wtuOf r → part = partOf (w.total op) w.part w.parts →
    (w.empty = false → r.prog < part.2 → Completes cmd s
      (RowDone (engineId 5 die unit) part.2 (u.wgRow op (engineId 5 die unit) w (part.1 + r.prog)))) ∧
    (w.empty = false → part.2 ≤ r.prog → Completes cmd s (fun t => Retired (engineId 5 die unit) t ∧ SameMem u t)) ∧
    (w.empty = true → Completes cmd s (fun t => SameMem u t ∧
      ∃ p, t.run (engineId 5 die unit) = some p ∧ p.retired = true ∧ p.status = 1))) ∧
  (∀ (variant i : Nat) (d g : List Int), variant = 1 ∨ variant = 2 → i < (if variant = 2 then 4 else 2) →
    d.length = (if variant = 2 then 6 else 4) → g.length = 3 →
    wgOut variant i d g = ((wgG variant).1 : Int) * intDot g (d.drop i))

namespace Sys2Proof.Machine

/-- A transfer of kind 5 goes on or starts (R183), with its header, and `k` the next row of its part of `n` rows. -/
structure MoveAt (s : State) (die unit op : Nat) (u : State) (r : Run) (m : Mov) (n k : Nat) : Prop where
  steps : Steps s (engineId 4 die unit) 5 op u r
  header : m = u.movOf r
  headerOp : m.op = op
  some_ : m.empty = false
  rows : n = (partOf m.total m.part m.parts).2
  left : r.prog < n
  row : k = (partOf m.total m.part m.parts).1 + r.prog

/-- Where row `k` of a transfer is written: address and bytes (R184 to R187). -/
def Mov.dest (m : Mov) (k : Nat) : Nat × Nat :=
  match m.op with
  | 1 | 2 => (m.dst + k * m.dstStride, m.run)
  | 3 => (m.dst + k * m.coarseCh * m.w, m.coarseCh * m.w)
  | 4 => (m.dst + k * m.ch * m.w, m.ch * m.w)
  | _ => (m.dst + k * m.ch * m.wOut, m.ch * m.wOut)

/-- The row is carried out, and where its destination is memory no byte outside it changes: for POOL_MAX that of the index
tensor too. -/
def Moved (u : State) (die unit : Nat) (m : Mov) (n k : Nat) (t : State) : Prop :=
  ∀ x, x = u.movRow (engineId 4 die unit) m (partOf m.total m.part m.parts).1 k →
    RowDone (engineId 4 die unit) n x t ∧
    (x.2 = 0 → m.cvt.fmt.elemBits % 8 = 0 → inMem (m.dest k).1 (m.dest k).2 = true →
      (m.op = 6 → inMem (m.aux + 4 * (k * m.ch)) (4 * m.ch) = true) →
      ∀ a, (a < (m.dest k).1 ∨ (m.dest k).1 + (m.dest k).2 ≤ a) →
        (m.op = 6 → a < m.aux + 4 * (k * m.ch) ∨ m.aux + 4 * (k * m.ch) + 4 * m.ch ≤ a) → x.1.byte a = u.byte a)

end Sys2Proof.Machine

/-- R38, R183 to R187: a transfer that starts or goes on carries out the next row of its part, retires with the last, and stops
at one that faults; a row writes its destination and nothing else. -/
def Sys2Proof.Machine.Says.TransfersRun : Prop :=
  ∀ (s u : State) (die unit op n k : Nat) (r : Run) (m : Mov), MoveAt s die unit op u r m n k →
    (op = 1 → Completes (.copy die unit) s (Moved u die unit m n k)) ∧
    (op = 2 → Completes (.gather die unit) s (Moved u die unit m n k)) ∧
    (op = 3 → Completes (.s2d die unit) s (Moved u die unit m n k)) ∧
    (op = 4 → Completes (.d2s die unit) s (Moved u die unit m n k)) ∧
    (op = 5 → Completes (.padFold die unit) s (Moved u die unit m n k)) ∧
    (op = 6 → Completes (.poolMax die unit) s (Moved u die unit m n k)) ∧
    (op = 7 → Completes (.poolAvg die unit) s (Moved u die unit m n k)) ∧
    (op = 8 → Completes (.poolMaxBwd die unit) s (Moved u die unit m n k)) ∧
    (op = 9 → Completes (.poolAvgBwd die unit) s (Moved u die unit m n k))

/-- R184: COPY leaves the row at its destination as the source row was, where both lie in memory that answers; GATHER stops at
an index past the source's rows, with its number in the record. -/
def Sys2Proof.Machine.Says.RowsCopied : Prop :=
  ∀ (s u : State) (die unit n k : Nat) (r : Run) (m : Mov),
    (MoveAt s die unit 1 u r m n k → Sound u → 0 < m.run →
      inMem (m.src + k * m.srcStride) m.run = true → inMem (m.dst + k * m.dstStride) m.run = true →
      Completes (.copy die unit) s (fun t => Stepped (engineId 4 die unit) n r t ∧
        t.peek (m.dst + k * m.dstStride) m.run = u.peek (m.src + k * m.srcStride) m.run ∧
        OnlyBytes (m.dst + k * m.dstStride) m.run u t)) ∧
    (∀ bs, MoveAt s die unit 2 u r m n k → u.load (m.aux + 4 * k) 4 = .ok bs →
      m.srcRows ≤ leNat bs → Completes (.gather die unit) s (fun t => Faulted (engineId 4 die unit) 1 t ∧
        (Still u → SameMem u t) ∧ ∃ q, t.run (engineId 4 die unit) = some q ∧ q.recItem = k))

/-! ## KV regions -/

namespace Sys2Proof.Machine

/-- A KV append packet has its entry `x` in hand (R160). -/
structure AppendAt (s : State) (die unit : Nat) (r : Run) (x : AppendEntry) : Prop where
  hand : InHand s (engineId 7 die unit) 8 r
  entry : x = s.appendEntry r.body r.cur.next

/-- The entry has ended: the next one is taken, and the packet retires after the last. -/
def EntryEnded (e : Nat) (r : Run) (t : State) : Prop :=
  ∃ q, t.run e = some q ∧ q.executed = r.executed + 1 ∧ q.cur.next = r.cur.next + 1 ∧
    q.retired = decide (r.cur.items ≤ r.cur.next + 1) ∧ q.stopped = false

end Sys2Proof.Machine

/-- R160, R164: a KV append packet takes its entries one by one. An entry that is refused, or of a region that does not exist, is
reported bad; one whose region it has not locked joins those that wait; with too few free slots it asks for eviction; else its tokens are
written, the region's top moves on, and the lock is given up. -/
def Sys2Proof.Machine.Says.KvAppends : Prop :=
  ∀ (s : State) (die unit : Nat), die < 2 → unit < 4 →
    (∀ u r, Starts s (engineId 7 die unit) 8 u r →
      (r.dim 0 (u.ld 4 r.body) = 0 → Completes (.kvAppend die unit) s (fun t => SameMem u t ∧
        ∃ p, t.run (engineId 7 die unit) = some p ∧ p.retired = true ∧ p.status = 1)) ∧
      (r.dim 0 (u.ld 4 r.body) ≠ 0 → r.bodyLen < 32 + 32 * r.dim 0 (u.ld 4 r.body) →
        Completes (.kvAppend die unit) s (Faulted (engineId 7 die unit) 1)) ∧
      (r.dim 0 (u.ld 4 r.body) ≠ 0 → 32 + 32 * r.dim 0 (u.ld 4 r.body) ≤ r.bodyLen →
        Completes (.kvAppend die unit) s (fun t => SameMem u t ∧ ∃ p, t.run (engineId 7 die unit) = some p ∧
          p.cur.items = r.dim 0 (u.ld 4 r.body) ∧ p.cur.next = 0 ∧ p.stopped = false))) ∧
    (∀ r x, AppendAt s die unit r x →
      (s.kvExists x.region = false ∨ (s.kvExists x.region = true ∧ s.badRange (s.kvAt x.region) 64 = false ∧
          (s.kvUse x.region).lock = some (engineId 7 die unit) ∧
          appendBad (s.kvDesc x.region) (s.kvUse x.region).top x = true) →
        Sound s → inMem (s.ld 8 (r.body + 8) + 16 * r.cur.next) 16 = true →
        Completes (.kvAppend die unit) s (fun t => EntryEnded (engineId 7 die unit) r t ∧
          Counted (rKvaCtrBADENTRIES die unit) 1 s t ∧ t.ld 4 (s.ld 8 (r.body + 8) + 16 * r.cur.next) = 0x11 ∧
          OnlyBytes (s.ld 8 (r.body + 8) + 16 * r.cur.next) 16 s t ∧
          (t.kvUse x.region).lock ≠ some (engineId 7 die unit))) ∧
      (s.kvExists x.region = true → s.badRange (s.kvAt x.region) 64 = true →
        Completes (.kvAppend die unit) s (Faulted (engineId 7 die unit) 6)) ∧
      (s.kvExists x.region = true → s.badRange (s.kvAt x.region) 64 = false →
        (s.kvUse x.region).lock ≠ some (engineId 7 die unit) →
        Completes (.kvAppend die unit) s (fun t => engineId 7 die unit ∈ (t.kvUse x.region).waiters ∧ SameMem s t ∧
          t.run (engineId 7 die unit) = some r)) ∧
      (s.kvExists x.region = true → s.badRange (s.kvAt x.region) 64 = false →
        (s.kvUse x.region).lock = some (engineId 7 die unit) →
        appendBad (s.kvDesc x.region) (s.kvUse x.region).top x = false →
        (r.aux = [] → (s.freeSlots (s.kvDesc x.region)).length < x.count → Completes (.kvAppend die unit) s (fun t =>
          (t.kvUse x.region).evicting = true ∧ SameMem s t ∧ t.run (engineId 7 die unit) = some r)) ∧
        (∀ f w y, r.aux ≠ [] ∨ x.count ≤ (s.freeSlots (s.kvDesc x.region)).length →
          (if r.aux = [] then s.foldMasses (engineId 7 die unit) (s.kvDesc x.region) else (s, 0)) = (f, 0) →
          (indexed ((f.freeSlots (s.kvDesc x.region)).take x.count)).foldl (fun (a : State × Nat) ts =>
            if a.2 ≠ 0 then a else a.1.writeToken (engineId 7 die unit) (s.kvDesc x.region)
              ((Fmt.ofCode (s.ld 1 (r.body + 4) % 16)).getD .fp32) x ts.1 ts.2) (f, 0) = (w, 0) →
          w.kvUpdate (engineId 7 die unit) x.region (s.kvDesc x.region) = (y, 0) → Sound y →
          (y.kvUse x.region).lock = some (engineId 7 die unit) →
          inMem (y.ld 8 (r.body + 8) + 16 * r.cur.next) 16 = true →
          Completes (.kvAppend die unit) s (fun t => EntryEnded (engineId 7 die unit) r t ∧
            (t.kvUse x.region).top = x.first + x.count ∧ (t.kvUse x.region).lock = none ∧
            t.ld 4 (y.ld 8 (r.body + 8) + 16 * r.cur.next) = 0)))) ∧
    (∀ region cycles w ws, (s.kvUse region).lock = none → (s.kvUse region).waiters = w :: ws →
      Completes (.kvRegionLock region cycles) s (fun t => (t.kvUse region).lock = some w ∧ (t.kvUse region).waiters = ws ∧
        Counted (rKvaCtrLOCKWAITCYCLES (engDie w) (engInst w)) cycles s t ∧ SameMem s t))

/-- R162, R164: once no item reads the region, the masses are folded and victims evicted, and the packet records how many. A
victim is a valid slot that is not protected. -/
def Sys2Proof.Machine.Says.KvEvicts : Prop :=
  (∀ (s f : State) (die unit cycles : Nat) (r : Run) (x : AppendEntry), AppendAt s die unit r x →
    (s.kvUse x.region).lock = some (engineId 7 die unit) → (s.kvUse x.region).evicting = true →
    (s.kvUse x.region).readers = [] → s.foldMasses (engineId 7 die unit) (s.kvDesc x.region) = (f, 0) →
    ∀ v n, f.evictFor (engineId 7 die unit) (s.kvDesc x.region) (x.first + x.count - 1) x.count (s.kvDesc x.region).capacity 0 =
        (v, n, 0) →
      Completes (.kvEvict die unit cycles) s (fun t => t.mem = v.mem ∧
        ∃ q, t.run (engineId 7 die unit) = some q ∧ q.aux = [1, n] ∧ q.executed = r.executed)) ∧
  (∀ (s : State) (k : KvDesc) (last i : Nat), i ∈ s.victim k last →
    (s.slot k i).valid = true ∧ k.protects last (s.slot k i).pos = false)

/-! ## Vector programs -/

namespace Sys2Proof.Machine

/-- A lane of a vector register. -/
def Vec.lane (g : Vec) (k l : Nat) : W32 := Tbl.get (fun _ => 0#32) g.v (256 * k + l)

/-- The next instruction of a vector engine's program in hand is `x`, of an opcode (R233, R235). -/
structure AtVec (s : State) (die i op : Nat) (r : Run) (x : VIns) : Prop where
  dieLt : die < 2
  unitLt : i < 32
  next : s.vnext (engineId 3 die i) op = some (r, x)

/-- The state in which an instruction has been counted (R245). -/
def State.issued (s : State) (die i : Nat) : State := s.count (rVecCtrINSTRUCTIONS die i) 1

/-- The program goes on with the instruction that follows in order, through every loop that ends here (R234, R236); nothing
of memory changed, and no register but INSTRUCTIONS, which counts it, and those named. -/
def VecNext (s : State) (die i : Nat) (r : Run) (regs : List Nat) (t : State) : Prop :=
  OnlyRegs (rVecCtrINSTRUCTIONS die i :: regs) s t ∧ Counted (rVecCtrINSTRUCTIONS die i) 1 s t ∧
  ∃ q, t.run (engineId 3 die i) = some q ∧ (q.prog, q.loops) = loopsEnd (r.prog + 1) r.loops ∧
    q.executed = r.executed + 1 ∧ q.stopped = false

/-- Lanes of vd that take part hold `f`; every other lane, and every X, mask and scratch place, is as it was. -/
def LanesWritten (s : State) (e : Nat) (x : VIns) (f : Nat → W32) (t : State) : Prop :=
  (∀ l, l < 256 → (t.vec e).lane x.vd l = if (s.vec e).on x l then f l else (s.vec e).lane x.vd l) ∧
  (∀ k l, k ≠ x.vd → l < 256 → (t.vec e).lane k l = (s.vec e).lane k l) ∧
  (t.vec e).x = (s.vec e).x ∧ (t.vec e).m = (s.vec e).m ∧ (t.vec e).scratch = (s.vec e).scratch

/-- X register xd holds `v`; every other X register, and every lane, mask and scratch place, is as it was. -/
def XWritten (s : State) (e : Nat) (x : VIns) (v : Nat) (t : State) : Prop :=
  (t.vec e).xreg x.xd = v ∧ (∀ k, k ≠ x.xd → (t.vec e).xreg k = (s.vec e).xreg k) ∧
  (t.vec e).v = (s.vec e).v ∧ (t.vec e).m = (s.vec e).m ∧ (t.vec e).scratch = (s.vec e).scratch

/-- What an instruction that writes lanes does, without an access to memory. -/
def VecDone (s : State) (die i : Nat) (r : Run) (x : VIns) (f : Nat → W32) (t : State) : Prop :=
  VecNext s die i r [] t ∧ SameMem s t ∧ LanesWritten s (engineId 3 die i) x f t

/-- Lane `l` of the operands. -/
def State.vecA (s : State) (e : Nat) (x : VIns) (l : Nat) : W32 := (s.vec e).lane x.va l
def State.vecB (s : State) (e : Nat) (x : VIns) (l : Nat) : W32 := (s.vec e).lane x.vb l
def State.vecC (s : State) (e : Nat) (x : VIns) (l : Nat) : W32 := (s.vec e).lane x.vc l

end Sys2Proof.Machine

/-- R233, R234, R236: the lane instructions, lane by lane under their mask, with one rounding; PAIR takes both BF16 halves. -/
def Sys2Proof.Machine.Says.LaneArithmetic : Prop :=
  ∀ (s : State) (die i e : Nat) (r : Run) (x : VIns), e = engineId 3 die i →
    (AtVec s die i 0x01 r x → Completes (.fma die i) s (VecDone s die i r x (fun l =>
      lane1 x.pair (fun a b c => Fp.add (Fp.mul a b) c) (s.vecA e x l) (s.vecB e x l) (s.vecC e x l)))) ∧
    (AtVec s die i 0x02 r x → Completes (.add die i) s (VecDone s die i r x (fun l =>
      lane1 x.pair (fun a b _ => Fp.add a b) (s.vecA e x l) (s.vecB e x l) (s.vecC e x l)))) ∧
    (AtVec s die i 0x03 r x → Completes (.mul die i) s (VecDone s die i r x (fun l =>
      lane1 x.pair (fun a b _ => Fp.mul a b) (s.vecA e x l) (s.vecB e x l) (s.vecC e x l)))) ∧
    (AtVec s die i 0x04 r x → Completes (.max die i) s (VecDone s die i r x (fun l =>
      lane1 x.pair (fun a b _ => fpMax a b) (s.vecA e x l) (s.vecB e x l) (s.vecC e x l)))) ∧
    (AtVec s die i 0x05 r x → Completes (.min die i) s (VecDone s die i r x (fun l =>
      lane1 x.pair (fun a b _ => fpMin a b) (s.vecA e x l) (s.vecB e x l) (s.vecC e x l)))) ∧
    (AtVec s die i 0x06 r x → Completes (.func die i) s (VecDone s die i r x (fun l =>
      vecFunc x.sub (s.vecA e x l) (s.vecB e x l)))) ∧
    (AtVec s die i 0x07 r x → Completes (.vectorAct die i) s (VecDone s die i r x (fun l =>
      if x.vb = 0 then actF x.sub (s.vecA e x l) else actD x.sub (s.vecA e x l))))

/-- R234: CMP sets the mask bits of the lanes that take part; SEL takes each lane from va or vb by a mask, whatever the mask
field says; RED leaves its result in lane 0 and zeros elsewhere; BCAST copies one lane; RNG draws words of the packet's
stream (R241), which are counted. -/
def Sys2Proof.Machine.Says.LaneSelection : Prop :=
  ∀ (s : State) (die i e : Nat) (r : Run) (x : VIns), e = engineId 3 die i →
    (AtVec s die i 0x08 r x → Completes (.cmp die i) s (fun t => VecNext s die i r [] t ∧ SameMem s t ∧
      (∀ l, l < 256 → ((t.vec e).mreg (x.vd % 8)).getLsbD l = (if (s.vec e).on x l
        then vecCmp x.sub (s.vecA e x l) (s.vecB e x l) else ((s.vec e).mreg (x.vd % 8)).getLsbD l)) ∧
      (∀ k, k ≠ x.vd % 8 → (t.vec e).mreg k = (s.vec e).mreg k) ∧ (t.vec e).v = (s.vec e).v ∧ (t.vec e).x = (s.vec e).x)) ∧
    (AtVec s die i 0x09 r x → Completes (.sel die i) s (fun t => VecNext s die i r [] t ∧ SameMem s t ∧
      (∀ l, l < 256 → (t.vec e).lane x.vd l = (if ((s.vec e).mreg x.mask).getLsbD l then s.vecA e x l else s.vecB e x l)) ∧
      (∀ k l, k ≠ x.vd → l < 256 → (t.vec e).lane k l = (s.vec e).lane k l) ∧ (t.vec e).x = (s.vec e).x ∧
      (t.vec e).m = (s.vec e).m)) ∧
    (AtVec s die i 0x0A r x → Completes (.red die i) s (VecDone s die i r x (fun l =>
      if l = 0 then vecRed x.sub ((s.vec e).lanes x.va) else 0#32))) ∧
    (AtVec s die i 0x0B r x → Completes (.bcast die i) s (VecDone s die i r x (fun _ =>
      s.vecA e x (x.imm % 256).toNat))) ∧
    (AtVec s die i 0x18 r x → Completes (.rng die i) s (fun t => VecNext s die i r [rVecCtrRNGWORDS die i] t ∧ SameMem s t ∧
      Counted (rVecCtrRNGWORDS die i) (if x.sub = 2 then 512 else 256) s t ∧
      LanesWritten s e x (fun l => match x.sub with
        | 0 => BitVec.ofNat 32 (r.rngWord ((s.vec e).xreg x.xs + l))
        | 1 => uniformOf (r.rngWord ((s.vec e).xreg x.xs + l))
        | _ => gaussOf (r.rngWord ((s.vec e).xreg x.xs + 2 * l)) (r.rngWord ((s.vec e).xreg x.xs + 2 * l + 1))) t))

/-- R233, R234, R245: a load of a vector register, of plain or of block elements, changes no byte of memory; one that cannot
be read stops the program, as the accesses of the spec do. -/
def Sys2Proof.Machine.Says.VectorLoads : Prop :=
  ∀ (s : State) (die i e a n : Nat) (r : Run) (x : VIns) (f : Fmt), e = engineId 3 die i → a = (s.vec e).addr x →
    (AtVec s die i 0x10 r x → f = (Fmt.ofCode x.sub).getD .fp32 → n = 256 * (f.elemBits / 8) →
      (∀ bs, (s.issued die i).vload e a n = (bs, 0) → Completes (.ld die i) s (fun t => VecNext s die i r [rVecCtrMEMBYTES die i, rPcieCtrRXBYTES] t ∧
        SameMem s t ∧ (inMem a n = true → isScratch a = false → Counted (rVecCtrMEMBYTES die i) n s t) ∧
        LanesWritten s e x (fun l => toF32 (listGet Fp.zero (decodePlains f 256 bs) l)) t)) ∧
      (((s.issued die i).vload e a n).2 ≠ 0 → Completes (.ld die i) s (fun t => Faulted e ((s.issued die i).vload e a n).2 t ∧ (Still s → SameMem s t) ∧
        ∃ q, t.run e = some q ∧ q.recInstr = r.prog % 65536))) ∧
    (AtVec s die i 0x12 r x → f = (Fmt.ofCode x.sub).getD .mxE4m3 →
      ∀ es ss, (s.issued die i).vload e a (f.elemBytes 256) = (es, 0) →
        (s.issued die i).vload e ((s.vec e).scaleAddr x f) (f.scalePlaneBytes 256) = (ss, 0) →
        Completes (.ldb die i) s (fun t => VecNext s die i r [rVecCtrMEMBYTES die i, rPcieCtrRXBYTES] t ∧ SameMem s t ∧
          LanesWritten s e x (fun l =>
            toF32 (listGet Fp.zero (decodeBlocks f ((s.vec e).tauOf x f) ldbMoment 256 es ss) l)) t)) ∧
    (AtVec s die i 0x22 r x → ∀ y bs, y = ((((s.vec e).xreg (x.va % 16) : Int) + x.imm * 8) % ((2 ^ 64 : Nat) : Int)).toNat →
      (s.issued die i).vload e y 8 = (bs, 0) →
        Completes (.xld die i) s (fun t => VecNext s die i r [rVecCtrMEMBYTES die i, rPcieCtrRXBYTES] t ∧ SameMem s t ∧
          XWritten s e x (leNat bs) t))

/-- R120, R204, R233, R234, R236: a store of plain elements, unmasked and without stochastic rounding, leaves each lane at its
place and no other byte changed; a store of blocks leaves its elements and its scales; an accumulate-write adds each lane to
what stands there, and a replay makes none. A store that leaves the mapped memory anywhere writes nothing and stops the
program. -/
def Sys2Proof.Machine.Says.VectorStores : Prop :=
  ∀ (s : State) (die i e a : Nat) (r : Run) (x : VIns), e = engineId 3 die i → a = (s.vec e).addr x → isScratch a = false →
    Sound s →
    (∀ c, AtVec s die i 0x11 r x → x.masked = false → Cvt.ofByte x.cvt = some c → c.sr = false → c.fmt.scaled = false →
      inMem a (c.fmt.elemBits / 8 * 256) = true →
      Completes (.st die i) s (fun t => VecNext s die i r [rVecCtrMEMBYTES die i] t ∧
        (∀ l, l < 256 → t.peek (a + c.fmt.elemBits / 8 * l) (c.fmt.elemBits / 8) =
          leBytes (c.fmt.elemBits / 8) (convPlain c.fmt c.ovfNan .rne (ofF32 ((s.vec e).lane x.vd l)))) ∧
        OnlyBytes a (256 * (c.fmt.elemBits / 8)) s t ∧ t.vec e = s.vec e)) ∧
    (∀ c b bs, AtVec s die i 0x13 r x → Cvt.ofByte x.cvt = some c → c.sr = false → b = (s.vec e).scaleAddr x c.fmt →
      isScratch b = false → bs = encodeBlocks c.fmt c.ovfNan ((s.vec e).tauOf x c.fmt)
        (if bitOf x.sub 0 then .second else .first) (fun _ => .rne) (((s.vec e).lanes x.vd).map ofF32) →
      inMem a bs.1.length = true → inMem b bs.2.length = true → a + bs.1.length ≤ b ∨ b + bs.2.length ≤ a →
      Completes (.stb die i) s (fun t => VecNext s die i r [rVecCtrMEMBYTES die i] t ∧ t.peek a bs.1.length = bs.1 ∧
        t.peek b bs.2.length = bs.2 ∧ t.vec e = s.vec e ∧
        ∀ y, (y < a ∨ a + bs.1.length ≤ y) → (y < b ∨ b + bs.2.length ≤ y) → t.byte y = s.byte y)) ∧
    (AtVec s die i 0x14 r x → x.masked = false → x.sub = 0 → r.replayOf = none →
      inMem a 1024 = true →
      Completes (.stacc die i) s (fun t => VecNext s die i r [rVecCtrMEMBYTES die i] t ∧
        (∀ l, l < 256 → t.ld 4 (a + 4 * l) =
          (f32Add (BitVec.ofNat 32 (s.ld 4 (a + 4 * l))) ((s.vec e).lane x.vd l)).toNat) ∧
        OnlyBytes a 1024 s t ∧ t.vec e = s.vec e)) ∧
    (AtVec s die i 0x14 r x → r.replayOf.isSome = true → Completes (.stacc die i) s (fun t => VecNext s die i r [] t ∧
      SameMem s t ∧ t.vec e = s.vec e)) ∧
    (∀ c k, AtVec s die i 0x11 r x → x.masked = false → Cvt.ofByte x.cvt = some c → c.fmt.elemBits / 8 = k → 0 < k →
      inMem a (k * 256) = false → inSpace .ctl a (k * 256) = false → s.poolOk a (k * 256) = false →
      Completes (.st die i) s (fun t => Faulted e 1 t ∧ (Still s → SameMem s t)))

/-- R232, R234, R237, R239: a vector program starts with its parameters, stream offset, step and shape words in X, and every
vector and mask register clear. The scalar instructions write X modulo 2^64; a LOOP of no iterations passes over its body; at
its END the program has retired. -/
def Obligations.ProgramsRun : Prop :=
  ∀ (s : State) (die i e : Nat) (r : Run) (x : VIns), e = engineId 3 die i →
    (∀ u, Starts s e 4 u r → Completes (.vectorProgram die i) s (fun t => SameMem u t ∧ t.run e = some r ∧
      (t.vec e).xreg 0 = u.ld 8 (r.body + 8) ∧ (t.vec e).xreg 1 = r.genBase % 2 ^ 64 ∧ (t.vec e).xreg 2 = r.step % 2 ^ 64 ∧
      (∀ k, k < 6 → (t.vec e).xreg (3 + k) = listGet 0 r.shapes k % 2 ^ 64) ∧
      (∀ k l, (t.vec e).lane k l = 0#32) ∧ (∀ k, (t.vec e).mreg k = 0#256))) ∧
    (AtVec s die i 0x20 r x → Completes (.xadd die i) s (fun t => VecNext s die i r [] t ∧ SameMem s t ∧ XWritten s e x
      ((((s.vec e).xreg (x.va % 16) + (s.vec e).xreg (x.vb % 16) : Nat) + x.imm) % ((2 ^ 64 : Nat) : Int)).toNat t)) ∧
    (AtVec s die i 0x21 r x → Completes (.xshl die i) s (fun t => VecNext s die i r [] t ∧ SameMem s t ∧ XWritten s e x
      ((s.vec e).xreg (x.va % 16) * 2 ^ (x.imm % 64).toNat % 2 ^ 64) t)) ∧
    (AtVec s die i 0x28 r x → (s.vec e).xreg x.xs ≠ 0 → x.imm.toNat ≠ 0 → Completes (.loopOp die i) s (fun t =>
      SameMem s t ∧ t.vec e = s.vec e ∧ ∃ q, t.run e = some q ∧ q.prog = r.prog + 1 ∧ q.loops =
        (⟨r.prog + 1, r.prog + 1 + x.imm.toNat, (s.vec e).xreg x.xs, 0⟩ : LoopFrame) :: r.loops)) ∧
    (AtVec s die i 0x28 r x → (s.vec e).xreg x.xs = 0 → r.loops = [] → Completes (.loopOp die i) s (fun t =>
      SameMem s t ∧ t.vec e = s.vec e ∧ ∃ q, t.run e = some q ∧ q.prog = r.prog + 1 + x.imm.toNat ∧ q.loops = [])) ∧
    (AtVec s die i 0x29 r x → Completes (.programEnd die i) s (fun t => Retired e t ∧ SameMem s t ∧ t.vec e = s.vec e))

namespace Sys2Proof.Machine

/-- What CHOL and TRINV leave (R242, R243): the factor in scratch, inside the matrix's place alone, and in xd the failed
column, which is counted, or 2^64 − 1. -/
def Factored (s : State) (die i : Nat) (r : Run) (x : VIns) (col : Nat → Nat → Nat → Mem × Option Nat → Mem × Option Nat)
    (t : State) : Prop :=
  let e := engineId 3 die i
  let o := (s.vec e).xreg x.xs - scratchBase
  let n := x.imm.toNat
  let f := forN n ((s.vec e).scratch, none) (fun j st => col o n j st)
  VecNext s die i r [rVecCtrFACTORFAILS die i] t ∧ SameMem s t ∧ (t.vec e).v = (s.vec e).v ∧ (t.vec e).scratch = f.1 ∧
  (∀ b, b < o ∨ o + 1024 * (n - 1) + 4 * n ≤ b →
    Tbl.get scratchDefault (t.vec e).scratch b = Tbl.get scratchDefault (s.vec e).scratch b) ∧
  (f.2 = none → (t.vec e).xreg x.xd = 2 ^ 64 - 1 ∧ t.reg (rVecCtrFACTORFAILS die i) = s.reg (rVecCtrFACTORFAILS die i)) ∧
  (∀ j, f.2 = some j → j < n ∧ (t.vec e).xreg x.xd = j % 2 ^ 64 ∧ Counted (rVecCtrFACTORFAILS die i) 1 s t)

end Sys2Proof.Machine

/-- R242, R243: CHOL and TRINV factor a matrix that lies in scratch, and name the column of a pivot that fails; a matrix that
does not lie there stops the program. -/
def Obligations.MatricesFactored : Prop :=
  ∀ (s : State) (die i e a n : Nat) (r : Run) (x : VIns), e = engineId 3 die i → a = (s.vec e).xreg x.xs → n = x.imm.toNat →
    (isScratch a = true → n ≠ 0 → a - scratchBase + 1024 * (n - 1) + 4 * n ≤ scratchBytes →
      (AtVec s die i 0x30 r x → Completes (.chol die i) s (Factored s die i r x cholCol)) ∧
      (AtVec s die i 0x31 r x → Completes (.trinv die i) s (Factored s die i r x trinvCol))) ∧
    (isScratch a = false ∨ n = 0 →
      (AtVec s die i 0x30 r x → Completes (.chol die i) s (fun t => Faulted e 1 t ∧ (Still s → SameMem s t))) ∧
      (AtVec s die i 0x31 r x → Completes (.trinv die i) s (fun t => Faulted e 1 t ∧ (Still s → SameMem s t))))

/-! ## The Yo-yo -/

namespace Sys2Proof.Machine

/-- A byte of memory that no part of a grain's descriptor is (R192). -/
def OffDesc (s : State) (g a : Nat) : Prop :=
  ∀ tb, (s.yoyo (grainDie g)).table = some tb → a < tb + 32 * (g % 2 ^ 19) ∨ tb + 32 * (g % 2 ^ 19) + 32 ≤ a

/-- No byte of memory changed but in a grain's descriptor, unless a shedding episode began, whose record goes to the ring. -/
def OnlyDesc (s : State) (g : Nat) (t : State) : Prop := Still s → ∀ a, OffDesc s g a → t.byte a = s.byte a

end Sys2Proof.Machine

/-- R194, R197, R198, R199, R214: a tap of a grain that fills is stored at its offset and counted; the first one of an EMPTY grain
makes it LIVE with all its uses; the last one, before the grain is due, has the grain's policy applied, and a store of it
queued. A tap that the grain cannot take is rejected, counted and flagged, and marks its packet. -/
def Sys2Proof.Machine.Says.TapsJudged : Prop :=
  ∀ (s : State) (die n waited : Nat) (y : Tap) (rest : List Tap) (x : Grain), die < 2 → (s.yoyo die).taps = y :: rest →
    y.replayOf = none → x = s.grain y.grain → n = y.bytes.length → 0 < n →
    (x.bound = true → x.state = 1 → x.adoptFill = false → y.mask = false → x.filled + n < x.fillBytes → Sound s →
      (∀ k, k < n → OffDesc s y.grain (x.rawBase + y.offset + k)) →
      Completes (.grainTap ⟨die, waited⟩) s (fun t => (t.yoyo die).taps = rest ∧ (t.grain y.grain).filled = x.filled + n ∧
        (t.grain y.grain).state = 1 ∧ t.peek (x.rawBase + y.offset) n = y.bytes ∧
        Counted (rYoyoCtrTAPRECEIVED die) n s t ∧ Counted (rYoyoCtrTAPACCEPTED die) n s t)) ∧
    (x.bound = true → x.state = 0 → x.adoptFill = false → s.rawConflict y.grain = false → x.filled = 0 → n < x.fillBytes →
      Completes (.grainTap ⟨die, waited⟩) s (fun t => (t.yoyo die).taps = rest ∧ (t.grain y.grain).state = 1 ∧
        (t.grain y.grain).filled = n ∧ (t.grain y.grain).usesLeft = x.uses)) ∧
    (x.bound = true → x.state = 1 → x.adoptFill = false → x.filled + n = x.fillBytes → 1 ≤ x.policy → x.policy ≤ 3 →
      s.restoreDue y.grain x = false → Completes (.grainTap ⟨die, waited⟩) s (fun t =>
        Counted (rYoyoCtrCONSUMERWAITCYCLES (grainDie y.grain)) waited s t ∧ (t.grain y.grain).filled = x.fillBytes ∧ (t.grain y.grain).state = 1 ∧ (t.grain y.grain).dest = x.policy + 1 ∧
        (t.yoyo (grainDie y.grain)).storeQ = (s.yoyo (grainDie y.grain)).storeQ ++ [y.grain])) ∧
    (x.bound = false ∨ x.complete = true → Completes (.grainTap ⟨die, waited⟩) s (fun t => (t.yoyo die).taps = rest ∧ SameMem s t ∧
      Counted (rYoyoCtrTAPREJECTED die) n s t ∧ t.flag (rYoyoStatus die) 18 = true ∧ (t.grain y.grain) = x ∧
      ∀ r, s.run y.engine = some r → r.pid = y.pid → ∃ q, t.run y.engine = some q ∧ q.tapRejected = true))

/-- R194, R199, R200, R211: a complete grain that waits to be stored takes one of the die's 32 transfers and becomes OUTBOUND;
when its last byte has been accepted it is stored, and counted; a DEMOTE to DROP that waited for a replay drops it. Its form goes to the host in requests within the share. -/
def Sys2Proof.Machine.Says.StoresGo : Prop :=
  ∀ (s : State) (die g : Nat) (x : Grain), die < 2 → grainDie g = die → x = s.grain g →
    ((s.yoyo die).storeQ.find? (fun g => !s.replayHolds g) = some g → x.complete = true → x.dest = 5 →
      Completes (.storeBegin die) s (fun t => (t.grain g).state = 5 ∧ OnlyDesc s g t ∧
        (t.yoyo die).storeQ = (s.yoyo die).storeQ.erase g ∧ Counted (rYoyoCtrDROPPEDBYTES die) x.fillBytes s t)) ∧
    ((s.yoyo die).storeQ.find? (fun g => !s.replayHolds g) = some g → x.complete = true → x.dest ≠ 5 →
      ((s.yoyo die).xfers.length < 32 → Completes (.storeBegin die) s (fun t => (t.grain g).state = 7 ∧ OnlyDesc s g t ∧
        (t.yoyo die).storeQ = (s.yoyo die).storeQ.erase g ∧ ∃ f, (t.yoyo die).xfers = (s.yoyo die).xfers ++ [f] ∧
          f.grain = g ∧ f.outbound = true ∧ f.host = (x.dest != 2))) ∧
      (32 ≤ (s.yoyo die).xfers.length → Completes (.storeBegin die) s (fun t => t = s))) ∧
    (∀ f, s.xferOf g = some f → x.outbound = true → 2 ≤ x.dest → x.dest ≤ 4 → f.outbound = true → f.codec = false →
      f.ready = true ∨ (f.host = true ∧ f.got = f.total) → Completes (.storeComplete g) s (fun t =>
        (t.grain g).state = x.dest ∧ (t.grain g).stored = f.total ∧ t.xferOf g = none ∧ OnlyDesc s g t ∧
        Counted (rYoyoCtrRAWSTORED die) x.fillBytes s t)) ∧
    (∀ at_ f place n, s.poolNext die = some (f, place, n) → f.grain = g → s.xferOf g = some f →
      (s.host.poolLast ≠ die ∨ s.poolNext (1 - die) = none) → s.field rPcieStatus 2 0 ≠ 0 → bitOf (s.reg rPcieStatus) 9 = false →
      (∀ l ∈ s.host.poolLog, l.1 + 10000 ≤ at_) → n ≤ s.poolLimit → Completes (.poolRequest die at_) s (fun t => SameMem s t ∧
        (f.outbound = true → t.xferOf g = some { f with asked := f.asked + n, got := f.got + n } ∧
          Counted rPcieCtrTXBYTES n s t ∧ ∀ h, (∀ k, k < n → s.poolHost (x.storeAddr + place + k - poolBase) = some (h + k)) →
            ((f.data.drop place).take n).length = n → t.hostPeek h n = (f.data.drop place).take n) ∧
        (f.outbound = false → t.xferOf g = some { f with asked := f.asked + n } ∧
          t.host.reads = s.host.reads ++ [HostRead.pool g (x.storeAddr + place) n]))) ∧
    (∀ at_, s.field rPcieStatus 2 0 = 0 → Completes (.poolRequest die at_) s (fun t => t = s))

/-- R215, R226, R227: the lowest idle engine of the die's mask takes the transfer that waits for one; a decode whose form is still
being fetched waits there for its last byte. An encode leaves the stored form with its transfer and the reference frames in place; a decode leaves the raw
bytes in place; a form that the decoder rejects fails the restore, and is counted. -/
def Sys2Proof.Machine.Says.CodecEngines : Prop :=
  ∀ (s : State) (die i g : Nat) (x : Grain) (f : Xfer), die < 2 → grainDie g = die → x = s.grain g → f.grain = g →
    s.idleCodec die = some i → (s.yoyo die).xfers = [f] → f.codec = true → f.engine = none → f.failed = false → Sound s →
    (∀ p out, f.outbound = true → profileOf (s.profileBytes die (x.profile % 16)) = some p →
      out = codecEncode p g (s.peek x.rawBase x.fillBytes) → Completes (.codecDispatch die) s (fun t =>
        listGet false (t.yoyo die).codecBusy i = true ∧ Counted (rCodecCtrENCSTOREDBYTES die i) out.form.length s t ∧
        (x.dest ≠ 2 → Wrote x.rawBase out.raw s t) ∧
        ∃ q, t.xferOf g = some q ∧ q.data = out.form ∧ q.codec = false ∧ q.engine = some i)) ∧
    (∀ raw, f.outbound = false → f.host = true → f.got = f.total →
      codecDecode (some (x.fillBytes, x.stored, g)) f.data = some raw → Completes (.codecDispatch die) s (fun t =>
        Wrote x.rawBase raw s t ∧ Counted (rCodecCtrDECRAWBYTES die i) raw.length s t ∧
        ∃ q, t.xferOf g = some q ∧ q.ready = true ∧ q.codec = false ∧ q.failed = false)) ∧
    (f.outbound = false → f.host = true → f.got = f.total → codecDecode (some (x.fillBytes, x.stored, g)) f.data = none →
      Completes (.codecDispatch die) s (fun t => SameMem s t ∧ Counted (rCodecCtrREJECTED die i) 1 s t ∧
        ∃ q, t.xferOf g = some q ∧ q.failed = true)) ∧
    (f.outbound = false → f.host = true → f.got ≠ f.total → Completes (.codecDispatch die) s (fun t => SameMem s t ∧
      t.regs = s.regs ∧ listGet false (t.yoyo die).codecBusy i = true ∧ t.xferOf g = some { f with engine := some i }))

/-- R194, R199, R201, R203: a stored grain that is due joins the restore queue, and one that is still OUTBOUND returns to LIVE.
A queued restore begins when its region is vacated: a DROPPED grain's as a replay, in its place of the queue, another's as a
transfer; one that meets an
occupied region is marked pending. -/
def Sys2Proof.Machine.Says.RestoresBegin : Prop :=
  ∀ (s : State) (die g : Nat) (x : Grain), die < 2 → grainDie g = die → x = s.grain g →
    (∀ y, s.binding.active.isSome = true → s.dueList die = [(y, g)] →
      (x.stored' = true → Completes (.restoreTick die) s (fun t => (t.grain g).state = x.state ∧
        (g ∈ (t.yoyo die).restoreQ ∨ g ∈ (t.yoyo die).demandQ))) ∧
      (x.outbound = true → Completes (.restoreTick die) s (fun t => (t.grain g).state = 1 ∧ t.xferOf g = none ∧
        Counted (rYoyoCtrCANCELLEDSTORES die) 1 s t))) ∧
    (∀ rest, ((s.yoyo die).demandQ ++ (s.yoyo die).restoreQ).filter (fun g => (s.grain g).stored') = g :: rest →
      (∀ k ∈ g :: rest, s.rawConflict k = false) → x.state = 5 ∨ (s.yoyo die).xfers.length < 32 →
      Completes (.restoreBegin die) s (fun t => OnlyDesc s g t ∧ g ∉ (t.yoyo die).restoreQ ∧ g ∉ (t.yoyo die).demandQ ∧
        (g ∈ (s.yoyo die).demandQ → Counted (rYoyoCtrDEMANDRESTORES die) 1 s t) ∧
        (x.state = 5 → (t.grain g).state = 6 ∧ ∃ r l m, (s.yoyo die).replays = l ++ m ∧
          (t.yoyo die).replays = l ++ r :: m ∧ (∀ q ∈ l, q.before r = true) ∧ r.grain = g ∧ r.depth = 1) ∧
        (x.state ≠ 5 → (t.grain g).state = 7 ∧ (t.grain g).dest = 1 ∧ ∃ f, (t.yoyo die).xfers = (s.yoyo die).xfers ++ [f] ∧
          f.grain = g ∧ f.outbound = false ∧ f.codec = (x.state != 3)))) ∧
    (((s.yoyo die).demandQ ++ (s.yoyo die).restoreQ).filter (fun g => (s.grain g).stored') = [g] → s.rawConflict g = true →
      x.pending = false → Completes (.restoreBegin die) s (fun t => (t.grain g).pending = true ∧
        (t.grain g).state = x.state ∧ (t.yoyo die).xfers = (s.yoyo die).xfers ∧ OnlyDesc s g t))

/-- R194, R197, R206: a restore whose last raw byte is back leaves its grain LIVE and complete, or released when a release was
due; one that failed leaves it EMPTY and unavailable. A grain without uses or HOLD is released at its due tick. -/
def Sys2Proof.Machine.Says.RestoresEnd : Prop :=
  ∀ (s : State) (g waited : Nat) (x : Grain), x = s.grain g →
    (∀ f, s.xferOf g = some f → x.state = 7 → f.outbound = false → f.ready = true → f.failed = false →
      (x.releaseDue = false → Completes (.restoreComplete g waited) s (fun t => (t.grain g).state = 1 ∧
        (t.grain g).filled = x.fillBytes ∧ t.xferOf g = none ∧ OnlyDesc s g t ∧
        Counted (rYoyoCtrRAWRESTORED (grainDie g)) x.fillBytes s t ∧
        Counted (rYoyoCtrCONSUMERWAITCYCLES (grainDie g)) waited s t)) ∧
      (x.releaseDue = true → s.replayHolds g = false → Completes (.restoreComplete g waited) s (fun t =>
        (t.grain g).state = 0 ∧ t.xferOf g = none))) ∧
    (∀ f, s.xferOf g = some f → x.state = 7 → f.outbound = false → f.failed = true →
      Completes (.restoreFailure g waited) s (fun t => (t.grain g).state = 0 ∧ (t.grain g).unavailable = true ∧
        t.flag (rYoyoStatus (grainDie g)) 16 = true)) ∧
    (x.bound = true → x.uses = 0 → x.hold = false → s.binding.active.isSome = true → s.dueTick x x.dueStep ≤ s.now →
      x.releasedFor ≤ x.dueStep → x.complete = true → s.replayHolds g = false → Completes (.dueTickRelease g) s (fun t =>
        (t.grain g).state = 0 ∧ (t.grain g).releasedFor = x.dueStep + 1 ∧ OnlyDesc s g t))

/-- R204, R205, R206: a replay core takes the oldest replay that waits; it begins when every input is LIVE and complete, and
fails when one is lost. When its last segment has ended its grain is LIVE again; when it failed, EMPTY and unavailable. -/
def Sys2Proof.Machine.Says.ReplaysRun : Prop :=
  ∀ (s : State) (die c cycles : Nat) (r : Replay), die < 2 → c < 64 →
    (s.replayOn die c = none → (s.yoyo die).replays.find? (fun r => r.core.isNone) = some r →
      bitOf (s.act (rYoyoReplayCores die)) c = true → s.run (streamEngine die c 1) = none →
      s.engineBlocked (streamEngine die c 1) = false → (∀ i ∈ (s.stringOf r).inputs, i = 0xFFFFFFFF) →
      Completes (.replayStart die ⟨c, cycles⟩) s (fun t => SameMem s t ∧ ∃ q, t.replayOn die c = some q ∧ q.grain = r.grain ∧
        q.held = [])) ∧
    (s.replayOn die c = some r → (∀ q ∈ (s.yoyo die).replays, q.core.isSome = true) → r.failed = false → r.begun = false →
      ((∀ i ∈ r.held, (s.grain i).complete = true) → Completes (.replayStart die ⟨c, cycles⟩) s (fun t => SameMem s t ∧
        t.replayOn die c = some { r with begun := true })) ∧
      ((∃ i ∈ r.held, (s.grain i).lost = true) → Completes (.replayStart die ⟨c, cycles⟩) s (fun t => SameMem s t ∧
        t.replayOn die c = some { r with failed := true }))) ∧
    (∀ waited x, s.replayOn die c = some r → r.held = [] → x = s.grain r.grain → x.state = 6 →
      (r.failed = false → r.begun = true → (s.stringOf r).segs.length ≤ r.seg →
        (∀ y ∈ (s.yoyo 0).taps ++ (s.yoyo 1).taps, y.replayOf ≠ some r.grain) → x.adoptFill = true ∨ x.filled = x.fillBytes →
        x.releaseDue = false → Completes (.replayEnd die c waited) s (fun t => (t.grain r.grain).state = 1 ∧
          (t.grain r.grain).filled = x.fillBytes ∧ Counted (rYoyoCtrREPLAYS die) 1 s t ∧
          ∀ q ∈ (t.yoyo die).replays, q.grain ≠ r.grain)) ∧
      (r.failed = true → Completes (.replayEnd die c waited) s (fun t => (t.grain r.grain).state = 0 ∧
        (t.grain r.grain).unavailable = true ∧ Counted (rYoyoCtrREPLAYFAILURES die) 1 s t)))

namespace Sys2Proof.Machine

/-- The next entry of a residency directive packet is op `op` with argument `a`, on grain `g` (R208). -/
structure DirectiveAt (s : State) (die op : Nat) (r : Run) (g a : Nat) : Prop where
  dieLt : die < 2
  hand : InHand s (engineId 8 die 0) 9 r
  entries : r.dim 0 (s.ld 4 r.body) ≠ 0
  entry : s.directiveAt r.body r.prog = (op, a, g)

/-- The packet has taken the entry, and retires after the last. -/
def DirectiveTaken (s : State) (die : Nat) (r : Run) (t : State) : Prop :=
  ∃ q, t.run (engineId 8 die 0) = some q ∧ q.prog = r.prog + 1 ∧ q.executed = r.executed + 1 ∧
    q.retired = decide (r.dim 0 (s.ld 4 r.body) ≤ r.prog + 1) ∧ q.stopped = false

/-- The entry is ignored and counted, and the packet completes with a warning (R209). -/
def DirectiveIgnored (s : State) (die : Nat) (r : Run) (t : State) : Prop :=
  DirectiveTaken s die r t ∧ SameMem s t ∧ Counted (rYoyoCtrIGNOREDDIRECTIVES die) 1 s t ∧
    ∃ q, t.run (engineId 8 die 0) = some q ∧ (r.status = 0 → q.status = 2)

end Sys2Proof.Machine

/-- R194, R208, R209, R214: each directive takes its effect on a grain whose state allows it, HOLD and UNHOLD on any; RELEASE of a
grain that is still filled or on its way out, and the others on a grain that is not bound, are ignored and counted. -/
def Sys2Proof.Machine.Says.DirectivesApply : Prop :=
  ∀ (s : State) (die g a waited : Nat) (r : Run) (x : Grain), x = s.grain g →
    (x.bound = true →
      (DirectiveAt s die 1 r g a → x.state = 0 → x.adoptFill = true → s.rawConflict g = false → x.policy ≠ 4 →
        Completes (.adopt ⟨die, waited⟩) s (fun t => DirectiveTaken s die r t ∧ (t.grain g).state = 1 ∧
          (t.grain g).filled = x.fillBytes ∧ Counted (rYoyoCtrADOPTEDBYTES (grainDie g)) x.fillBytes s t)) ∧
      (DirectiveAt s die 2 r g a → x.stored' = true → Completes (.restore die) s (fun t => DirectiveTaken s die r t ∧
        g ∈ (t.yoyo (grainDie g)).demandQ ∧ SameMem s t)) ∧
      (DirectiveAt s die 3 r g a → x.complete = true → s.replayHolds g = false → Completes (.release die) s (fun t =>
        DirectiveTaken s die r t ∧ (t.grain g).state = 0 ∧ OnlyDesc s g t)) ∧
      (DirectiveAt s die 4 r g a → x.complete = true → x.usesLeft = 0 ∨ x.hold = true → s.replayHolds g = false →
        x.canTake a = true →
        (a ≤ 3 → Completes (.demote die) s (fun t => DirectiveTaken s die r t ∧
          (t.grain g).dest = a + 1 ∧ (t.yoyo (grainDie g)).storeQ.getLast? = some g ∧ OnlyDesc s g t)) ∧
        (a = 4 → Completes (.demote die) s (fun t => DirectiveTaken s die r t ∧
          (t.grain g).state = 5 ∧ Counted (rYoyoCtrDROPPEDBYTES (grainDie g)) x.fillBytes s t))) ∧
      (DirectiveAt s die 3 r g a → (x.state = 1 ∧ x.complete = false) ∨ x.outbound = true →
        Completes (.release die) s (DirectiveIgnored s die r))) ∧
    (DirectiveAt s die 5 r g a → Completes (.hold die) s (fun t => DirectiveTaken s die r t ∧
      t.grain g = { x with hold := true } ∧ OnlyDesc s g t)) ∧
    (DirectiveAt s die 6 r g a → x.usesLeft ≠ 0 → Completes (.unhold die) s (fun t => DirectiveTaken s die r t ∧
      t.grain g = { x with hold := false } ∧ OnlyDesc s g t)) ∧
    (x.bound = false →
      (DirectiveAt s die 1 r g a → Completes (.adopt ⟨die, waited⟩) s (DirectiveIgnored s die r)) ∧
      (DirectiveAt s die 2 r g a → Completes (.restore die) s (DirectiveIgnored s die r)) ∧
      (DirectiveAt s die 3 r g a → Completes (.release die) s (DirectiveIgnored s die r)) ∧
      (DirectiveAt s die 4 r g a → Completes (.demote die) s (DirectiveIgnored s die r)))

namespace Sys2Proof.Machine

/-- `n` bytes at `a` lie wholly in stack or shared memory, piece by piece. -/
def InOne (a n : Nat) : Prop := ∀ o k, 0 < k → o + k ≤ n → inMem (a + o) k = true

/-- Two ranges of bytes share none. -/
def Apart (a n b m : Nat) : Prop := a + n ≤ b ∨ b + m ≤ a

end Sys2Proof.Machine

/-- R227, R229, R231: an encode job leaves its stored form, its reference frames and its status record, or stops with an
overflow past dst_limit; a decode job leaves the raw bytes, or stops on a form that the decoder rejects. -/
def Sys2Proof.Machine.Says.CodecJobs : Prop :=
  ∀ (s u : State) (die unit : Nat) (r : Run) (j : CJob), Starts s (engineId 6 die unit) 7 u r → j = u.cjobOf r.body →
    (∀ p raw out, s.nextIs (engineId 6 die unit) 7 (fun b => s.ld 1 b == 1) = true → profileOf j.profile = some p →
      u.load j.src j.raw = .ok raw → out = codecEncode p 0xFFFFF raw →
      (out.form.length ≤ j.limit → Sound u → InOne j.src out.raw.length → InOne j.dst out.form.length → InOne j.status 16 →
        Apart j.src out.raw.length j.dst out.form.length → Apart j.src out.raw.length j.status 16 →
        Apart j.dst out.form.length j.status 16 → Completes (.encode die unit) s (fun t =>
          Retired (engineId 6 die unit) t ∧ t.peek j.src out.raw.length = out.raw ∧
          t.peek j.dst out.form.length = out.form ∧ t.ld 4 j.status = out.form.length ∧
          t.ld 4 (j.status + 4) = raw.length)) ∧
      (j.limit < out.form.length → Completes (.encode die unit) s (Faulted (engineId 6 die unit) 4))) ∧
    (s.nextIs (engineId 6 die unit) 7 (fun b => s.ld 1 b == 1) = true → profileOf j.profile = none →
      Completes (.encode die unit) s (fun t => Faulted (engineId 6 die unit) 1 t ∧ (Still u → SameMem u t))) ∧
    (∀ head form stored, s.nextIs (engineId 6 die unit) 7 (fun b => s.ld 1 b == 2) = true → u.load j.src 64 = .ok head →
      stored = fieldAt head 0x1C 4 → u.load j.src (if stored < 64 then 64 else stored) = .ok form →
      fieldAt head 0x18 4 ≤ j.limit → formHead head = true →
      (∀ raw, codecDecode none form = some raw → Sound u → InOne j.dst raw.length → InOne j.status 16 →
        Apart j.dst raw.length j.status 16 → Completes (.decode die unit) s (fun t => Retired (engineId 6 die unit) t ∧
          t.peek j.dst raw.length = raw ∧ t.ld 4 j.status = stored)) ∧
      (codecDecode none form = none → Completes (.decode die unit) s (fun t => Faulted (engineId 6 die unit) 1 t ∧
        (Still u → SameMem u t)))) ∧
    (∀ head, s.nextIs (engineId 6 die unit) 7 (fun b => s.ld 1 b == 2) = true → u.load j.src 64 = .ok head →
      formHead head = false ∨ j.limit < fieldAt head 0x18 4 →
      Completes (.decode die unit) s (fun t => Faulted (engineId 6 die unit) 1 t ∧ (Still u → SameMem u t)))

/-! ## What no command of a kind changes -/

namespace Sys2Proof.Machine

/-- The commands of the engines, of the cores, of the Yo-yos, of the links and of the host's rings and registers: those that
act on nothing of the module's configuration. -/
def Instr.ofDataPath : Instr → Bool
  | .windowEnd .. | .packetComplete .. | .matrixSequence .. | .tileClaim .. | .itemBegin .. | .loadA .. | .loadB .. |
    .loadWritten .. | .mma .. | .repeatN .. | .tileExchange .. | .tbufLoadStart .. | .arbitrationPoint .. |
    .rampStepEnd .. | .feederHoldEnd .. | .rampTokenGrant .. | .rampTokenReturn .. | .tileDrain .. |
    .drainStallResume .. | .attentionForward .. | .attentionBackward .. | .kvAppend .. | .kvRegionLock .. |
    .kvEvict .. | .convForward .. | .convInputGradient .. | .convWeightGradient .. | .input .. | .weight .. |
    .output .. | .copy .. | .gather .. | .s2d .. | .d2s .. | .padFold .. | .poolMax .. | .poolAvg .. | .poolMaxBwd .. |
    .poolAvgBwd .. | .vectorProgram .. | .fma .. | .add .. | .mul .. | .max .. | .min .. | .func .. | .vectorAct .. |
    .cmp .. | .sel .. | .red .. | .bcast .. | .ld .. | .st .. | .ldb .. | .stb .. | .stacc .. | .rng .. | .xadd .. |
    .xshl .. | .xld .. | .loopOp .. | .programEnd .. | .chol .. | .trinv .. | .grainTap .. | .storeBegin .. |
    .codecDispatch .. | .poolRequest .. | .storeComplete .. | .restoreTick .. | .restoreBegin .. |
    .restoreComplete .. | .restoreFailure .. | .dueTickRelease .. | .replayStart .. | .replayEnd .. | .adopt .. |
    .restore .. | .release .. | .demote .. | .hold .. | .unhold .. | .encode .. | .decode .. | .yoyoCtrlSnap .. |
    .bushelSend | .parameterBroadcast | .mirrorSend | .update .. | .bushelOpen .. | .segment .. | .rauAdd .. |
    .endPacket .. | .result .. | .verdictRecord .. | .bushelDeadline .. | .resultTick .. | .bushelClose .. |
    .mirror .. | .landingCopyEnd | .landingBoundaryCheck | .promoteNotice .. | .stagingBegin | .stagingEnd .. |
    .generationCommit | .flashFailure .. | .exportStaging .. | .exportPacket .. | .idle .. | .linkInit .. |
    .egressSelect .. | .retryTimeout .. | .laneFault .. | .trainingEnd .. | .retrainEnd .. | .portRetryTimer .. |
    .commandPoll .. | .lockWaitTimeout .. | .hostCompletion .. | .completionTimeout .. | .bar2Read .. | .bar2Write .. |
    .bar0BadAccess .. | .pmStateChange .. | .kvCreate .. | .kvDestroy .. | .yoyoTableSet .. | .poolAdd .. |
    .poolRemove .. | .poolList .. | .ownerMapRead .. | .ruleRead .. | .snapCfg .. | .snapNow .. | .snapExport .. |
    .exportWindowOpen .. | .exportWindowClose .. | .genList .. | .telRingSet .. | .telSelect .. | .telAlarmClear .. |
    .coreFence .. | .fenceBegin .. | .coreUnfence .. | .laneRecal .. | .flashRetire .. | .cfgArm .. | .cfgValidate .. |
    .auditRead .. | .pwrCap .. | .pwrRange .. | .clkSource .. | .ringEnable .. | .ringDisable .. | .readIndexWrite .. |
    .srcSelWrite .. | .registerWrite .. | .lowHalfRead .. | .highHalfRead .. | .lowHalfWrite .. | .highHalfWrite .. |
    .engineReset | .inputSag | .inputSurge | .inputLow .. | .coolantCondition .. | .installNEdge .. |
    .presenceButton .. | .presenceWindowEnd | .telemetryRecord | .shedLevelFall | .summary .. => true
  | _ => false

/-- The commands that store nothing in device memory. -/
def Instr.storesNothing : Instr → Bool
  | .loadWritten .. | .repeatN .. | .arbitrationPoint .. | .rampStepEnd .. | .feederHoldEnd .. | .rampTokenGrant .. |
    .rampTokenReturn .. | .kvRegionLock .. | .fma .. | .add .. | .mul .. | .max .. | .min .. | .func .. |
    .vectorAct .. | .cmp .. | .sel .. | .red .. | .bcast .. | .rng .. | .xadd .. | .xshl .. | .loopOp .. |
    .programEnd .. | .poolRequest .. | .yoyoCtrlSnap .. | .verdictForm .. | .stagingBegin | .generationCommit |
    .flashFailure .. | .idle .. | .linkInit .. | .egressSelect .. | .retryTimeout .. | .laneFault .. |
    .trainingEnd .. | .retrainEnd .. | .portRetryTimer .. | .lockWaitTimeout .. | .bar2Read .. | .bar0BadAccess .. |
    .pmStateChange .. | .doeObject .. | .doeAbort | .getVersion | .getCapabilities | .negotiateAlgorithms |
    .getDigests | .getCertificate | .challenge | .getMeasurements | .keyExchange | .finish | .heartbeat | .keyUpdate |
    .endSession | .planBind .. | .planUnbind .. | .planCancel .. | .kvTableSet .. | .kvDestroy .. | .tickCfg .. |
    .yoyoTableSet .. | .poolAdd .. | .poolRemove .. | .jobTableSet .. | .ruleWrite .. | .ruleCopy .. | .snapCfg .. |
    .snapNow .. | .snapExport .. | .exportWindowOpen .. | .exportWindowClose .. | .mirrorPromote .. | .telRingSet .. |
    .telSelect .. | .coreFence .. | .fenceBegin .. | .coreUnfence .. | .coreSpareRow .. | .coreSubstitute .. |
    .coreTest .. | .laneRecal .. | .pllRelock .. | .relockEnd .. | .rowRepair .. | .flashRetire .. | .fwStage .. |
    .fwActivate .. | .cfgArm .. | .cfgDisarm .. | .cfgCopy .. | .cfgValidate .. | .roleCfg .. | .pwrCap .. |
    .pwrRange .. | .clkSource .. | .ringEnable .. | .ringDisable .. | .readIndexWrite .. | .srcSelWrite .. |
    .registerWrite .. | .lowHalfRead .. | .highHalfRead .. | .lowHalfWrite .. | .highHalfWrite .. | .dieResetEnd .. |
    .perstN .. | .inputSag | .inputLoss | .inputSurge | .overvoltage .. | .inputLow .. | .holdup | .holdupFlashStop |
    .journalTail | .holdupDone | .xbLost | .installNEdge .. | .presenceButton .. | .presenceWindowEnd |
    .i3cOffsetWrite .. | .i3cRegisterRead | .setdasa .. | .entdaa .. | .converterStop | .configurationRequest .. |
    .pcieLinkTrained .. => true
  | _ => false

end Sys2Proof.Machine

/-- No command of the data path changes the tick, the bindings, the rules, the clocks, the power and hold-up state, the
firmware, the sessions, the endpoint's state, or which die is in reset; and no command that stores nothing in device memory
changes a byte of it, or which of its words are in error. -/
def Obligations.DataPathConfined : Prop :=
  ∀ (c : Instr) (s t : State), exec c s = .next t →
    (Instr.ofDataPath c = true → t.tick = s.tick ∧ t.binding = s.binding ∧ t.kvTable = s.kvTable ∧ t.verdict = s.verdict ∧
      t.upd = s.upd ∧ t.rules = s.rules ∧ t.clk = s.clk ∧ t.mon = s.mon ∧ t.halt = s.halt ∧ t.inst = s.inst ∧ t.fw = s.fw ∧
      t.spdm = s.spdm ∧ t.i3c = s.i3c ∧ t.pcie = s.pcie ∧ t.maint = s.maint ∧ t.dieReset = s.dieReset ∧
      t.stackFail = s.stackFail ∧ t.budget = s.budget ∧ t.nvm = s.nvm) ∧
    (Instr.storesNothing c = true → t.mem = s.mem ∧ t.badWords = s.badWords)

/-! ## Invariants that every step keeps -/

/-- R383, R393, R435: every step keeps the budget's identities: each die holds from 1 to 8 tokens, and the tokens withdrawn
less those returned are the free ones. -/
def Sys2Proof.Machine.Says.BudgetKept : Prop := ∀ s t : State, Budget.ok s.budget → step s = .next t → Budget.ok t.budget

/-- The invariants of this file hold right after reset. -/
def Obligations.InvariantsAtReset : Prop := Budget.ok State.reset.budget ∧ TickOk State.reset

/-- R405, R409: what is one-time stays so. No step unburns the seal fuse, lowers the minimum security version, or takes
the root slot back; the commands that a lock grant releases are not said here. -/
def Sys2Proof.Machine.Says.OneTimeMemory : Prop :=
  ∀ (c : Instr) (s t : State), exec c s = .next t → (∀ waited dead, c ≠ .lockGrant waited dead) →
    (s.nvm.sealFuse = true → t.nvm.sealFuse = true) ∧ s.nvm.svn ≤ t.nvm.svn ∧ s.nvm.rootSlot ≤ t.nvm.rootSlot

/-! ## Statements that say several of these together -/

/-- R299, R381, R387 to R390: events of the input, the hold-up sequence, and events of the rails and of heat. -/
def Obligations.PowerEvents : Prop := Says.InputEventsReported ∧ Says.HoldupSequence ∧ Says.RailsAndHeat

/-- R394, R399 to R401: resets of the module, of a die and of an engine. -/
def Obligations.Resets : Prop := Says.ModuleResetsRestart ∧ Says.DieResets ∧ Says.EngineResets

/-- R369, R375 to R379: references that are lost, and re-locks that end. -/
def Obligations.ClockReferences : Prop := Says.ReferencesLost ∧ Says.RelockEnds

/-- R383, R384, R387: what moves the budget tokens, and what does not. -/
def Obligations.BudgetMarks : Prop := Says.CapUnreachable ∧ Says.BudgetMarkMovesTokens

/-- R402, R405, R414, R453: presence and the seal, and the I3C target. -/
def Obligations.InstallerAndI3c : Prop := Says.PresenceEvents ∧ Says.I3cTarget

/-- R13, R319 to R325, R397: the endpoint, its configuration space, and accesses of BAR0 by halves or of a wrong form. -/
def Obligations.EndpointAccesses : Prop := Says.EndpointLink ∧ Says.ConfigurationRequests ∧ Says.HalfAccesses ∧ Says.Bar0BadAccess

/-- R326: reads and writes of device memory through BAR2. -/
def Obligations.Bar2Accesses : Prop := Says.Bar2Reads ∧ Says.Bar2Writes ∧ Says.Bar2KeepsMemoryForm

/-- R327, R411, R412: data objects, the SPDM connection, and its sessions. -/
def Obligations.SpdmOverDoe : Prop := Says.DoeObjects ∧ Says.SpdmConnection ∧ Says.SpdmSessions

/-- R11, R402, R440, R441: a register write applies, or is ignored and counted. -/
def Obligations.RegisterWrites : Prop := Says.RegisterWriteApplies ∧ Says.RegisterWriteIgnored

/-- R328, R329, R418, R430: the registers of the command rings and of the collector, and how rings fetch. -/
def Obligations.RingsAndCollectorRegisters : Prop := Says.RingEnabling ∧ Says.CollectorRegisters ∧ Says.RingsFetch

/-- R418, R422, R424 to R426: the collector selects, places, holds back and sheds records. -/
def Obligations.Collector : Prop := Says.CollectorPlacesRecords ∧ Says.SheddingEnds ∧ Says.SelectionGatesEmission

/-- R25 to R33: the tick generator takes ordered-sets, times ports out, and counts its edges. -/
def Obligations.TickKeeping : Prop := Says.OrderedSetsAccepted ∧ Says.TickPortsTimeOut ∧ Says.TickEdges

/-- R303 to R310: the states of a port, and how a link comes up. -/
def Obligations.FabricLinks : Prop := Says.PortStates ∧ Says.LinksComeUp

/-- R250, R256 to R260: what arrives for a bushel, and how a RAU adds it. -/
def Obligations.ReductionsAdd : Prop := Says.ReductionPackets ∧ Says.EndPackets ∧ Says.RauAdds

/-- R288, R292, R298: mirror segments, promote notices and export packets that arrive, and the copy of a landing. -/
def Obligations.OtherArrivals : Prop := Says.OtherPackets ∧ Says.LandingsCopied

/-- R266, R267, R269: the verdict of a step is formed once, and resolved once. -/
def Obligations.Verdicts : Prop := Says.VerdictsFormed ∧ Says.VerdictsResolved

/-- R252, R263, R271, R287, R290: update packets, and the packets of the hub transfer engine. -/
def Obligations.HubPackets : Prop := Says.UpdatePackets ∧ Says.SendsRetire

/-- R291 to R298, R302: landings and promotion, generations, and exports. -/
def Obligations.SnapshotsTaken : Prop := Says.LandingsAndPromotion ∧ Says.GenerationsHeld ∧ Says.ExportsShip

/-- R343, R359, R362, R363: an armed unbinding, and armed swaps. -/
def Obligations.SwapsAndUnbinding : Prop := Says.UnbindingTakesEffect ∧ Says.SwapsTakeEffect

/-- R330 to R335: how a command runs and completes, and how its lock passes on. -/
def Obligations.CommandFlow : Prop := Says.CommandProtocol ∧ Says.LocksPassOn

/-- R342, R343, R158, R159: the commands of plans and of KV regions. -/
def Obligations.PlanAndKvCommands : Prop := Says.PlanCommands ∧ Says.KvCommands

/-- R200, R249, R273, R418: the commands of the host pool, the job table, the rules and telemetry. -/
def Obligations.TableCommands : Prop := Says.PoolAndJobCommands ∧ Says.RuleAndTelemetryCommands

/-- R366 to R368: the commands of cores, and the fence that begins at a boundary. -/
def Obligations.CoresMaintained : Prop := Says.CoreCommands ∧ Says.FencesBegin

/-- R37, R38, R207: how a packet leaves its engine, and what its window does. -/
def Obligations.PacketsEnd : Prop := Says.PacketsComplete ∧ Says.WindowsEnd

/-- R89 to R94, R103 to R108: matrix sequences, claims, and items. -/
def Obligations.ItemsTaken : Prop := Says.MatrixSequencesStart ∧ Says.TileClaims ∧ Says.ItemsBegin

/-- R97, R98, R129 to R134, R462: operand loads are issued, and land. -/
def Obligations.LoadsOfOperands : Prop := Says.LoadsIssue ∧ Says.LoadsLand

/-- R97, R101, R139, R140: tiles take register sets, and are fed. -/
def Obligations.TilesInSets : Prop := Says.TilesExchanged ∧ Says.TilesFed

/-- R79 to R82, R140: the feeder of a core, and the ramp tokens of a die. -/
def Obligations.FeederAndTokens : Prop := Says.FeederRamps ∧ Says.RampTokensMove

/-- R147, R148, R156, R164: attention packets and their items. -/
def Obligations.AttentionPackets : Prop := Says.AttentionStarts ∧ Says.AttentionItems

/-- R183 to R187: transfers of the movers. -/
def Obligations.Transfers : Prop := Says.TransfersRun ∧ Says.RowsCopied

/-- R160, R162, R164: appends to KV regions, their locks, and eviction. -/
def Obligations.KvRegions : Prop := Says.KvAppends ∧ Says.KvEvicts

/-- R233, R234, R236, R241: the vector instructions over lanes. -/
def Obligations.LaneInstructions : Prop := Says.LaneArithmetic ∧ Says.LaneSelection

/-- R204, R233, R234, R245: the loads and stores of vector programs. -/
def Obligations.VectorMemory : Prop := Says.VectorLoads ∧ Says.VectorStores

/-- R194, R197 to R200: taps fill grains, and grains are stored. -/
def Obligations.GrainsStored : Prop := Says.TapsJudged ∧ Says.StoresGo

/-- R215, R226, R227, R229: the codec engines serve transfers, and jobs. -/
def Obligations.Codec : Prop := Says.CodecEngines ∧ Says.CodecJobs

/-- R194, R199, R201, R206: restores begin, and end. -/
def Obligations.GrainsRestored : Prop := Says.RestoresBegin ∧ Says.RestoresEnd

/-- R204 to R206, R208, R209: replays, and residency directives. -/
def Obligations.ReplaysAndDirectives : Prop := Says.ReplaysRun ∧ Says.DirectivesApply

/-- R383, R393, R405, R409: the budget and the one-time memory, through every step. -/
def Obligations.InvariantsKept : Prop := Says.BudgetKept ∧ Says.OneTimeMemory
end

