-- ==== Sys2Proof/Laws/Dispatch.lean ====
section
/-!
SUPPORT. Laws/Dispatch.lean: what each command executes, so that no proof unfolds the dispatch.
-/

namespace Sys2Proof.Machine

@[simp] theorem exec_tickEdge (s : State) : exec .tickEdge s = execTickEdge s := rfl
@[simp] theorem exec_tickOrderedSet (port : Nat) (block : List Byte) (at_ : Nat) (s : State) : exec (.tickOrderedSet port block at_) s = execTickOrderedSet port block at_ s := rfl
@[simp] theorem exec_tickPortTimeout (port : Nat) (at_ : Nat) (s : State) : exec (.tickPortTimeout port at_) s = execTickPortTimeout port at_ s := rfl
@[simp] theorem exec_windowEnd (e : Timed) (s : State) : exec (.windowEnd e) s = execWindowEnd e s := rfl
@[simp] theorem exec_packetComplete (e : Nat) (cycles : Nat) (s : State) : exec (.packetComplete e cycles) s = execPacketComplete e cycles s := rfl
@[simp] theorem exec_matrixSequence (die : Nat) (c : Nat) (st : Nat) (s : State) : exec (.matrixSequence die c st) s = execMatrixSequence die c st s := rfl
@[simp] theorem exec_tileClaim (die : Nat) (c : Nat) (st : Nat) (s : State) : exec (.tileClaim die c st) s = execTileClaim die c st s := rfl
@[simp] theorem exec_itemBegin (die : Nat) (c : Nat) (st : Nat) (s : State) : exec (.itemBegin die c st) s = execItemBegin die c st s := rfl
@[simp] theorem exec_loadA (die : Nat) (c : Nat) (st : Nat) (s : State) : exec (.loadA die c st) s = execLoadA die c st s := rfl
@[simp] theorem exec_loadB (die : Nat) (c : Nat) (st : Nat) (s : State) : exec (.loadB die c st) s = execLoadB die c st s := rfl
@[simp] theorem exec_loadWritten (die : Nat) (c : Nat) (st : Nat) (tb : Bool) (cycles : Nat) (s : State) : exec (.loadWritten die c st tb cycles) s = execLoadWritten die c st tb cycles s := rfl
@[simp] theorem exec_mma (die : Nat) (c : Nat) (st : Nat) (waited : Nat) (s : State) : exec (.mma die c st waited) s = execMma die c st waited s := rfl
@[simp] theorem exec_repeatN (die : Nat) (c : Nat) (st : Nat) (s : State) : exec (.repeatN die c st) s = execRepeatN die c st s := rfl
@[simp] theorem exec_tileExchange (die : Nat) (c : Nat) (st : Nat) (stall : Nat) (s : State) : exec (.tileExchange die c st stall) s = execTileExchange die c st stall s := rfl
@[simp] theorem exec_tbufLoadStart (die : Nat) (c : Nat) (s : State) : exec (.tbufLoadStart die c) s = execTbufLoadStart die c s := rfl
@[simp] theorem exec_arbitrationPoint (die : Nat) (c : Nat) (at_ : Nat) (s : State) : exec (.arbitrationPoint die c at_) s = execArbitrationPoint die c at_ s := rfl
@[simp] theorem exec_rampStepEnd (die : Nat) (c : Nat) (s : State) : exec (.rampStepEnd die c) s = execRampStepEnd die c s := rfl
@[simp] theorem exec_feederHoldEnd (die : Nat) (c : Nat) (s : State) : exec (.feederHoldEnd die c) s = execFeederHoldEnd die c s := rfl
@[simp] theorem exec_rampTokenGrant (die : Nat) (at_ : Nat) (s : State) : exec (.rampTokenGrant die at_) s = execRampTokenGrant die at_ s := rfl
@[simp] theorem exec_rampTokenReturn (die : Nat) (c : Nat) (at_ : Nat) (s : State) : exec (.rampTokenReturn die c at_) s = execRampTokenReturn die c at_ s := rfl
@[simp] theorem exec_tileDrain (die : Nat) (c : Nat) (late : Bool) (s : State) : exec (.tileDrain die c late) s = execTileDrain die c late s := rfl
@[simp] theorem exec_drainStallResume (die : Nat) (c : Nat) (cycles : Nat) (s : State) : exec (.drainStallResume die c cycles) s = execDrainStallResume die c cycles s := rfl
@[simp] theorem exec_attentionForward (die : Nat) (c : Nat) (st : Nat) (s : State) : exec (.attentionForward die c st) s = execAttentionForward die c st s := rfl
@[simp] theorem exec_attentionBackward (die : Nat) (c : Nat) (st : Nat) (s : State) : exec (.attentionBackward die c st) s = execAttentionBackward die c st s := rfl
@[simp] theorem exec_kvAppend (die : Nat) (unit : Nat) (s : State) : exec (.kvAppend die unit) s = execKvAppend die unit s := rfl
@[simp] theorem exec_kvRegionLock (region : Nat) (cycles : Nat) (s : State) : exec (.kvRegionLock region cycles) s = execKvRegionLock region cycles s := rfl
@[simp] theorem exec_kvEvict (die : Nat) (unit : Nat) (cycles : Nat) (s : State) : exec (.kvEvict die unit cycles) s = execKvEvict die unit cycles s := rfl
@[simp] theorem exec_convForward (die : Nat) (c : Nat) (st : Nat) (s : State) : exec (.convForward die c st) s = execConvForward die c st s := rfl
@[simp] theorem exec_convInputGradient (die : Nat) (c : Nat) (st : Nat) (s : State) : exec (.convInputGradient die c st) s = execConvInputGradient die c st s := rfl
@[simp] theorem exec_convWeightGradient (die : Nat) (c : Nat) (st : Nat) (s : State) : exec (.convWeightGradient die c st) s = execConvWeightGradient die c st s := rfl
@[simp] theorem exec_input (die : Nat) (unit : Nat) (s : State) : exec (.input die unit) s = execInput die unit s := rfl
@[simp] theorem exec_weight (die : Nat) (unit : Nat) (s : State) : exec (.weight die unit) s = execWeight die unit s := rfl
@[simp] theorem exec_output (die : Nat) (unit : Nat) (s : State) : exec (.output die unit) s = execOutput die unit s := rfl
@[simp] theorem exec_copy (die : Nat) (unit : Nat) (s : State) : exec (.copy die unit) s = execCopy die unit s := rfl
@[simp] theorem exec_gather (die : Nat) (unit : Nat) (s : State) : exec (.gather die unit) s = execGather die unit s := rfl
@[simp] theorem exec_s2d (die : Nat) (unit : Nat) (s : State) : exec (.s2d die unit) s = execS2d die unit s := rfl
@[simp] theorem exec_d2s (die : Nat) (unit : Nat) (s : State) : exec (.d2s die unit) s = execD2s die unit s := rfl
@[simp] theorem exec_padFold (die : Nat) (unit : Nat) (s : State) : exec (.padFold die unit) s = execPadFold die unit s := rfl
@[simp] theorem exec_poolMax (die : Nat) (unit : Nat) (s : State) : exec (.poolMax die unit) s = execPoolMax die unit s := rfl
@[simp] theorem exec_poolAvg (die : Nat) (unit : Nat) (s : State) : exec (.poolAvg die unit) s = execPoolAvg die unit s := rfl
@[simp] theorem exec_poolMaxBwd (die : Nat) (unit : Nat) (s : State) : exec (.poolMaxBwd die unit) s = execPoolMaxBwd die unit s := rfl
@[simp] theorem exec_poolAvgBwd (die : Nat) (unit : Nat) (s : State) : exec (.poolAvgBwd die unit) s = execPoolAvgBwd die unit s := rfl
@[simp] theorem exec_vectorProgram (die : Nat) (idx : Nat) (s : State) : exec (.vectorProgram die idx) s = execVectorProgram die idx s := rfl
@[simp] theorem exec_fma (die : Nat) (idx : Nat) (s : State) : exec (.fma die idx) s = execFma die idx s := rfl
@[simp] theorem exec_add (die : Nat) (idx : Nat) (s : State) : exec (.add die idx) s = execAdd die idx s := rfl
@[simp] theorem exec_mul (die : Nat) (idx : Nat) (s : State) : exec (.mul die idx) s = execMul die idx s := rfl
@[simp] theorem exec_max (die : Nat) (idx : Nat) (s : State) : exec (.max die idx) s = execMax die idx s := rfl
@[simp] theorem exec_min (die : Nat) (idx : Nat) (s : State) : exec (.min die idx) s = execMin die idx s := rfl
@[simp] theorem exec_func (die : Nat) (idx : Nat) (s : State) : exec (.func die idx) s = execFunc die idx s := rfl
@[simp] theorem exec_vectorAct (die : Nat) (idx : Nat) (s : State) : exec (.vectorAct die idx) s = execVectorAct die idx s := rfl
@[simp] theorem exec_cmp (die : Nat) (idx : Nat) (s : State) : exec (.cmp die idx) s = execCmp die idx s := rfl
@[simp] theorem exec_sel (die : Nat) (idx : Nat) (s : State) : exec (.sel die idx) s = execSel die idx s := rfl
@[simp] theorem exec_red (die : Nat) (idx : Nat) (s : State) : exec (.red die idx) s = execRed die idx s := rfl
@[simp] theorem exec_bcast (die : Nat) (idx : Nat) (s : State) : exec (.bcast die idx) s = execBcast die idx s := rfl
@[simp] theorem exec_ld (die : Nat) (idx : Nat) (s : State) : exec (.ld die idx) s = execLd die idx s := rfl
@[simp] theorem exec_st (die : Nat) (idx : Nat) (s : State) : exec (.st die idx) s = execSt die idx s := rfl
@[simp] theorem exec_ldb (die : Nat) (idx : Nat) (s : State) : exec (.ldb die idx) s = execLdb die idx s := rfl
@[simp] theorem exec_stb (die : Nat) (idx : Nat) (s : State) : exec (.stb die idx) s = execStb die idx s := rfl
@[simp] theorem exec_stacc (die : Nat) (idx : Nat) (s : State) : exec (.stacc die idx) s = execStacc die idx s := rfl
@[simp] theorem exec_rng (die : Nat) (idx : Nat) (s : State) : exec (.rng die idx) s = execRng die idx s := rfl
@[simp] theorem exec_xadd (die : Nat) (idx : Nat) (s : State) : exec (.xadd die idx) s = execXadd die idx s := rfl
@[simp] theorem exec_xshl (die : Nat) (idx : Nat) (s : State) : exec (.xshl die idx) s = execXshl die idx s := rfl
@[simp] theorem exec_xld (die : Nat) (idx : Nat) (s : State) : exec (.xld die idx) s = execXld die idx s := rfl
@[simp] theorem exec_loopOp (die : Nat) (idx : Nat) (s : State) : exec (.loopOp die idx) s = execLoop die idx s := rfl
@[simp] theorem exec_programEnd (die : Nat) (idx : Nat) (s : State) : exec (.programEnd die idx) s = execProgramEnd die idx s := rfl
@[simp] theorem exec_chol (die : Nat) (idx : Nat) (s : State) : exec (.chol die idx) s = execChol die idx s := rfl
@[simp] theorem exec_trinv (die : Nat) (idx : Nat) (s : State) : exec (.trinv die idx) s = execTrinv die idx s := rfl
@[simp] theorem exec_grainTap (die : Timed) (s : State) : exec (.grainTap die) s = execGrainTap die s := rfl
@[simp] theorem exec_storeBegin (die : Nat) (s : State) : exec (.storeBegin die) s = execStoreBegin die s := rfl
@[simp] theorem exec_codecDispatch (die : Nat) (s : State) : exec (.codecDispatch die) s = execCodecDispatch die s := rfl
@[simp] theorem exec_poolRequest (die : Nat) (at_ : Nat) (s : State) : exec (.poolRequest die at_) s = execPoolRequest die at_ s := rfl
@[simp] theorem exec_storeComplete (g : Nat) (s : State) : exec (.storeComplete g) s = execStoreComplete g s := rfl
@[simp] theorem exec_restoreTick (die : Nat) (s : State) : exec (.restoreTick die) s = execRestoreTick die s := rfl
@[simp] theorem exec_restoreBegin (die : Nat) (s : State) : exec (.restoreBegin die) s = execRestoreBegin die s := rfl
@[simp] theorem exec_restoreComplete (g : Nat) (waited : Nat) (s : State) : exec (.restoreComplete g waited) s = execRestoreComplete g waited s := rfl
@[simp] theorem exec_restoreFailure (g : Nat) (waited : Nat) (s : State) : exec (.restoreFailure g waited) s = execRestoreFailure g waited s := rfl
@[simp] theorem exec_dueTickRelease (g : Nat) (s : State) : exec (.dueTickRelease g) s = execDueTickRelease g s := rfl
@[simp] theorem exec_replayStart (die : Nat) (c : Timed) (s : State) : exec (.replayStart die c) s = execReplayStart die c s := rfl
@[simp] theorem exec_replayEnd (die : Nat) (c : Nat) (waited : Nat) (s : State) : exec (.replayEnd die c waited) s = execReplayEnd die c waited s := rfl
@[simp] theorem exec_adopt (die : Timed) (s : State) : exec (.adopt die) s = execAdopt die s := rfl
@[simp] theorem exec_restore (die : Nat) (s : State) : exec (.restore die) s = execRestore die s := rfl
@[simp] theorem exec_release (die : Nat) (s : State) : exec (.release die) s = execRelease die s := rfl
@[simp] theorem exec_demote (die : Nat) (s : State) : exec (.demote die) s = execDemote die s := rfl
@[simp] theorem exec_hold (die : Nat) (s : State) : exec (.hold die) s = execHold die s := rfl
@[simp] theorem exec_unhold (die : Nat) (s : State) : exec (.unhold die) s = execUnhold die s := rfl
@[simp] theorem exec_encode (die : Nat) (unit : Nat) (s : State) : exec (.encode die unit) s = execEncode die unit s := rfl
@[simp] theorem exec_decode (die : Nat) (unit : Nat) (s : State) : exec (.decode die unit) s = execDecode die unit s := rfl
@[simp] theorem exec_yoyoCtrlSnap (die : Nat) (bar : Bool) (s : State) : exec (.yoyoCtrlSnap die bar) s = execYoyoCtrlSnap die bar s := rfl
@[simp] theorem exec_bushelSend (s : State) : exec .bushelSend s = execBushelSend s := rfl
@[simp] theorem exec_parameterBroadcast (s : State) : exec .parameterBroadcast s = execParameterBroadcast s := rfl
@[simp] theorem exec_mirrorSend (s : State) : exec .mirrorSend s = execMirrorSend s := rfl
@[simp] theorem exec_update (die : Nat) (idx : Nat) (s : State) : exec (.update die idx) s = execUpdate die idx s := rfl
@[simp] theorem exec_bushelOpen (entry : Nat) (s : State) : exec (.bushelOpen entry) s = execBushelOpen entry s := rfl
@[simp] theorem exec_segment (port : Nat) (pkt : List Byte) (fec : Fec) (s : State) : exec (.segment port pkt fec) s = execSegment port pkt fec s := rfl
@[simp] theorem exec_rauAdd (stack : Nat) (pc : Nat) (s : State) : exec (.rauAdd stack pc) s = execRauAdd stack pc s := rfl
@[simp] theorem exec_endPacket (port : Nat) (pkt : List Byte) (fec : Fec) (s : State) : exec (.endPacket port pkt fec) s = execEndPacket port pkt fec s := rfl
@[simp] theorem exec_result (port : Nat) (pkt : List Byte) (fec : Fec) (s : State) : exec (.result port pkt fec) s = execResult port pkt fec s := rfl
@[simp] theorem exec_verdictRecord (port : Nat) (pkt : List Byte) (fec : Fec) (s : State) : exec (.verdictRecord port pkt fec) s = execVerdictRecord port pkt fec s := rfl
@[simp] theorem exec_bushelDeadline (entry : Nat) (s : State) : exec (.bushelDeadline entry) s = execBushelDeadline entry s := rfl
@[simp] theorem exec_resultTick (entry : Nat) (s : State) : exec (.resultTick entry) s = execResultTick entry s := rfl
@[simp] theorem exec_bushelClose (entry : Nat) (receive : Bool) (s : State) : exec (.bushelClose entry receive) s = execBushelClose entry receive s := rfl
@[simp] theorem exec_verdictForm (entry : Nat) (s : State) : exec (.verdictForm entry) s = execVerdictForm entry s := rfl
@[simp] theorem exec_verdictResolution (entry : Nat) (s : State) : exec (.verdictResolution entry) s = execVerdictResolution entry s := rfl
@[simp] theorem exec_mirror (port : Nat) (pkt : List Byte) (fec : Fec) (s : State) : exec (.mirror port pkt fec) s = execMirror port pkt fec s := rfl
@[simp] theorem exec_landingCopyEnd (s : State) : exec .landingCopyEnd s = execLandingCopyEnd s := rfl
@[simp] theorem exec_landingBoundaryCheck (s : State) : exec .landingBoundaryCheck s = execLandingBoundaryCheck s := rfl
@[simp] theorem exec_promotion (s : State) : exec .promotion s = execPromotion s := rfl
@[simp] theorem exec_promoteNotice (port : Nat) (pkt : List Byte) (fec : Fec) (s : State) : exec (.promoteNotice port pkt fec) s = execPromoteNotice port pkt fec s := rfl
@[simp] theorem exec_stagingBegin (s : State) : exec .stagingBegin s = execStagingBegin s := rfl
@[simp] theorem exec_stagingEnd (heldCycles : Nat) (s : State) : exec (.stagingEnd heldCycles) s = execStagingEnd heldCycles s := rfl
@[simp] theorem exec_generationCommit (s : State) : exec .generationCommit s = execGenerationCommit s := rfl
@[simp] theorem exec_flashFailure (block : Nat) (s : State) : exec (.flashFailure block) s = execFlashFailure block s := rfl
@[simp] theorem exec_exportStaging (heldCycles : Nat) (s : State) : exec (.exportStaging heldCycles) s = execExportStaging heldCycles s := rfl
@[simp] theorem exec_exportPacket (port : Nat) (pkt : List Byte) (fec : Fec) (s : State) : exec (.exportPacket port pkt fec) s = execExportPacket port pkt fec s := rfl
@[simp] theorem exec_idle (port : Nat) (pkt : List Byte) (fec : Fec) (s : State) : exec (.idle port pkt fec) s = execIdle port pkt fec s := rfl
@[simp] theorem exec_linkInit (port : Nat) (block : List Byte) (s : State) : exec (.linkInit port block) s = execLinkInit port block s := rfl
@[simp] theorem exec_egressSelect (port : Nat) (waited : Nat) (s : State) : exec (.egressSelect port waited) s = execEgressSelect port waited s := rfl
@[simp] theorem exec_retryTimeout (port : Nat) (s : State) : exec (.retryTimeout port) s = execRetryTimeout port s := rfl
@[simp] theorem exec_laneFault (port : Nat) (lane : Nat) (s : State) : exec (.laneFault port lane) s = execLaneFault port lane s := rfl
@[simp] theorem exec_trainingEnd (port : Nat) (lanes : Nat) (inverted : Nat) (reversed : Bool) (s : State) : exec (.trainingEnd port lanes inverted reversed) s = execTrainingEnd port lanes inverted reversed s := rfl
@[simp] theorem exec_retrainEnd (port : Nat) (lanes : Nat) (s : State) : exec (.retrainEnd port lanes) s = execRetrainEnd port lanes s := rfl
@[simp] theorem exec_portRetryTimer (port : Nat) (s : State) : exec (.portRetryTimer port) s = execPortRetryTimer port s := rfl
@[simp] theorem exec_commandPoll (poll : Poll) (s : State) : exec (.commandPoll poll) s = execCommandPoll poll s := rfl
@[simp] theorem exec_lockGrant (waited : Nat) (dead : Nat) (s : State) : exec (.lockGrant waited dead) s = execLockGrant waited dead s := rfl
@[simp] theorem exec_lockWaitTimeout (r : Nat) (waited : Nat) (s : State) : exec (.lockWaitTimeout r waited) s = execLockWaitTimeout r waited s := rfl
@[simp] theorem exec_hostCompletion (idx : Nat) (error : Bool) (writes : List (Nat × List Byte)) (s : State) : exec (.hostCompletion idx error writes) s = execHostCompletion idx error writes s := rfl
@[simp] theorem exec_completionTimeout (idx : Nat) (s : State) : exec (.completionTimeout idx) s = execCompletionTimeout idx s := rfl
@[simp] theorem exec_bar2Read (off : Nat) (n : Nat) (s : State) : exec (.bar2Read off n) s = execBar2Read off n s := rfl
@[simp] theorem exec_bar2Write (off : Nat) (bs : List Byte) (poisoned : Bool) (s : State) : exec (.bar2Write off bs poisoned) s = execBar2Write off bs poisoned s := rfl
@[simp] theorem exec_bar0BadAccess (how : BadAccess) (bytes : Nat) (s : State) : exec (.bar0BadAccess how bytes) s = execBar0BadAccess how bytes s := rfl
@[simp] theorem exec_pmStateChange (d3hot : Bool) (s : State) : exec (.pmStateChange d3hot) s = execPmStateChange d3hot s := rfl
@[simp] theorem exec_doeObject (type : Nat) (bs : List Byte) (s : State) : exec (.doeObject type bs) s = execDoeObject type bs s := rfl
@[simp] theorem exec_doeAbort (s : State) : exec .doeAbort s = execDoeAbort s := rfl
@[simp] theorem exec_getVersion (s : State) : exec .getVersion s = execGetVersion s := rfl
@[simp] theorem exec_getCapabilities (s : State) : exec .getCapabilities s = execGetCapabilities s := rfl
@[simp] theorem exec_negotiateAlgorithms (s : State) : exec .negotiateAlgorithms s = execNegotiateAlgorithms s := rfl
@[simp] theorem exec_getDigests (s : State) : exec .getDigests s = execGetDigests s := rfl
@[simp] theorem exec_getCertificate (s : State) : exec .getCertificate s = execGetCertificate s := rfl
@[simp] theorem exec_challenge (s : State) : exec .challenge s = execChallenge s := rfl
@[simp] theorem exec_getMeasurements (s : State) : exec .getMeasurements s = execGetMeasurements s := rfl
@[simp] theorem exec_keyExchange (s : State) : exec .keyExchange s = execKeyExchange s := rfl
@[simp] theorem exec_finish (s : State) : exec .finish s = execFinish s := rfl
@[simp] theorem exec_heartbeat (s : State) : exec .heartbeat s = execHeartbeat s := rfl
@[simp] theorem exec_keyUpdate (s : State) : exec .keyUpdate s = execKeyUpdate s := rfl
@[simp] theorem exec_endSession (s : State) : exec .endSession s = execEndSession s := rfl
@[simp] theorem exec_planBind (ring : Nat) (hold : Bool) (s : State) : exec (.planBind ring hold) s = execPlanBind ring hold s := rfl
@[simp] theorem exec_planUnbind (ring : Nat) (hold : Bool) (s : State) : exec (.planUnbind ring hold) s = execPlanUnbind ring hold s := rfl
@[simp] theorem exec_planCancel (ring : Nat) (hold : Bool) (s : State) : exec (.planCancel ring hold) s = execPlanCancel ring hold s := rfl
@[simp] theorem exec_unbindAtBoundary (s : State) : exec .unbindAtBoundary s = execUnbindAtBoundary s := rfl
@[simp] theorem exec_kvTableSet (ring : Nat) (hold : Bool) (s : State) : exec (.kvTableSet ring hold) s = execKvTableSet ring hold s := rfl
@[simp] theorem exec_kvCreate (ring : Nat) (hold : Bool) (s : State) : exec (.kvCreate ring hold) s = execKvCreate ring hold s := rfl
@[simp] theorem exec_kvDestroy (ring : Nat) (hold : Bool) (s : State) : exec (.kvDestroy ring hold) s = execKvDestroy ring hold s := rfl
@[simp] theorem exec_tickCfg (ring : Nat) (hold : Bool) (s : State) : exec (.tickCfg ring hold) s = execTickCfg ring hold s := rfl
@[simp] theorem exec_yoyoTableSet (ring : Nat) (hold : Bool) (s : State) : exec (.yoyoTableSet ring hold) s = execYoyoTableSet ring hold s := rfl
@[simp] theorem exec_poolAdd (ring : Nat) (hold : Bool) (s : State) : exec (.poolAdd ring hold) s = execPoolAdd ring hold s := rfl
@[simp] theorem exec_poolRemove (ring : Nat) (hold : Bool) (s : State) : exec (.poolRemove ring hold) s = execPoolRemove ring hold s := rfl
@[simp] theorem exec_poolList (ring : Nat) (hold : Bool) (s : State) : exec (.poolList ring hold) s = execPoolList ring hold s := rfl
@[simp] theorem exec_jobTableSet (ring : Nat) (hold : Bool) (s : State) : exec (.jobTableSet ring hold) s = execJobTableSet ring hold s := rfl
@[simp] theorem exec_ownerMapRead (ring : Nat) (hold : Bool) (s : State) : exec (.ownerMapRead ring hold) s = execOwnerMapRead ring hold s := rfl
@[simp] theorem exec_ruleWrite (ring : Nat) (hold : Bool) (s : State) : exec (.ruleWrite ring hold) s = execRuleWrite ring hold s := rfl
@[simp] theorem exec_ruleRead (ring : Nat) (hold : Bool) (s : State) : exec (.ruleRead ring hold) s = execRuleRead ring hold s := rfl
@[simp] theorem exec_ruleCopy (ring : Nat) (hold : Bool) (s : State) : exec (.ruleCopy ring hold) s = execRuleCopy ring hold s := rfl
@[simp] theorem exec_snapCfg (ring : Nat) (hold : Bool) (s : State) : exec (.snapCfg ring hold) s = execSnapCfg ring hold s := rfl
@[simp] theorem exec_snapNow (ring : Nat) (hold : Bool) (s : State) : exec (.snapNow ring hold) s = execSnapNow ring hold s := rfl
@[simp] theorem exec_snapRestore (ring : Nat) (hold : Bool) (s : State) : exec (.snapRestore ring hold) s = execSnapRestore ring hold s := rfl
@[simp] theorem exec_snapExport (ring : Nat) (hold : Bool) (s : State) : exec (.snapExport ring hold) s = execSnapExport ring hold s := rfl
@[simp] theorem exec_exportWindowOpen (ring : Nat) (hold : Bool) (s : State) : exec (.exportWindowOpen ring hold) s = execExportWindowOpen ring hold s := rfl
@[simp] theorem exec_exportWindowClose (ring : Nat) (hold : Bool) (s : State) : exec (.exportWindowClose ring hold) s = execExportWindowClose ring hold s := rfl
@[simp] theorem exec_mirrorPromote (ring : Nat) (hold : Bool) (s : State) : exec (.mirrorPromote ring hold) s = execMirrorPromote ring hold s := rfl
@[simp] theorem exec_genList (ring : Nat) (hold : Bool) (s : State) : exec (.genList ring hold) s = execGenList ring hold s := rfl
@[simp] theorem exec_telRingSet (ring : Nat) (hold : Bool) (s : State) : exec (.telRingSet ring hold) s = execTelRingSet ring hold s := rfl
@[simp] theorem exec_telSelect (ring : Nat) (hold : Bool) (s : State) : exec (.telSelect ring hold) s = execTelSelect ring hold s := rfl
@[simp] theorem exec_telAlarmClear (ring : Nat) (hold : Bool) (s : State) : exec (.telAlarmClear ring hold) s = execTelAlarmClear ring hold s := rfl
@[simp] theorem exec_coreFence (ring : Nat) (hold : Bool) (s : State) : exec (.coreFence ring hold) s = execCoreFence ring hold s := rfl
@[simp] theorem exec_fenceBegin (die : Nat) (c : Nat) (s : State) : exec (.fenceBegin die c) s = execFenceBegin die c s := rfl
@[simp] theorem exec_coreUnfence (ring : Nat) (hold : Bool) (s : State) : exec (.coreUnfence ring hold) s = execCoreUnfence ring hold s := rfl
@[simp] theorem exec_coreSpareRow (ring : Nat) (hold : Bool) (s : State) : exec (.coreSpareRow ring hold) s = execCoreSpareRow ring hold s := rfl
@[simp] theorem exec_coreSubstitute (ring : Nat) (hold : Bool) (s : State) : exec (.coreSubstitute ring hold) s = execCoreSubstitute ring hold s := rfl
@[simp] theorem exec_coreTest (ring : Nat) (hold : Bool) (fails : List Nat) (s : State) : exec (.coreTest ring hold fails) s = execCoreTest ring hold fails s := rfl
@[simp] theorem exec_laneRecal (ring : Nat) (hold : Bool) (good : Nat) (s : State) : exec (.laneRecal ring hold good) s = execLaneRecal ring hold good s := rfl
@[simp] theorem exec_pllRelock (ring : Nat) (s : State) : exec (.pllRelock ring) s = execPllRelock ring s := rfl
@[simp] theorem exec_relockEnd (pll : Nat) (found : Bool) (s : State) : exec (.relockEnd pll found) s = execRelockEnd pll found s := rfl
@[simp] theorem exec_rowRepair (ring : Nat) (hold : Bool) (s : State) : exec (.rowRepair ring hold) s = execRowRepair ring hold s := rfl
@[simp] theorem exec_flashRetire (ring : Nat) (hold : Bool) (s : State) : exec (.flashRetire ring hold) s = execFlashRetire ring hold s := rfl
@[simp] theorem exec_fwStage (ring : Nat) (hold : Bool) (s : State) : exec (.fwStage ring hold) s = execFwStage ring hold s := rfl
@[simp] theorem exec_fwActivate (ring : Nat) (hold : Bool) (s : State) : exec (.fwActivate ring hold) s = execFwActivate ring hold s := rfl
@[simp] theorem exec_fwSwitch (k : Nat) (s : State) : exec (.fwSwitch k) s = execFwSwitch k s := rfl
@[simp] theorem exec_cfgArm (ring : Nat) (hold : Bool) (dead : Nat) (s : State) : exec (.cfgArm ring hold dead) s = execCfgArm ring hold dead s := rfl
@[simp] theorem exec_cfgDisarm (ring : Nat) (hold : Bool) (s : State) : exec (.cfgDisarm ring hold) s = execCfgDisarm ring hold s := rfl
@[simp] theorem exec_cfgCopy (ring : Nat) (hold : Bool) (s : State) : exec (.cfgCopy ring hold) s = execCfgCopy ring hold s := rfl
@[simp] theorem exec_cfgValidate (ring : Nat) (hold : Bool) (dead : Nat) (s : State) : exec (.cfgValidate ring hold dead) s = execCfgValidate ring hold dead s := rfl
@[simp] theorem exec_configSwap (s : State) : exec .configSwap s = execConfigSwap s := rfl
@[simp] theorem exec_roleCfg (ring : Nat) (hold : Bool) (s : State) : exec (.roleCfg ring hold) s = execRoleCfg ring hold s := rfl
@[simp] theorem exec_auditRead (ring : Nat) (hold : Bool) (s : State) : exec (.auditRead ring hold) s = execAuditRead ring hold s := rfl
@[simp] theorem exec_makerFuse (ring : Nat) (hold : Bool) (s : State) : exec (.makerFuse ring hold) s = execMakerFuse ring hold s := rfl
@[simp] theorem exec_makerCal (ring : Nat) (hold : Bool) (s : State) : exec (.makerCal ring hold) s = execMakerCal ring hold s := rfl
@[simp] theorem exec_bootWrite (ring : Nat) (hold : Bool) (s : State) : exec (.bootWrite ring hold) s = execBootWrite ring hold s := rfl
@[simp] theorem exec_svnAdvance (ring : Nat) (hold : Bool) (s : State) : exec (.svnAdvance ring hold) s = execSvnAdvance ring hold s := rfl
@[simp] theorem exec_rootRotate (ring : Nat) (hold : Bool) (s : State) : exec (.rootRotate ring hold) s = execRootRotate ring hold s := rfl
@[simp] theorem exec_certWrite (ring : Nat) (hold : Bool) (s : State) : exec (.certWrite ring hold) s = execCertWrite ring hold s := rfl
@[simp] theorem exec_pwrCap (ring : Nat) (hold : Bool) (s : State) : exec (.pwrCap ring hold) s = execPwrCap ring hold s := rfl
@[simp] theorem exec_pwrRange (ring : Nat) (hold : Bool) (s : State) : exec (.pwrRange ring hold) s = execPwrRange ring hold s := rfl
@[simp] theorem exec_clkSource (ring : Nat) (hold : Bool) (s : State) : exec (.clkSource ring hold) s = execClkSource ring hold s := rfl
@[simp] theorem exec_ringEnable (r : Nat) (v : Nat) (bar : Bool) (s : State) : exec (.ringEnable r v bar) s = execRingEnable r v bar s := rfl
@[simp] theorem exec_ringDisable (r : Nat) (v : Nat) (bar : Bool) (s : State) : exec (.ringDisable r v bar) s = execRingDisable r v bar s := rfl
@[simp] theorem exec_readIndexWrite (v : Nat) (bar : Bool) (s : State) : exec (.readIndexWrite v bar) s = execReadIndexWrite v bar s := rfl
@[simp] theorem exec_srcSelWrite (v : Nat) (bar : Bool) (s : State) : exec (.srcSelWrite v bar) s = execSrcSelWrite v bar s := rfl
@[simp] theorem exec_registerWrite (off : Nat) (v : Nat) (how : Access) (s : State) : exec (.registerWrite off v how) s = execRegisterWrite off v how s := rfl
@[simp] theorem exec_lowHalfRead (off : Nat) (full : Bool) (bar : Bool) (s : State) : exec (.lowHalfRead off full bar) s = execLowHalfRead off full bar s := rfl
@[simp] theorem exec_highHalfRead (off : Nat) (bar : Bool) (s : State) : exec (.highHalfRead off bar) s = execHighHalfRead off bar s := rfl
@[simp] theorem exec_lowHalfWrite (off : Nat) (v : Nat) (bar : Bool) (s : State) : exec (.lowHalfWrite off v bar) s = execLowHalfWrite off v bar s := rfl
@[simp] theorem exec_highHalfWrite (off : Nat) (v : Nat) (bar : Bool) (s : State) : exec (.highHalfWrite off v bar) s = execHighHalfWrite off v bar s := rfl
@[simp] theorem exec_moduleReset (badStacks : Nat) (fails : List (Nat × List Nat)) (s : State) : exec (.moduleReset badStacks fails) s = execModuleReset badStacks fails s := rfl
@[simp] theorem exec_dieReset (die : Nat) (s : State) : exec (.dieReset die) s = execDieReset die s := rfl
@[simp] theorem exec_dieResetEnd (die : Nat) (fails : List (Nat × List Nat)) (s : State) : exec (.dieResetEnd die fails) s = execDieResetEnd die fails s := rfl
@[simp] theorem exec_engineReset (s : State) : exec .engineReset s = execEngineReset s := rfl
@[simp] theorem exec_resetN (badStacks : Nat) (fails : List (Nat × List Nat)) (s : State) : exec (.resetN badStacks fails) s = execResetN badStacks fails s := rfl
@[simp] theorem exec_perstN (asserted : Bool) (s : State) : exec (.perstN asserted) s = execPerstN asserted s := rfl
@[simp] theorem exec_powerGood (broken : Bool) (badStacks : Nat) (fails : List (Nat × List Nat)) (s : State) : exec (.powerGood broken badStacks fails) s = execPowerGood broken badStacks fails s := rfl
@[simp] theorem exec_inputSag (s : State) : exec .inputSag s = execInputSag s := rfl
@[simp] theorem exec_inputLoss (s : State) : exec .inputLoss s = execInputLoss s := rfl
@[simp] theorem exec_inputSurge (s : State) : exec .inputSurge s = execInputSurge s := rfl
@[simp] theorem exec_overvoltage (volts : Int) (s : State) : exec (.overvoltage volts) s = execOvervoltage volts s := rfl
@[simp] theorem exec_inputLow (volts : Nat) (s : State) : exec (.inputLow volts) s = execInputLow volts s := rfl
@[simp] theorem exec_inputReturn (badStacks : Nat) (fails : List (Nat × List Nat)) (s : State) : exec (.inputReturn badStacks fails) s = execInputReturn badStacks fails s := rfl
@[simp] theorem exec_holdup (s : State) : exec .holdup s = execHoldup s := rfl
@[simp] theorem exec_holdupClockStop (s : State) : exec .holdupClockStop s = execHoldupClockStop s := rfl
@[simp] theorem exec_holdupFlashStop (s : State) : exec .holdupFlashStop s = execHoldupFlashStop s := rfl
@[simp] theorem exec_journalTail (s : State) : exec .journalTail s = execJournalTail s := rfl
@[simp] theorem exec_holdupDone (s : State) : exec .holdupDone s = execHoldupDone s := rfl
@[simp] theorem exec_budgetMark (power : Nat) (volts : Nat) (amps : Nat) (die0 : List Int) (die1 : List Int) (logic : List Int) (hub : List Int) (inlet : Int) (outlet : Int) (joules : Nat) (xb : Nat) (throttle : Nat) (since : Since) (s : State) : exec (.budgetMark power volts amps die0 die1 logic hub inlet outlet joules xb throttle since) s = execBudgetMark power volts amps die0 die1 logic hub inlet outlet joules xb throttle since s := rfl
@[simp] theorem exec_capUnreachable (s : State) : exec .capUnreachable s = execCapUnreachable s := rfl
@[simp] theorem exec_thermalTrip (s : State) : exec .thermalTrip s = execThermalTrip s := rfl
@[simp] theorem exec_coolantCondition (which : Nat) (on : Bool) (s : State) : exec (.coolantCondition which on) s = execCoolantCondition which on s := rfl
@[simp] theorem exec_railFault (rail : Nat) (s : State) : exec (.railFault rail) s = execRailFault rail s := rfl
@[simp] theorem exec_referenceLoss (pll : Nat) (s : State) : exec (.referenceLoss pll) s = execReferenceLoss pll s := rfl
@[simp] theorem exec_xbLost (s : State) : exec .xbLost s = execXbLost s := rfl
@[simp] theorem exec_installNEdge (low : Bool) (full : Bool) (s : State) : exec (.installNEdge low full) s = execInstallNEdge low full s := rfl
@[simp] theorem exec_presenceButton (pressed : Bool) (full : Bool) (s : State) : exec (.presenceButton pressed full) s = execPresenceButton pressed full s := rfl
@[simp] theorem exec_presenceWindowEnd (s : State) : exec .presenceWindowEnd s = execPresenceWindowEnd s := rfl
@[simp] theorem exec_sealBreak (s : State) : exec .sealBreak s = execSealBreak s := rfl
@[simp] theorem exec_i3cOffsetWrite (bs : List Byte) (s : State) : exec (.i3cOffsetWrite bs) s = execI3cOffsetWrite bs s := rfl
@[simp] theorem exec_i3cRegisterRead (s : State) : exec .i3cRegisterRead s = execI3cRegisterRead s := rfl
@[simp] theorem exec_setdasa (fixed : Nat) (dyn : Nat) (s : State) : exec (.setdasa fixed dyn) s = execSetdasa fixed dyn s := rfl
@[simp] theorem exec_entdaa (dyn : Nat) (s : State) : exec (.entdaa dyn) s = execEntdaa dyn s := rfl
@[simp] theorem exec_telemetryRecord (s : State) : exec .telemetryRecord s = execTelemetryRecord s := rfl
@[simp] theorem exec_shedLevelFall (s : State) : exec .shedLevelFall s = execShedLevelFall s := rfl
@[simp] theorem exec_summary (source : Nat) (s : State) : exec (.summary source) s = execSummary source s := rfl
@[simp] theorem exec_converterStop (s : State) : exec .converterStop s = execConverterStop s := rfl
@[simp] theorem exec_configurationRequest (sel : Nat) (off : Nat) (write : Bool) (v : Nat) (s : State) : exec (.configurationRequest sel off write v) s = execConfigurationRequest sel off write v s := rfl
@[simp] theorem exec_pcieLinkTrained (gen : Nat) (width : Nat) (s : State) : exec (.pcieLinkTrained gen width) s = execPcieLinkTrained gen width s := rfl

end Sys2Proof.Machine
end

