-- ==== Sys2Proof/Laws/Answers.lean ====
section
/-!
SUPPORT. Laws/Answers.lean: in which form each command answers, which says what it cannot change.
-/

namespace Sys2Proof.Machine

theorem execTickEdge_form (s : State) : ∃ u, execTickEdge s = answerTick s u := by
  unfold execTickEdge; exact ⟨_, rfl⟩
theorem execTickOrderedSet_form (port : Nat) (block : List Byte) (at_ : Nat) (s : State) : ∃ u, execTickOrderedSet port block at_ s = answerTick s u := by
  unfold execTickOrderedSet; exact ⟨_, rfl⟩
theorem execTickPortTimeout_form (port : Nat) (at_ : Nat) (s : State) : ∃ u, execTickPortTimeout port at_ s = answerTick s u := by
  unfold execTickPortTimeout; exact ⟨_, rfl⟩
theorem execWindowEnd_form (e : Timed) (s : State) : ∃ u, execWindowEnd e s = answer s u := by
  unfold execWindowEnd; exact ⟨_, rfl⟩
theorem execPacketComplete_form (e : Nat) (cycles : Nat) (s : State) : ∃ u, execPacketComplete e cycles s = answer s u := by
  unfold execPacketComplete; exact ⟨_, rfl⟩
theorem execMatrixSequence_form (die : Nat) (c : Nat) (st : Nat) (s : State) : ∃ u, execMatrixSequence die c st s = answer s u := by
  unfold execMatrixSequence; exact ⟨_, rfl⟩
theorem execTileClaim_form (die : Nat) (c : Nat) (st : Nat) (s : State) : ∃ u, execTileClaim die c st s = answer s u := by
  unfold execTileClaim; exact ⟨_, rfl⟩
theorem execItemBegin_form (die : Nat) (c : Nat) (st : Nat) (s : State) : ∃ u, execItemBegin die c st s = answer s u := by
  unfold execItemBegin; exact ⟨_, rfl⟩
theorem execLoadA_form (die : Nat) (c : Nat) (st : Nat) (s : State) : ∃ u, execLoadA die c st s = answer s u := by
  unfold execLoadA; exact ⟨_, rfl⟩
theorem execLoadB_form (die : Nat) (c : Nat) (st : Nat) (s : State) : ∃ u, execLoadB die c st s = answer s u := by
  unfold execLoadB; exact ⟨_, rfl⟩
theorem execLoadWritten_form (die : Nat) (c : Nat) (st : Nat) (tb : Bool) (cycles : Nat) (s : State) : ∃ u, execLoadWritten die c st tb cycles s = answerNoMem s u := by
  unfold execLoadWritten; exact ⟨_, rfl⟩
theorem execMma_form (die : Nat) (c : Nat) (st : Nat) (waited : Nat) (s : State) : ∃ u, execMma die c st waited s = answer s u := by
  unfold execMma; exact ⟨_, rfl⟩
theorem execRepeatN_form (die : Nat) (c : Nat) (st : Nat) (s : State) : ∃ u, execRepeatN die c st s = answerNoMem s u := by
  unfold execRepeatN; exact ⟨_, rfl⟩
theorem execTileExchange_form (die : Nat) (c : Nat) (st : Nat) (stall : Nat) (s : State) : ∃ u, execTileExchange die c st stall s = answer s u := by
  unfold execTileExchange; exact ⟨_, rfl⟩
theorem execTbufLoadStart_form (die : Nat) (c : Nat) (s : State) : ∃ u, execTbufLoadStart die c s = answer s u := by
  unfold execTbufLoadStart; exact ⟨_, rfl⟩
theorem execArbitrationPoint_form (die : Nat) (c : Nat) (at_ : Nat) (s : State) : ∃ u, execArbitrationPoint die c at_ s = answerNoMem s u := by
  unfold execArbitrationPoint; exact ⟨_, rfl⟩
theorem execRampStepEnd_form (die : Nat) (c : Nat) (s : State) : ∃ u, execRampStepEnd die c s = answerNoMem s u := by
  unfold execRampStepEnd; exact ⟨_, rfl⟩
theorem execFeederHoldEnd_form (die : Nat) (c : Nat) (s : State) : ∃ u, execFeederHoldEnd die c s = answerNoMem s u := by
  unfold execFeederHoldEnd; exact ⟨_, rfl⟩
theorem execRampTokenGrant_form (die : Nat) (at_ : Nat) (s : State) : ∃ u, execRampTokenGrant die at_ s = answerNoMem s u := by
  unfold execRampTokenGrant; exact ⟨_, rfl⟩
theorem execRampTokenReturn_form (die : Nat) (c : Nat) (at_ : Nat) (s : State) : ∃ u, execRampTokenReturn die c at_ s = answerNoMem s u := by
  unfold execRampTokenReturn; exact ⟨_, rfl⟩
theorem execTileDrain_form (die : Nat) (c : Nat) (late : Bool) (s : State) : ∃ u, execTileDrain die c late s = answer s u := by
  unfold execTileDrain; exact ⟨_, rfl⟩
theorem execDrainStallResume_form (die : Nat) (c : Nat) (cycles : Nat) (s : State) : ∃ u, execDrainStallResume die c cycles s = answer s u := by
  unfold execDrainStallResume; exact ⟨_, rfl⟩
theorem execAttentionForward_form (die : Nat) (c : Nat) (st : Nat) (s : State) : ∃ u, execAttentionForward die c st s = answer s u := by
  unfold execAttentionForward; exact ⟨_, rfl⟩
theorem execAttentionBackward_form (die : Nat) (c : Nat) (st : Nat) (s : State) : ∃ u, execAttentionBackward die c st s = answer s u := by
  unfold execAttentionBackward; exact ⟨_, rfl⟩
theorem execKvAppend_form (die : Nat) (unit : Nat) (s : State) : ∃ u, execKvAppend die unit s = answer s u := by
  unfold execKvAppend; exact ⟨_, rfl⟩
theorem execKvRegionLock_form (region : Nat) (cycles : Nat) (s : State) : ∃ u, execKvRegionLock region cycles s = answerNoMem s u := by
  unfold execKvRegionLock; exact ⟨_, rfl⟩
theorem execKvEvict_form (die : Nat) (unit : Nat) (cycles : Nat) (s : State) : ∃ u, execKvEvict die unit cycles s = answer s u := by
  unfold execKvEvict; exact ⟨_, rfl⟩
theorem execConvForward_form (die : Nat) (c : Nat) (st : Nat) (s : State) : ∃ u, execConvForward die c st s = answer s u := by
  unfold execConvForward; exact ⟨_, rfl⟩
theorem execConvInputGradient_form (die : Nat) (c : Nat) (st : Nat) (s : State) : ∃ u, execConvInputGradient die c st s = answer s u := by
  unfold execConvInputGradient; exact ⟨_, rfl⟩
theorem execConvWeightGradient_form (die : Nat) (c : Nat) (st : Nat) (s : State) : ∃ u, execConvWeightGradient die c st s = answer s u := by
  unfold execConvWeightGradient; exact ⟨_, rfl⟩
theorem execInput_form (die : Nat) (unit : Nat) (s : State) : ∃ u, execInput die unit s = answer s u := by
  unfold execInput; exact ⟨_, rfl⟩
theorem execWeight_form (die : Nat) (unit : Nat) (s : State) : ∃ u, execWeight die unit s = answer s u := by
  unfold execWeight; exact ⟨_, rfl⟩
theorem execOutput_form (die : Nat) (unit : Nat) (s : State) : ∃ u, execOutput die unit s = answer s u := by
  unfold execOutput; exact ⟨_, rfl⟩
theorem execCopy_form (die : Nat) (unit : Nat) (s : State) : ∃ u, execCopy die unit s = answer s u := by
  unfold execCopy; exact ⟨_, rfl⟩
theorem execGather_form (die : Nat) (unit : Nat) (s : State) : ∃ u, execGather die unit s = answer s u := by
  unfold execGather; exact ⟨_, rfl⟩
theorem execS2d_form (die : Nat) (unit : Nat) (s : State) : ∃ u, execS2d die unit s = answer s u := by
  unfold execS2d; exact ⟨_, rfl⟩
theorem execD2s_form (die : Nat) (unit : Nat) (s : State) : ∃ u, execD2s die unit s = answer s u := by
  unfold execD2s; exact ⟨_, rfl⟩
theorem execPadFold_form (die : Nat) (unit : Nat) (s : State) : ∃ u, execPadFold die unit s = answer s u := by
  unfold execPadFold; exact ⟨_, rfl⟩
theorem execPoolMax_form (die : Nat) (unit : Nat) (s : State) : ∃ u, execPoolMax die unit s = answer s u := by
  unfold execPoolMax; exact ⟨_, rfl⟩
theorem execPoolAvg_form (die : Nat) (unit : Nat) (s : State) : ∃ u, execPoolAvg die unit s = answer s u := by
  unfold execPoolAvg; exact ⟨_, rfl⟩
theorem execPoolMaxBwd_form (die : Nat) (unit : Nat) (s : State) : ∃ u, execPoolMaxBwd die unit s = answer s u := by
  unfold execPoolMaxBwd; exact ⟨_, rfl⟩
theorem execPoolAvgBwd_form (die : Nat) (unit : Nat) (s : State) : ∃ u, execPoolAvgBwd die unit s = answer s u := by
  unfold execPoolAvgBwd; exact ⟨_, rfl⟩
theorem execVectorProgram_form (die : Nat) (idx : Nat) (s : State) : ∃ u, execVectorProgram die idx s = answer s u := by
  unfold execVectorProgram; exact ⟨_, rfl⟩
theorem execFma_form (die : Nat) (idx : Nat) (s : State) : ∃ u, execFma die idx s = answerNoMem s u := by
  unfold execFma; exact ⟨_, rfl⟩
theorem execAdd_form (die : Nat) (idx : Nat) (s : State) : ∃ u, execAdd die idx s = answerNoMem s u := by
  unfold execAdd; exact ⟨_, rfl⟩
theorem execMul_form (die : Nat) (idx : Nat) (s : State) : ∃ u, execMul die idx s = answerNoMem s u := by
  unfold execMul; exact ⟨_, rfl⟩
theorem execMax_form (die : Nat) (idx : Nat) (s : State) : ∃ u, execMax die idx s = answerNoMem s u := by
  unfold execMax; exact ⟨_, rfl⟩
theorem execMin_form (die : Nat) (idx : Nat) (s : State) : ∃ u, execMin die idx s = answerNoMem s u := by
  unfold execMin; exact ⟨_, rfl⟩
theorem execFunc_form (die : Nat) (idx : Nat) (s : State) : ∃ u, execFunc die idx s = answerNoMem s u := by
  unfold execFunc; exact ⟨_, rfl⟩
theorem execVectorAct_form (die : Nat) (idx : Nat) (s : State) : ∃ u, execVectorAct die idx s = answerNoMem s u := by
  unfold execVectorAct; exact ⟨_, rfl⟩
theorem execCmp_form (die : Nat) (idx : Nat) (s : State) : ∃ u, execCmp die idx s = answerNoMem s u := by
  unfold execCmp; exact ⟨_, rfl⟩
theorem execSel_form (die : Nat) (idx : Nat) (s : State) : ∃ u, execSel die idx s = answerNoMem s u := by
  unfold execSel; exact ⟨_, rfl⟩
theorem execRed_form (die : Nat) (idx : Nat) (s : State) : ∃ u, execRed die idx s = answerNoMem s u := by
  unfold execRed; exact ⟨_, rfl⟩
theorem execBcast_form (die : Nat) (idx : Nat) (s : State) : ∃ u, execBcast die idx s = answerNoMem s u := by
  unfold execBcast; exact ⟨_, rfl⟩
theorem execLd_form (die : Nat) (idx : Nat) (s : State) : ∃ u, execLd die idx s = answer s u := by
  unfold execLd; exact ⟨_, rfl⟩
theorem execSt_form (die : Nat) (idx : Nat) (s : State) : ∃ u, execSt die idx s = answer s u := by
  unfold execSt; exact ⟨_, rfl⟩
theorem execLdb_form (die : Nat) (idx : Nat) (s : State) : ∃ u, execLdb die idx s = answer s u := by
  unfold execLdb; exact ⟨_, rfl⟩
theorem execStb_form (die : Nat) (idx : Nat) (s : State) : ∃ u, execStb die idx s = answer s u := by
  unfold execStb; exact ⟨_, rfl⟩
theorem execStacc_form (die : Nat) (idx : Nat) (s : State) : ∃ u, execStacc die idx s = answer s u := by
  unfold execStacc; exact ⟨_, rfl⟩
theorem execRng_form (die : Nat) (idx : Nat) (s : State) : ∃ u, execRng die idx s = answerNoMem s u := by
  unfold execRng; exact ⟨_, rfl⟩
theorem execXadd_form (die : Nat) (idx : Nat) (s : State) : ∃ u, execXadd die idx s = answerNoMem s u := by
  unfold execXadd; exact ⟨_, rfl⟩
theorem execXshl_form (die : Nat) (idx : Nat) (s : State) : ∃ u, execXshl die idx s = answerNoMem s u := by
  unfold execXshl; exact ⟨_, rfl⟩
theorem execXld_form (die : Nat) (idx : Nat) (s : State) : ∃ u, execXld die idx s = answer s u := by
  unfold execXld; exact ⟨_, rfl⟩
theorem execLoop_form (die : Nat) (idx : Nat) (s : State) : ∃ u, execLoop die idx s = answerNoMem s u := by
  unfold execLoop; exact ⟨_, rfl⟩
theorem execProgramEnd_form (die : Nat) (idx : Nat) (s : State) : ∃ u, execProgramEnd die idx s = answerNoMem s u := by
  unfold execProgramEnd; exact ⟨_, rfl⟩
theorem execChol_form (die : Nat) (idx : Nat) (s : State) : ∃ u, execChol die idx s = answer s u := by
  unfold execChol; exact ⟨_, rfl⟩
theorem execTrinv_form (die : Nat) (idx : Nat) (s : State) : ∃ u, execTrinv die idx s = answer s u := by
  unfold execTrinv; exact ⟨_, rfl⟩
theorem execGrainTap_form (die : Timed) (s : State) : ∃ u, execGrainTap die s = answer s u := by
  unfold execGrainTap; exact ⟨_, rfl⟩
theorem execStoreBegin_form (die : Nat) (s : State) : ∃ u, execStoreBegin die s = answer s u := by
  unfold execStoreBegin; exact ⟨_, rfl⟩
theorem execCodecDispatch_form (die : Nat) (s : State) : ∃ u, execCodecDispatch die s = answer s u := by
  unfold execCodecDispatch; exact ⟨_, rfl⟩
theorem execPoolRequest_form (die : Nat) (at_ : Nat) (s : State) : ∃ u, execPoolRequest die at_ s = answerNoMem s u := by
  unfold execPoolRequest; exact ⟨_, rfl⟩
theorem execStoreComplete_form (g : Nat) (s : State) : ∃ u, execStoreComplete g s = answer s u := by
  unfold execStoreComplete; exact ⟨_, rfl⟩
theorem execRestoreTick_form (die : Nat) (s : State) : ∃ u, execRestoreTick die s = answer s u := by
  unfold execRestoreTick; exact ⟨_, rfl⟩
theorem execRestoreBegin_form (die : Nat) (s : State) : ∃ u, execRestoreBegin die s = answer s u := by
  unfold execRestoreBegin; exact ⟨_, rfl⟩
theorem execRestoreComplete_form (g : Nat) (waited : Nat) (s : State) : ∃ u, execRestoreComplete g waited s = answer s u := by
  unfold execRestoreComplete; exact ⟨_, rfl⟩
theorem execRestoreFailure_form (g : Nat) (waited : Nat) (s : State) : ∃ u, execRestoreFailure g waited s = answer s u := by
  unfold execRestoreFailure; exact ⟨_, rfl⟩
theorem execDueTickRelease_form (g : Nat) (s : State) : ∃ u, execDueTickRelease g s = answer s u := by
  unfold execDueTickRelease; exact ⟨_, rfl⟩
theorem execReplayStart_form (die : Nat) (c : Timed) (s : State) : ∃ u, execReplayStart die c s = answer s u := by
  unfold execReplayStart; exact ⟨_, rfl⟩
theorem execReplayEnd_form (die : Nat) (c : Nat) (waited : Nat) (s : State) : ∃ u, execReplayEnd die c waited s = answer s u := by
  unfold execReplayEnd; exact ⟨_, rfl⟩
theorem execAdopt_form (die : Timed) (s : State) : ∃ u, execAdopt die s = answer s u := by
  unfold execAdopt; exact ⟨_, rfl⟩
theorem execRestore_form (die : Nat) (s : State) : ∃ u, execRestore die s = answer s u := by
  unfold execRestore; exact ⟨_, rfl⟩
theorem execRelease_form (die : Nat) (s : State) : ∃ u, execRelease die s = answer s u := by
  unfold execRelease; exact ⟨_, rfl⟩
theorem execDemote_form (die : Nat) (s : State) : ∃ u, execDemote die s = answer s u := by
  unfold execDemote; exact ⟨_, rfl⟩
theorem execHold_form (die : Nat) (s : State) : ∃ u, execHold die s = answer s u := by
  unfold execHold; exact ⟨_, rfl⟩
theorem execUnhold_form (die : Nat) (s : State) : ∃ u, execUnhold die s = answer s u := by
  unfold execUnhold; exact ⟨_, rfl⟩
theorem execEncode_form (die : Nat) (unit : Nat) (s : State) : ∃ u, execEncode die unit s = answer s u := by
  unfold execEncode; exact ⟨_, rfl⟩
theorem execDecode_form (die : Nat) (unit : Nat) (s : State) : ∃ u, execDecode die unit s = answer s u := by
  unfold execDecode; exact ⟨_, rfl⟩
theorem execYoyoCtrlSnap_form (die : Nat) (bar : Bool) (s : State) : ∃ u, execYoyoCtrlSnap die bar s = answerNoMem s u := by
  unfold execYoyoCtrlSnap; exact ⟨_, rfl⟩
theorem execBushelSend_form (s : State) : ∃ u, execBushelSend s = answer s u := by
  unfold execBushelSend; exact ⟨_, rfl⟩
theorem execParameterBroadcast_form (s : State) : ∃ u, execParameterBroadcast s = answer s u := by
  unfold execParameterBroadcast; exact ⟨_, rfl⟩
theorem execMirrorSend_form (s : State) : ∃ u, execMirrorSend s = answer s u := by
  unfold execMirrorSend; exact ⟨_, rfl⟩
theorem execUpdate_form (die : Nat) (idx : Nat) (s : State) : ∃ u, execUpdate die idx s = answer s u := by
  unfold execUpdate; exact ⟨_, rfl⟩
theorem execBushelOpen_form (entry : Nat) (s : State) : ∃ u, execBushelOpen entry s = answer s u := by
  unfold execBushelOpen; exact ⟨_, rfl⟩
theorem execSegment_form (port : Nat) (pkt : List Byte) (fec : Fec) (s : State) : ∃ u, execSegment port pkt fec s = answer s u := by
  unfold execSegment; exact ⟨_, rfl⟩
theorem execRauAdd_form (stack : Nat) (pc : Nat) (s : State) : ∃ u, execRauAdd stack pc s = answer s u := by
  unfold execRauAdd; exact ⟨_, rfl⟩
theorem execEndPacket_form (port : Nat) (pkt : List Byte) (fec : Fec) (s : State) : ∃ u, execEndPacket port pkt fec s = answer s u := by
  unfold execEndPacket; exact ⟨_, rfl⟩
theorem execResult_form (port : Nat) (pkt : List Byte) (fec : Fec) (s : State) : ∃ u, execResult port pkt fec s = answer s u := by
  unfold execResult; exact ⟨_, rfl⟩
theorem execVerdictRecord_form (port : Nat) (pkt : List Byte) (fec : Fec) (s : State) : ∃ u, execVerdictRecord port pkt fec s = answer s u := by
  unfold execVerdictRecord; exact ⟨_, rfl⟩
theorem execBushelDeadline_form (entry : Nat) (s : State) : ∃ u, execBushelDeadline entry s = answer s u := by
  unfold execBushelDeadline; exact ⟨_, rfl⟩
theorem execResultTick_form (entry : Nat) (s : State) : ∃ u, execResultTick entry s = answer s u := by
  unfold execResultTick; exact ⟨_, rfl⟩
theorem execBushelClose_form (entry : Nat) (receive : Bool) (s : State) : ∃ u, execBushelClose entry receive s = answer s u := by
  unfold execBushelClose; exact ⟨_, rfl⟩
theorem execVerdictForm_form (entry : Nat) (s : State) : ∃ u, execVerdictForm entry s = answerSysNoMem s u := by
  unfold execVerdictForm; exact ⟨_, rfl⟩
theorem execVerdictResolution_form (entry : Nat) (s : State) : ∃ u, execVerdictResolution entry s = answerSys s u := by
  unfold execVerdictResolution; exact ⟨_, rfl⟩
theorem execMirror_form (port : Nat) (pkt : List Byte) (fec : Fec) (s : State) : ∃ u, execMirror port pkt fec s = answer s u := by
  unfold execMirror; exact ⟨_, rfl⟩
theorem execLandingCopyEnd_form (s : State) : ∃ u, execLandingCopyEnd s = answer s u := by
  unfold execLandingCopyEnd; exact ⟨_, rfl⟩
theorem execLandingBoundaryCheck_form (s : State) : ∃ u, execLandingBoundaryCheck s = answer s u := by
  unfold execLandingBoundaryCheck; exact ⟨_, rfl⟩
theorem execPromotion_form (s : State) : ∃ u, execPromotion s = answerSys s u := by
  unfold execPromotion; exact ⟨_, rfl⟩
theorem execPromoteNotice_form (port : Nat) (pkt : List Byte) (fec : Fec) (s : State) : ∃ u, execPromoteNotice port pkt fec s = answer s u := by
  unfold execPromoteNotice; exact ⟨_, rfl⟩
theorem execStagingBegin_form (s : State) : ∃ u, execStagingBegin s = answerNoMem s u := by
  unfold execStagingBegin; exact ⟨_, rfl⟩
theorem execStagingEnd_form (heldCycles : Nat) (s : State) : ∃ u, execStagingEnd heldCycles s = answer s u := by
  unfold execStagingEnd; exact ⟨_, rfl⟩
theorem execGenerationCommit_form (s : State) : ∃ u, execGenerationCommit s = answerNoMem s u := by
  unfold execGenerationCommit; exact ⟨_, rfl⟩
theorem execFlashFailure_form (block : Nat) (s : State) : ∃ u, execFlashFailure block s = answerNoMem s u := by
  unfold execFlashFailure; exact ⟨_, rfl⟩
theorem execExportStaging_form (heldCycles : Nat) (s : State) : ∃ u, execExportStaging heldCycles s = answer s u := by
  unfold execExportStaging; exact ⟨_, rfl⟩
theorem execExportPacket_form (port : Nat) (pkt : List Byte) (fec : Fec) (s : State) : ∃ u, execExportPacket port pkt fec s = answer s u := by
  unfold execExportPacket; exact ⟨_, rfl⟩
theorem execIdle_form (port : Nat) (pkt : List Byte) (fec : Fec) (s : State) : ∃ u, execIdle port pkt fec s = answerNoMem s u := by
  unfold execIdle; exact ⟨_, rfl⟩
theorem execLinkInit_form (port : Nat) (block : List Byte) (s : State) : ∃ u, execLinkInit port block s = answerNoMem s u := by
  unfold execLinkInit; exact ⟨_, rfl⟩
theorem execEgressSelect_form (port : Nat) (waited : Nat) (s : State) : ∃ u, execEgressSelect port waited s = answerNoMem s u := by
  unfold execEgressSelect; exact ⟨_, rfl⟩
theorem execRetryTimeout_form (port : Nat) (s : State) : ∃ u, execRetryTimeout port s = answerNoMem s u := by
  unfold execRetryTimeout; exact ⟨_, rfl⟩
theorem execLaneFault_form (port : Nat) (lane : Nat) (s : State) : ∃ u, execLaneFault port lane s = answerNoMem s u := by
  unfold execLaneFault; exact ⟨_, rfl⟩
theorem execTrainingEnd_form (port : Nat) (lanes : Nat) (inverted : Nat) (reversed : Bool) (s : State) : ∃ u, execTrainingEnd port lanes inverted reversed s = answerNoMem s u := by
  unfold execTrainingEnd; exact ⟨_, rfl⟩
theorem execRetrainEnd_form (port : Nat) (lanes : Nat) (s : State) : ∃ u, execRetrainEnd port lanes s = answerNoMem s u := by
  unfold execRetrainEnd; exact ⟨_, rfl⟩
theorem execPortRetryTimer_form (port : Nat) (s : State) : ∃ u, execPortRetryTimer port s = answerNoMem s u := by
  unfold execPortRetryTimer; exact ⟨_, rfl⟩
theorem execCommandPoll_form (poll : Poll) (s : State) : ∃ u, execCommandPoll poll s = answer s u := by
  unfold execCommandPoll; exact ⟨_, rfl⟩
theorem execLockGrant_form (waited : Nat) (dead : Nat) (s : State) : ∃ u, execLockGrant waited dead s = answerNvm s u := by
  unfold execLockGrant; exact ⟨_, rfl⟩
theorem execLockWaitTimeout_form (r : Nat) (waited : Nat) (s : State) : ∃ u, execLockWaitTimeout r waited s = answerNoMem s u := by
  unfold execLockWaitTimeout; exact ⟨_, rfl⟩
theorem execHostCompletion_form (idx : Nat) (error : Bool) (writes : List (Nat × List Byte)) (s : State) : ∃ u, execHostCompletion idx error writes s = answer s u := by
  unfold execHostCompletion; exact ⟨_, rfl⟩
theorem execCompletionTimeout_form (idx : Nat) (s : State) : ∃ u, execCompletionTimeout idx s = answer s u := by
  unfold execCompletionTimeout; exact ⟨_, rfl⟩
theorem execBar2Read_form (off : Nat) (n : Nat) (s : State) : ∃ u, execBar2Read off n s = answerNoMem s u := by
  unfold execBar2Read; exact ⟨_, rfl⟩
theorem execBar2Write_form (off : Nat) (bs : List Byte) (poisoned : Bool) (s : State) : ∃ u, execBar2Write off bs poisoned s = answer s u := by
  unfold execBar2Write; exact ⟨_, rfl⟩
theorem execBar0BadAccess_form (how : BadAccess) (bytes : Nat) (s : State) : ∃ u, execBar0BadAccess how bytes s = answerNoMem s u := by
  unfold execBar0BadAccess; exact ⟨_, rfl⟩
theorem execPmStateChange_form (d3hot : Bool) (s : State) : ∃ u, execPmStateChange d3hot s = answerNoMem s u := by
  unfold execPmStateChange; exact ⟨_, rfl⟩
theorem execDoeObject_form (type : Nat) (bs : List Byte) (s : State) : ∃ u, execDoeObject type bs s = answerSysNoMem s u := by
  unfold execDoeObject; exact ⟨_, rfl⟩
theorem execDoeAbort_form (s : State) : ∃ u, execDoeAbort s = answerSysNoMem s u := by
  unfold execDoeAbort; exact ⟨_, rfl⟩
theorem execGetVersion_form (s : State) : ∃ u, execGetVersion s = answerSysNoMem s u := by
  unfold execGetVersion; exact ⟨_, rfl⟩
theorem execGetCapabilities_form (s : State) : ∃ u, execGetCapabilities s = answerSysNoMem s u := by
  unfold execGetCapabilities; exact ⟨_, rfl⟩
theorem execNegotiateAlgorithms_form (s : State) : ∃ u, execNegotiateAlgorithms s = answerSysNoMem s u := by
  unfold execNegotiateAlgorithms; exact ⟨_, rfl⟩
theorem execGetDigests_form (s : State) : ∃ u, execGetDigests s = answerSysNoMem s u := by
  unfold execGetDigests; exact ⟨_, rfl⟩
theorem execGetCertificate_form (s : State) : ∃ u, execGetCertificate s = answerSysNoMem s u := by
  unfold execGetCertificate; exact ⟨_, rfl⟩
theorem execChallenge_form (s : State) : ∃ u, execChallenge s = answerSysNoMem s u := by
  unfold execChallenge; exact ⟨_, rfl⟩
theorem execGetMeasurements_form (s : State) : ∃ u, execGetMeasurements s = answerSysNoMem s u := by
  unfold execGetMeasurements; exact ⟨_, rfl⟩
theorem execKeyExchange_form (s : State) : ∃ u, execKeyExchange s = answerSysNoMem s u := by
  unfold execKeyExchange; exact ⟨_, rfl⟩
theorem execFinish_form (s : State) : ∃ u, execFinish s = answerSysNoMem s u := by
  unfold execFinish; exact ⟨_, rfl⟩
theorem execHeartbeat_form (s : State) : ∃ u, execHeartbeat s = answerSysNoMem s u := by
  unfold execHeartbeat; exact ⟨_, rfl⟩
theorem execKeyUpdate_form (s : State) : ∃ u, execKeyUpdate s = answerSysNoMem s u := by
  unfold execKeyUpdate; exact ⟨_, rfl⟩
theorem execEndSession_form (s : State) : ∃ u, execEndSession s = answerSysNoMem s u := by
  unfold execEndSession; exact ⟨_, rfl⟩
theorem execPlanBind_form (ring : Nat) (hold : Bool) (s : State) : ∃ u, execPlanBind ring hold s = answerSysNoMem s u := by
  unfold execPlanBind; exact ⟨_, rfl⟩
theorem execPlanUnbind_form (ring : Nat) (hold : Bool) (s : State) : ∃ u, execPlanUnbind ring hold s = answerSysNoMem s u := by
  unfold execPlanUnbind; exact ⟨_, rfl⟩
theorem execPlanCancel_form (ring : Nat) (hold : Bool) (s : State) : ∃ u, execPlanCancel ring hold s = answerSysNoMem s u := by
  unfold execPlanCancel; exact ⟨_, rfl⟩
theorem execUnbindAtBoundary_form (s : State) : ∃ u, execUnbindAtBoundary s = answerSys s u := by
  unfold execUnbindAtBoundary; exact ⟨_, rfl⟩
theorem execKvTableSet_form (ring : Nat) (hold : Bool) (s : State) : ∃ u, execKvTableSet ring hold s = answerSysNoMem s u := by
  unfold execKvTableSet; exact ⟨_, rfl⟩
theorem execKvCreate_form (ring : Nat) (hold : Bool) (s : State) : ∃ u, execKvCreate ring hold s = answer s u := by
  unfold execKvCreate; exact ⟨_, rfl⟩
theorem execKvDestroy_form (ring : Nat) (hold : Bool) (s : State) : ∃ u, execKvDestroy ring hold s = answerNoMem s u := by
  unfold execKvDestroy; exact ⟨_, rfl⟩
theorem execTickCfg_form (ring : Nat) (hold : Bool) (s : State) : ∃ u, execTickCfg ring hold s = answerSysNoMem s u := by
  unfold execTickCfg; exact ⟨_, rfl⟩
theorem execYoyoTableSet_form (ring : Nat) (hold : Bool) (s : State) : ∃ u, execYoyoTableSet ring hold s = answerNoMem s u := by
  unfold execYoyoTableSet; exact ⟨_, rfl⟩
theorem execPoolAdd_form (ring : Nat) (hold : Bool) (s : State) : ∃ u, execPoolAdd ring hold s = answerNoMem s u := by
  unfold execPoolAdd; exact ⟨_, rfl⟩
theorem execPoolRemove_form (ring : Nat) (hold : Bool) (s : State) : ∃ u, execPoolRemove ring hold s = answerNoMem s u := by
  unfold execPoolRemove; exact ⟨_, rfl⟩
theorem execPoolList_form (ring : Nat) (hold : Bool) (s : State) : ∃ u, execPoolList ring hold s = answer s u := by
  unfold execPoolList; exact ⟨_, rfl⟩
theorem execJobTableSet_form (ring : Nat) (hold : Bool) (s : State) : ∃ u, execJobTableSet ring hold s = answerSysNoMem s u := by
  unfold execJobTableSet; exact ⟨_, rfl⟩
theorem execOwnerMapRead_form (ring : Nat) (hold : Bool) (s : State) : ∃ u, execOwnerMapRead ring hold s = answer s u := by
  unfold execOwnerMapRead; exact ⟨_, rfl⟩
theorem execRuleWrite_form (ring : Nat) (hold : Bool) (s : State) : ∃ u, execRuleWrite ring hold s = answerSysNoMem s u := by
  unfold execRuleWrite; exact ⟨_, rfl⟩
theorem execRuleRead_form (ring : Nat) (hold : Bool) (s : State) : ∃ u, execRuleRead ring hold s = answer s u := by
  unfold execRuleRead; exact ⟨_, rfl⟩
theorem execRuleCopy_form (ring : Nat) (hold : Bool) (s : State) : ∃ u, execRuleCopy ring hold s = answerSysNoMem s u := by
  unfold execRuleCopy; exact ⟨_, rfl⟩
theorem execSnapCfg_form (ring : Nat) (hold : Bool) (s : State) : ∃ u, execSnapCfg ring hold s = answerNoMem s u := by
  unfold execSnapCfg; exact ⟨_, rfl⟩
theorem execSnapNow_form (ring : Nat) (hold : Bool) (s : State) : ∃ u, execSnapNow ring hold s = answerNoMem s u := by
  unfold execSnapNow; exact ⟨_, rfl⟩
theorem execSnapRestore_form (ring : Nat) (hold : Bool) (s : State) : ∃ u, execSnapRestore ring hold s = answerSys s u := by
  unfold execSnapRestore; exact ⟨_, rfl⟩
theorem execSnapExport_form (ring : Nat) (hold : Bool) (s : State) : ∃ u, execSnapExport ring hold s = answerNoMem s u := by
  unfold execSnapExport; exact ⟨_, rfl⟩
theorem execExportWindowOpen_form (ring : Nat) (hold : Bool) (s : State) : ∃ u, execExportWindowOpen ring hold s = answerNoMem s u := by
  unfold execExportWindowOpen; exact ⟨_, rfl⟩
theorem execExportWindowClose_form (ring : Nat) (hold : Bool) (s : State) : ∃ u, execExportWindowClose ring hold s = answerNoMem s u := by
  unfold execExportWindowClose; exact ⟨_, rfl⟩
theorem execMirrorPromote_form (ring : Nat) (hold : Bool) (s : State) : ∃ u, execMirrorPromote ring hold s = answerSysNoMem s u := by
  unfold execMirrorPromote; exact ⟨_, rfl⟩
theorem execGenList_form (ring : Nat) (hold : Bool) (s : State) : ∃ u, execGenList ring hold s = answer s u := by
  unfold execGenList; exact ⟨_, rfl⟩
theorem execTelRingSet_form (ring : Nat) (hold : Bool) (s : State) : ∃ u, execTelRingSet ring hold s = answerNoMem s u := by
  unfold execTelRingSet; exact ⟨_, rfl⟩
theorem execTelSelect_form (ring : Nat) (hold : Bool) (s : State) : ∃ u, execTelSelect ring hold s = answerNoMem s u := by
  unfold execTelSelect; exact ⟨_, rfl⟩
theorem execTelAlarmClear_form (ring : Nat) (hold : Bool) (s : State) : ∃ u, execTelAlarmClear ring hold s = answer s u := by
  unfold execTelAlarmClear; exact ⟨_, rfl⟩
theorem execCoreFence_form (ring : Nat) (hold : Bool) (s : State) : ∃ u, execCoreFence ring hold s = answerNoMem s u := by
  unfold execCoreFence; exact ⟨_, rfl⟩
theorem execFenceBegin_form (die : Nat) (c : Nat) (s : State) : ∃ u, execFenceBegin die c s = answerNoMem s u := by
  unfold execFenceBegin; exact ⟨_, rfl⟩
theorem execCoreUnfence_form (ring : Nat) (hold : Bool) (s : State) : ∃ u, execCoreUnfence ring hold s = answerNoMem s u := by
  unfold execCoreUnfence; exact ⟨_, rfl⟩
theorem execCoreSpareRow_form (ring : Nat) (hold : Bool) (s : State) : ∃ u, execCoreSpareRow ring hold s = answerSysNoMem s u := by
  unfold execCoreSpareRow; exact ⟨_, rfl⟩
theorem execCoreSubstitute_form (ring : Nat) (hold : Bool) (s : State) : ∃ u, execCoreSubstitute ring hold s = answerSysNoMem s u := by
  unfold execCoreSubstitute; exact ⟨_, rfl⟩
theorem execCoreTest_form (ring : Nat) (hold : Bool) (fails : List Nat) (s : State) : ∃ u, execCoreTest ring hold fails s = answerSysNoMem s u := by
  unfold execCoreTest; exact ⟨_, rfl⟩
theorem execLaneRecal_form (ring : Nat) (hold : Bool) (good : Nat) (s : State) : ∃ u, execLaneRecal ring hold good s = answerNoMem s u := by
  unfold execLaneRecal; exact ⟨_, rfl⟩
theorem execPllRelock_form (ring : Nat) (s : State) : ∃ u, execPllRelock ring s = answerSysNoMem s u := by
  unfold execPllRelock; exact ⟨_, rfl⟩
theorem execRelockEnd_form (pll : Nat) (found : Bool) (s : State) : ∃ u, execRelockEnd pll found s = answerSysNoMem s u := by
  unfold execRelockEnd; exact ⟨_, rfl⟩
theorem execRowRepair_form (ring : Nat) (hold : Bool) (s : State) : ∃ u, execRowRepair ring hold s = answerSysNoMem s u := by
  unfold execRowRepair; exact ⟨_, rfl⟩
theorem execFlashRetire_form (ring : Nat) (hold : Bool) (s : State) : ∃ u, execFlashRetire ring hold s = answerNoMem s u := by
  unfold execFlashRetire; exact ⟨_, rfl⟩
theorem execFwStage_form (ring : Nat) (hold : Bool) (s : State) : ∃ u, execFwStage ring hold s = answerSysNoMem s u := by
  unfold execFwStage; exact ⟨_, rfl⟩
theorem execFwActivate_form (ring : Nat) (hold : Bool) (s : State) : ∃ u, execFwActivate ring hold s = answerSysNoMem s u := by
  unfold execFwActivate; exact ⟨_, rfl⟩
theorem execFwSwitch_form (k : Nat) (s : State) : ∃ u, execFwSwitch k s = answerSys s u := by
  unfold execFwSwitch; exact ⟨_, rfl⟩
theorem execCfgArm_form (ring : Nat) (hold : Bool) (dead : Nat) (s : State) : ∃ u, execCfgArm ring hold dead s = answerNoMem s u := by
  unfold execCfgArm; exact ⟨_, rfl⟩
theorem execCfgDisarm_form (ring : Nat) (hold : Bool) (s : State) : ∃ u, execCfgDisarm ring hold s = answerSysNoMem s u := by
  unfold execCfgDisarm; exact ⟨_, rfl⟩
theorem execCfgCopy_form (ring : Nat) (hold : Bool) (s : State) : ∃ u, execCfgCopy ring hold s = answerSysNoMem s u := by
  unfold execCfgCopy; exact ⟨_, rfl⟩
theorem execCfgValidate_form (ring : Nat) (hold : Bool) (dead : Nat) (s : State) : ∃ u, execCfgValidate ring hold dead s = answerNoMem s u := by
  unfold execCfgValidate; exact ⟨_, rfl⟩
theorem execConfigSwap_form (s : State) : ∃ u, execConfigSwap s = answerSwap s u := by
  unfold execConfigSwap; exact ⟨_, rfl⟩
theorem execRoleCfg_form (ring : Nat) (hold : Bool) (s : State) : ∃ u, execRoleCfg ring hold s = answerSysNoMem s u := by
  unfold execRoleCfg; exact ⟨_, rfl⟩
theorem execAuditRead_form (ring : Nat) (hold : Bool) (s : State) : ∃ u, execAuditRead ring hold s = answer s u := by
  unfold execAuditRead; exact ⟨_, rfl⟩
theorem execMakerFuse_form (ring : Nat) (hold : Bool) (s : State) : ∃ u, execMakerFuse ring hold s = answerNvm s u := by
  unfold execMakerFuse; exact ⟨_, rfl⟩
theorem execMakerCal_form (ring : Nat) (hold : Bool) (s : State) : ∃ u, execMakerCal ring hold s = answerNvm s u := by
  unfold execMakerCal; exact ⟨_, rfl⟩
theorem execBootWrite_form (ring : Nat) (hold : Bool) (s : State) : ∃ u, execBootWrite ring hold s = answerNvm s u := by
  unfold execBootWrite; exact ⟨_, rfl⟩
theorem execSvnAdvance_form (ring : Nat) (hold : Bool) (s : State) : ∃ u, execSvnAdvance ring hold s = answerNvm s u := by
  unfold execSvnAdvance; exact ⟨_, rfl⟩
theorem execRootRotate_form (ring : Nat) (hold : Bool) (s : State) : ∃ u, execRootRotate ring hold s = answerNvm s u := by
  unfold execRootRotate; exact ⟨_, rfl⟩
theorem execCertWrite_form (ring : Nat) (hold : Bool) (s : State) : ∃ u, execCertWrite ring hold s = answerNvm s u := by
  unfold execCertWrite; exact ⟨_, rfl⟩
theorem execPwrCap_form (ring : Nat) (hold : Bool) (s : State) : ∃ u, execPwrCap ring hold s = answerNoMem s u := by
  unfold execPwrCap; exact ⟨_, rfl⟩
theorem execPwrRange_form (ring : Nat) (hold : Bool) (s : State) : ∃ u, execPwrRange ring hold s = answerNoMem s u := by
  unfold execPwrRange; exact ⟨_, rfl⟩
theorem execClkSource_form (ring : Nat) (hold : Bool) (s : State) : ∃ u, execClkSource ring hold s = answerNoMem s u := by
  unfold execClkSource; exact ⟨_, rfl⟩
theorem execRingEnable_form (r : Nat) (v : Nat) (bar : Bool) (s : State) : ∃ u, execRingEnable r v bar s = answerNoMem s u := by
  unfold execRingEnable; exact ⟨_, rfl⟩
theorem execRingDisable_form (r : Nat) (v : Nat) (bar : Bool) (s : State) : ∃ u, execRingDisable r v bar s = answerNoMem s u := by
  unfold execRingDisable; exact ⟨_, rfl⟩
theorem execReadIndexWrite_form (v : Nat) (bar : Bool) (s : State) : ∃ u, execReadIndexWrite v bar s = answerNoMem s u := by
  unfold execReadIndexWrite; exact ⟨_, rfl⟩
theorem execSrcSelWrite_form (v : Nat) (bar : Bool) (s : State) : ∃ u, execSrcSelWrite v bar s = answerNoMem s u := by
  unfold execSrcSelWrite; exact ⟨_, rfl⟩
theorem execRegisterWrite_form (off : Nat) (v : Nat) (how : Access) (s : State) : ∃ u, execRegisterWrite off v how s = answerNoMem s u := by
  unfold execRegisterWrite; exact ⟨_, rfl⟩
theorem execLowHalfRead_form (off : Nat) (full : Bool) (bar : Bool) (s : State) : ∃ u, execLowHalfRead off full bar s = answerNoMem s u := by
  unfold execLowHalfRead; exact ⟨_, rfl⟩
theorem execHighHalfRead_form (off : Nat) (bar : Bool) (s : State) : ∃ u, execHighHalfRead off bar s = answerNoMem s u := by
  unfold execHighHalfRead; exact ⟨_, rfl⟩
theorem execLowHalfWrite_form (off : Nat) (v : Nat) (bar : Bool) (s : State) : ∃ u, execLowHalfWrite off v bar s = answerNoMem s u := by
  unfold execLowHalfWrite; exact ⟨_, rfl⟩
theorem execHighHalfWrite_form (off : Nat) (v : Nat) (bar : Bool) (s : State) : ∃ u, execHighHalfWrite off v bar s = answerNoMem s u := by
  unfold execHighHalfWrite; exact ⟨_, rfl⟩
theorem execModuleReset_form (badStacks : Nat) (fails : List (Nat × List Nat)) (s : State) : ∃ u, execModuleReset badStacks fails s = answerAll s u := by
  unfold execModuleReset; exact ⟨_, rfl⟩
theorem execDieReset_form (die : Nat) (s : State) : ∃ u, execDieReset die s = answerSys s u := by
  unfold execDieReset; exact ⟨_, rfl⟩
theorem execDieResetEnd_form (die : Nat) (fails : List (Nat × List Nat)) (s : State) : ∃ u, execDieResetEnd die fails s = answerSysNoMem s u := by
  unfold execDieResetEnd; exact ⟨_, rfl⟩
theorem execEngineReset_form (s : State) : ∃ u, execEngineReset s = answer s u := by
  unfold execEngineReset; exact ⟨_, rfl⟩
theorem execResetN_form (badStacks : Nat) (fails : List (Nat × List Nat)) (s : State) : ∃ u, execResetN badStacks fails s = answerAll s u := by
  unfold execResetN; exact ⟨_, rfl⟩
theorem execPerstN_form (asserted : Bool) (s : State) : ∃ u, execPerstN asserted s = answerSysNoMem s u := by
  unfold execPerstN; exact ⟨_, rfl⟩
theorem execPowerGood_form (broken : Bool) (badStacks : Nat) (fails : List (Nat × List Nat)) (s : State) : ∃ u, execPowerGood broken badStacks fails s = answerAll s u := by
  unfold execPowerGood; exact ⟨_, rfl⟩
theorem execInputSag_form (s : State) : ∃ u, execInputSag s = answerNoMem s u := by
  unfold execInputSag; exact ⟨_, rfl⟩
theorem execInputLoss_form (s : State) : ∃ u, execInputLoss s = answerSysNoMem s u := by
  unfold execInputLoss; exact ⟨_, rfl⟩
theorem execInputSurge_form (s : State) : ∃ u, execInputSurge s = answerNoMem s u := by
  unfold execInputSurge; exact ⟨_, rfl⟩
theorem execInputLow_form (volts : Nat) (s : State) : ∃ u, execInputLow volts s = answerNoMem s u := by
  unfold execInputLow; exact ⟨_, rfl⟩
theorem execInputReturn_form (badStacks : Nat) (fails : List (Nat × List Nat)) (s : State) : ∃ u, execInputReturn badStacks fails s = answerAll s u := by
  unfold execInputReturn; exact ⟨_, rfl⟩
theorem execHoldup_form (s : State) : ∃ u, execHoldup s = answerSysNoMem s u := by
  unfold execHoldup; exact ⟨_, rfl⟩
theorem execHoldupClockStop_form (s : State) : ∃ u, execHoldupClockStop s = answerSys s u := by
  unfold execHoldupClockStop; exact ⟨_, rfl⟩
theorem execHoldupFlashStop_form (s : State) : ∃ u, execHoldupFlashStop s = answerSysNoMem s u := by
  unfold execHoldupFlashStop; exact ⟨_, rfl⟩
theorem execJournalTail_form (s : State) : ∃ u, execJournalTail s = answerSysNoMem s u := by
  unfold execJournalTail; exact ⟨_, rfl⟩
theorem execHoldupDone_form (s : State) : ∃ u, execHoldupDone s = answerSysNoMem s u := by
  unfold execHoldupDone; exact ⟨_, rfl⟩
theorem execBudgetMark_form (power : Nat) (volts : Nat) (amps : Nat) (die0 : List Int) (die1 : List Int) (logic : List Int) (hub : List Int) (inlet : Int) (outlet : Int) (joules : Nat) (xb : Nat) (throttle : Nat) (since : Since) (s : State) : ∃ u, execBudgetMark power volts amps die0 die1 logic hub inlet outlet joules xb throttle since s = answerPower s u := by
  unfold execBudgetMark; exact ⟨_, rfl⟩
theorem execCapUnreachable_form (s : State) : ∃ u, execCapUnreachable s = answerSys s u := by
  unfold execCapUnreachable; exact ⟨_, rfl⟩
theorem execThermalTrip_form (s : State) : ∃ u, execThermalTrip s = answerSys s u := by
  unfold execThermalTrip; exact ⟨_, rfl⟩
theorem execCoolantCondition_form (which : Nat) (on : Bool) (s : State) : ∃ u, execCoolantCondition which on s = answer s u := by
  unfold execCoolantCondition; exact ⟨_, rfl⟩
theorem execRailFault_form (rail : Nat) (s : State) : ∃ u, execRailFault rail s = answerSys s u := by
  unfold execRailFault; exact ⟨_, rfl⟩
theorem execReferenceLoss_form (pll : Nat) (s : State) : ∃ u, execReferenceLoss pll s = answerSys s u := by
  unfold execReferenceLoss; exact ⟨_, rfl⟩
theorem execXbLost_form (s : State) : ∃ u, execXbLost s = answerSysNoMem s u := by
  unfold execXbLost; exact ⟨_, rfl⟩
theorem execInstallNEdge_form (low : Bool) (full : Bool) (s : State) : ∃ u, execInstallNEdge low full s = answerNoMem s u := by
  unfold execInstallNEdge; exact ⟨_, rfl⟩
theorem execPresenceButton_form (pressed : Bool) (full : Bool) (s : State) : ∃ u, execPresenceButton pressed full s = answerNoMem s u := by
  unfold execPresenceButton; exact ⟨_, rfl⟩
theorem execPresenceWindowEnd_form (s : State) : ∃ u, execPresenceWindowEnd s = answerNoMem s u := by
  unfold execPresenceWindowEnd; exact ⟨_, rfl⟩
theorem execSealBreak_form (s : State) : ∃ u, execSealBreak s = answerNvm s u := by
  unfold execSealBreak; exact ⟨_, rfl⟩
theorem execI3cOffsetWrite_form (bs : List Byte) (s : State) : ∃ u, execI3cOffsetWrite bs s = answerSysNoMem s u := by
  unfold execI3cOffsetWrite; exact ⟨_, rfl⟩
theorem execI3cRegisterRead_form (s : State) : ∃ u, execI3cRegisterRead s = answerSysNoMem s u := by
  unfold execI3cRegisterRead; exact ⟨_, rfl⟩
theorem execSetdasa_form (fixed : Nat) (dyn : Nat) (s : State) : ∃ u, execSetdasa fixed dyn s = answerSysNoMem s u := by
  unfold execSetdasa; exact ⟨_, rfl⟩
theorem execEntdaa_form (dyn : Nat) (s : State) : ∃ u, execEntdaa dyn s = answerSysNoMem s u := by
  unfold execEntdaa; exact ⟨_, rfl⟩
theorem execTelemetryRecord_form (s : State) : ∃ u, execTelemetryRecord s = answer s u := by
  unfold execTelemetryRecord; exact ⟨_, rfl⟩
theorem execShedLevelFall_form (s : State) : ∃ u, execShedLevelFall s = answer s u := by
  unfold execShedLevelFall; exact ⟨_, rfl⟩
theorem execSummary_form (source : Nat) (s : State) : ∃ u, execSummary source s = answer s u := by
  unfold execSummary; exact ⟨_, rfl⟩
theorem execConverterStop_form (s : State) : ∃ u, execConverterStop s = answerSysNoMem s u := by
  unfold execConverterStop; exact ⟨_, rfl⟩
theorem execConfigurationRequest_form (sel : Nat) (off : Nat) (write : Bool) (v : Nat) (s : State) : ∃ u, execConfigurationRequest sel off write v s = answerSysNoMem s u := by
  unfold execConfigurationRequest; exact ⟨_, rfl⟩
theorem execPcieLinkTrained_form (gen : Nat) (width : Nat) (s : State) : ∃ u, execPcieLinkTrained gen width s = answerSysNoMem s u := by
  unfold execPcieLinkTrained; exact ⟨_, rfl⟩
theorem execOvervoltage_form (volts : Int) (s : State) (lo : -100 ≤ volts) (hi : volts ≤ 100) :
    ∃ u, execOvervoltage volts s = answerSysNoMem s u := by
  unfold execOvervoltage; rw [if_neg (by omega)]; exact ⟨_, rfl⟩

end Sys2Proof.Machine
end

