-- ==== Sys2Proof/Laws/Bits.lean ====
section
/-!
SUPPORT. Laws/Bits.lean: reading back bit fields, byte lists and lists.
-/

namespace Sys2Proof.Machine

/-- A field written splits its number into what lies below, the field, and what lies above. -/
theorem putBits_eq (x hi lo v : Nat) :
    putBits x hi lo v =
      2 ^ lo * (2 ^ (hi + 1 - lo) * (x / 2 ^ lo / 2 ^ (hi + 1 - lo)) + v % 2 ^ (hi + 1 - lo)) + x % 2 ^ lo := by
  unfold putBits
  simp only [Nat.shiftRight_eq_div_pow, Nat.shiftLeft_eq]
  have h₁ := Nat.div_add_mod x (2 ^ lo)
  have h₂ := Nat.div_add_mod (x / 2 ^ lo) (2 ^ (hi + 1 - lo))
  generalize 2 ^ lo = A at *
  generalize 2 ^ (hi + 1 - lo) = W at *
  generalize v % W = m
  generalize hq : x / A / W = q at *
  generalize hr : x / A % W = r at *
  generalize hb : x % A = b at *
  have h₃ : x = A * (W * q) + r * A + b := by rw [← h₁, ← h₂, Nat.mul_add, Nat.mul_comm A r]
  have h₄ : x - r * A = A * (W * q) + b := by omega
  rw [h₄, Nat.mul_add, Nat.mul_comm A m]; omega

/-- A field that was written reads back. -/
@[simp] theorem bitsOf_putBits_same (x hi lo v : Nat) : bitsOf (putBits x hi lo v) hi lo = v % 2 ^ (hi + 1 - lo) := by
  unfold bitsOf
  rw [Nat.shiftRight_eq_div_pow, putBits_eq, Nat.mul_add_div (Nat.two_pow_pos lo),
    Nat.div_eq_of_lt (Nat.mod_lt _ (Nat.two_pow_pos lo)), Nat.add_zero, Nat.mul_add_mod, Nat.mod_mod]

theorem bitOf_eq (x i : Nat) : bitOf x i = decide (bitsOf x i i = 1) := by
  unfold bitOf bitsOf
  rw [show i + 1 - i = 1 by omega]
  cases h : (x >>> i) % 2 with
  | zero => simp [h]
  | succ n => cases n with
    | zero => simp [h]
    | succ n => have := Nat.mod_lt (x >>> i) (show 2 > 0 by omega); omega

/-- A bit that was written reads back. -/
@[simp] theorem bitOf_putBits_same (x i : Nat) (b : Bool) : bitOf (putBits x i i (b2n b)) i = b := by
  rw [bitOf_eq, bitsOf_putBits_same, show i + 1 - i = 1 by omega]
  cases b <;> rfl

/-- Fields below the one written stay. -/
theorem bitsOf_putBits_below (x hi lo v : Nat) {h l : Nat} (d : h < lo) (hl : l ≤ h) :
    bitsOf (putBits x hi lo v) h l = bitsOf x h l := by
  unfold bitsOf
  simp only [Nat.shiftRight_eq_div_pow]
  have e : ∀ y, y / 2 ^ l % 2 ^ (h + 1 - l) = y % 2 ^ (h + 1) / 2 ^ l := by
    intro y
    rw [show h + 1 = l + (h + 1 - l) by omega, Nat.pow_add, Nat.mod_mul_right_div_self]
    simp
  rw [e, e]
  have m : ∀ y, y % 2 ^ lo % 2 ^ (h + 1) = y % 2 ^ (h + 1) := fun y =>
    Nat.mod_mod_of_dvd y (Nat.pow_dvd_pow 2 (by omega))
  rw [← m (putBits x hi lo v), ← m x, putBits_eq, Nat.mul_add_mod, Nat.mod_mod]

/-- Fields above the one written stay. -/
theorem bitsOf_putBits_above (x hi lo v : Nat) {h l : Nat} (d : hi < l) (hl : lo ≤ hi) :
    bitsOf (putBits x hi lo v) h l = bitsOf x h l := by
  unfold bitsOf
  simp only [Nat.shiftRight_eq_div_pow]
  have e : ∀ y, y / 2 ^ l = y / 2 ^ lo / 2 ^ (hi + 1 - lo) / 2 ^ (l - (hi + 1)) := by
    intro y
    rw [Nat.div_div_eq_div_mul, Nat.div_div_eq_div_mul, ← Nat.pow_add, ← Nat.pow_add]
    congr 2; omega
  rw [e, e x, putBits_eq, Nat.mul_add_div (Nat.two_pow_pos lo),
    Nat.div_eq_of_lt (Nat.mod_lt _ (Nat.two_pow_pos lo)), Nat.add_zero, Nat.mul_add_div (Nat.two_pow_pos _),
    Nat.div_eq_of_lt (Nat.mod_lt _ (Nat.two_pow_pos _)), Nat.add_zero]

theorem bitsOf_putBits_disjoint (x hi lo v : Nat) {h l : Nat} (hw : lo ≤ hi) (hl : l ≤ h) (d : h < lo ∨ hi < l) :
    bitsOf (putBits x hi lo v) h l = bitsOf x h l := by
  cases d with
  | inl d => exact bitsOf_putBits_below x hi lo v d hl
  | inr d => exact bitsOf_putBits_above x hi lo v d hw

/-- Every other bit stays. -/
theorem bitOf_putBits_other (x hi lo v : Nat) {i : Nat} (hw : lo ≤ hi) (d : i < lo ∨ hi < i) :
    bitOf (putBits x hi lo v) i = bitOf x i := by
  rw [bitOf_eq, bitOf_eq, bitsOf_putBits_disjoint x hi lo v hw (Nat.le_refl i) d]

/-- A field written stays within 64 bits. -/
theorem putBits_lt {x hi lo : Nat} (v : Nat) (hx : x < 2 ^ 64) (hh : hi < 64) (hw : lo ≤ hi) :
    putBits x hi lo v < 2 ^ 64 := by
  rw [putBits_eq]
  have hb := Nat.mod_lt x (Nat.two_pow_pos lo)
  have hm := Nat.mod_lt v (Nat.two_pow_pos (hi + 1 - lo))
  have hq : x / 2 ^ lo / 2 ^ (hi + 1 - lo) < 2 ^ (64 - (hi + 1)) := by
    rw [Nat.div_div_eq_div_mul, ← Nat.pow_add, Nat.div_lt_iff_lt_mul (Nat.two_pow_pos _), ← Nat.pow_add]
    rw [show 64 - (hi + 1) + (lo + (hi + 1 - lo)) = 64 by omega]; exact hx
  have key : 2 ^ (hi + 1 - lo) * (x / 2 ^ lo / 2 ^ (hi + 1 - lo)) + v % 2 ^ (hi + 1 - lo) < 2 ^ (64 - lo) := by
    have : 2 ^ (hi + 1 - lo) * (x / 2 ^ lo / 2 ^ (hi + 1 - lo)) + 2 ^ (hi + 1 - lo) ≤ 2 ^ (64 - lo) := by
      rw [← Nat.mul_succ, show 64 - lo = (hi + 1 - lo) + (64 - (hi + 1)) by omega, Nat.pow_add]
      exact Nat.mul_le_mul_left _ hq
    omega
  generalize 2 ^ (hi + 1 - lo) * (x / 2 ^ lo / 2 ^ (hi + 1 - lo)) + v % 2 ^ (hi + 1 - lo) = K at key
  have : 2 ^ lo * K + 2 ^ lo ≤ 2 ^ 64 := by
    rw [← Nat.mul_succ, show 64 = lo + (64 - lo) by omega, Nat.pow_add]
    exact Nat.mul_le_mul_left _ key
  omega

/-! ## Lists -/

@[simp] theorem length_listSet {α : Type} (l : List α) (i : Nat) (v : α) : (listSet l i v).length = l.length := by
  induction l generalizing i with
  | nil => rfl
  | cons h t ih => cases i <;> simp [listSet, ih]

theorem listGet_listSet {α : Type} (d : α) (l : List α) (i : Nat) (v : α) (j : Nat) :
    listGet d (listSet l i v) j = if i = j ∧ i < l.length then v else listGet d l j := by
  induction l generalizing i j with
  | nil => simp [listSet, listGet]
  | cons h t ih =>
    cases i <;> cases j <;> simp [listSet, listGet, ih]

theorem listGet_listSet_same {α : Type} (d : α) {l : List α} {i : Nat} (v : α) (h : i < l.length) :
    listGet d (listSet l i v) i = v := by simp [listGet_listSet, h]

theorem listGet_listSet_other {α : Type} (d : α) (l : List α) {i j : Nat} (v : α) (h : i ≠ j) :
    listGet d (listSet l i v) j = listGet d l j := by simp [listGet_listSet, h]

theorem listGet_map_range {α : Type} (d : α) (n : Nat) (f : Nat → α) (j : Nat) :
    listGet d ((List.range n).map f) j = if j < n then f j else d := by
  induction n generalizing f j with
  | zero => simp [listGet]
  | succ n ih =>
    rw [List.range_succ_eq_map, List.map_cons, List.map_map]
    cases j with
    | zero => simp [listGet]
    | succ j => simp only [listGet]; rw [ih]; simp [Nat.succ_lt_succ_iff]

/-- A table of `n` elements reads, at each of them, what was put there or what it read before. -/
theorem listGet_listPut {α : Type} (d : α) (n : Nat) (l : List α) (i : Nat) (v : α) {j : Nat} (h : j < n) :
    listGet d (listPut d n l i v) j = if j = i then v else listGet d l j := by
  unfold listPut; rw [listGet_map_range, if_pos h]

theorem listGet_listPut_same {α : Type} (d : α) {n : Nat} (l : List α) {i : Nat} (v : α) (h : i < n) :
    listGet d (listPut d n l i v) i = v := by rw [listGet_listPut d n l i v h, if_pos rfl]

theorem listGet_listPut_other {α : Type} (d : α) {n : Nat} (l : List α) {i j : Nat} (v : α) (h : j < n) (ne : j ≠ i) :
    listGet d (listPut d n l i v) j = listGet d l j := by rw [listGet_listPut d n l i v h, if_neg ne]

@[simp] theorem length_listPut {α : Type} (d : α) (n : Nat) (l : List α) (i : Nat) (v : α) :
    (listPut d n l i v).length = n := by simp [listPut]

/-! ## Byte lists -/

@[simp] theorem length_leBytes (n x : Nat) : (leBytes n x).length = n := by
  induction n generalizing x with
  | zero => rfl
  | succ n ih => simp [leBytes, ih]

/-- The bytes of a number give it back. -/
theorem leNat_leBytes (n x : Nat) : leNat (leBytes n x) = x % 2 ^ (8 * n) := by
  induction n generalizing x with
  | zero => simp [leBytes, leNat, Nat.mod_one]
  | succ n ih =>
    simp only [leBytes, leNat, ih, BitVec.toNat_ofNat]
    rw [show 8 * (n + 1) = 8 + 8 * n by omega, Nat.pow_add, Nat.mod_mul]

end Sys2Proof.Machine
end

