-- ==== Sys2Proof/Laws/State.lean ====
section
/-!
SUPPORT. Laws/State.lean: one lemma per field and update of the state, so that no proof unfolds a record update.
-/

namespace Sys2Proof.Machine

/-! ## State.setReg -/

@[simp] theorem State.setReg_pending (s : State) (off v : Nat) : (s.setReg off v).pending = s.pending := rfl
@[simp] theorem State.setReg_free (s : State) (off v : Nat) : (s.setReg off v).free = s.free := rfl
@[simp] theorem State.setReg_readData (s : State) (off v : Nat) : (s.setReg off v).readData = s.readData := rfl
@[simp] theorem State.setReg_readBytes (s : State) (off v : Nat) : (s.setReg off v).readBytes = s.readBytes := rfl
@[simp] theorem State.setReg_regs (s : State) (off v : Nat) : (s.setReg off v).regs = Tbl.set regReset s.regs off (BitVec.ofNat 64 v) := rfl
@[simp] theorem State.setReg_latches (s : State) (off v : Nat) : (s.setReg off v).latches = s.latches := rfl
@[simp] theorem State.setReg_staging (s : State) (off v : Nat) : (s.setReg off v).staging = s.staging := rfl
@[simp] theorem State.setReg_mem (s : State) (off v : Nat) : (s.setReg off v).mem = s.mem := rfl
@[simp] theorem State.setReg_badWords (s : State) (off v : Nat) : (s.setReg off v).badWords = s.badWords := rfl
@[simp] theorem State.setReg_host (s : State) (off v : Nat) : (s.setReg off v).host = s.host := rfl
@[simp] theorem State.setReg_tick (s : State) (off v : Nat) : (s.setReg off v).tick = s.tick := rfl
@[simp] theorem State.setReg_binding (s : State) (off v : Nat) : (s.setReg off v).binding = s.binding := rfl
@[simp] theorem State.setReg_engines (s : State) (off v : Nat) : (s.setReg off v).engines = s.engines := rfl
@[simp] theorem State.setReg_cores (s : State) (off v : Nat) : (s.setReg off v).cores = s.cores := rfl
@[simp] theorem State.setReg_tokenQ (s : State) (off v : Nat) : (s.setReg off v).tokenQ = s.tokenQ := rfl
@[simp] theorem State.setReg_tokenLast (s : State) (off v : Nat) : (s.setReg off v).tokenLast = s.tokenLast := rfl
@[simp] theorem State.setReg_vecs (s : State) (off v : Nat) : (s.setReg off v).vecs = s.vecs := rfl
@[simp] theorem State.setReg_yoyos (s : State) (off v : Nat) : (s.setReg off v).yoyos = s.yoyos := rfl
@[simp] theorem State.setReg_kvTable (s : State) (off v : Nat) : (s.setReg off v).kvTable = s.kvTable := rfl
@[simp] theorem State.setReg_kv (s : State) (off v : Nat) : (s.setReg off v).kv = s.kv := rfl
@[simp] theorem State.setReg_att (s : State) (off v : Nat) : (s.setReg off v).att = s.att := rfl
@[simp] theorem State.setReg_bushels (s : State) (off v : Nat) : (s.setReg off v).bushels = s.bushels := rfl
@[simp] theorem State.setReg_rauQ (s : State) (off v : Nat) : (s.setReg off v).rauQ = s.rauQ := rfl
@[simp] theorem State.setReg_rauSeq (s : State) (off v : Nat) : (s.setReg off v).rauSeq = s.rauSeq := rfl
@[simp] theorem State.setReg_ends (s : State) (off v : Nat) : (s.setReg off v).ends = s.ends := rfl
@[simp] theorem State.setReg_verdict (s : State) (off v : Nat) : (s.setReg off v).verdict = s.verdict := rfl
@[simp] theorem State.setReg_upd (s : State) (off v : Nat) : (s.setReg off v).upd = s.upd := rfl
@[simp] theorem State.setReg_rules (s : State) (off v : Nat) : (s.setReg off v).rules = s.rules := rfl
@[simp] theorem State.setReg_ports (s : State) (off v : Nat) : (s.setReg off v).ports = s.ports := rfl
@[simp] theorem State.setReg_localQ (s : State) (off v : Nat) : (s.setReg off v).localQ = s.localQ := rfl
@[simp] theorem State.setReg_snap (s : State) (off v : Nat) : (s.setReg off v).snap = s.snap := rfl
@[simp] theorem State.setReg_tel (s : State) (off v : Nat) : (s.setReg off v).tel = s.tel := rfl
@[simp] theorem State.setReg_clk (s : State) (off v : Nat) : (s.setReg off v).clk = s.clk := rfl
@[simp] theorem State.setReg_budget (s : State) (off v : Nat) : (s.setReg off v).budget = s.budget := rfl
@[simp] theorem State.setReg_mon (s : State) (off v : Nat) : (s.setReg off v).mon = s.mon := rfl
@[simp] theorem State.setReg_halt (s : State) (off v : Nat) : (s.setReg off v).halt = s.halt := rfl
@[simp] theorem State.setReg_inst (s : State) (off v : Nat) : (s.setReg off v).inst = s.inst := rfl
@[simp] theorem State.setReg_nvm (s : State) (off v : Nat) : (s.setReg off v).nvm = s.nvm := rfl
@[simp] theorem State.setReg_fw (s : State) (off v : Nat) : (s.setReg off v).fw = s.fw := rfl
@[simp] theorem State.setReg_sec (s : State) (off v : Nat) : (s.setReg off v).sec = s.sec := rfl
@[simp] theorem State.setReg_spdm (s : State) (off v : Nat) : (s.setReg off v).spdm = s.spdm := rfl
@[simp] theorem State.setReg_i3c (s : State) (off v : Nat) : (s.setReg off v).i3c = s.i3c := rfl
@[simp] theorem State.setReg_pcie (s : State) (off v : Nat) : (s.setReg off v).pcie = s.pcie := rfl
@[simp] theorem State.setReg_maint (s : State) (off v : Nat) : (s.setReg off v).maint = s.maint := rfl
@[simp] theorem State.setReg_dieReset (s : State) (off v : Nat) : (s.setReg off v).dieReset = s.dieReset := rfl
@[simp] theorem State.setReg_resetReq (s : State) (off v : Nat) : (s.setReg off v).resetReq = s.resetReq := rfl
@[simp] theorem State.setReg_stackFail (s : State) (off v : Nat) : (s.setReg off v).stackFail = s.stackFail := rfl

/-! ## State.setCore -/

@[simp] theorem State.setCore_pending (s : State) (k : Nat) (c : Core) : (s.setCore k c).pending = s.pending := rfl
@[simp] theorem State.setCore_free (s : State) (k : Nat) (c : Core) : (s.setCore k c).free = s.free := rfl
@[simp] theorem State.setCore_readData (s : State) (k : Nat) (c : Core) : (s.setCore k c).readData = s.readData := rfl
@[simp] theorem State.setCore_readBytes (s : State) (k : Nat) (c : Core) : (s.setCore k c).readBytes = s.readBytes := rfl
@[simp] theorem State.setCore_regs (s : State) (k : Nat) (c : Core) : (s.setCore k c).regs = s.regs := rfl
@[simp] theorem State.setCore_latches (s : State) (k : Nat) (c : Core) : (s.setCore k c).latches = s.latches := rfl
@[simp] theorem State.setCore_staging (s : State) (k : Nat) (c : Core) : (s.setCore k c).staging = s.staging := rfl
@[simp] theorem State.setCore_mem (s : State) (k : Nat) (c : Core) : (s.setCore k c).mem = s.mem := rfl
@[simp] theorem State.setCore_badWords (s : State) (k : Nat) (c : Core) : (s.setCore k c).badWords = s.badWords := rfl
@[simp] theorem State.setCore_host (s : State) (k : Nat) (c : Core) : (s.setCore k c).host = s.host := rfl
@[simp] theorem State.setCore_tick (s : State) (k : Nat) (c : Core) : (s.setCore k c).tick = s.tick := rfl
@[simp] theorem State.setCore_binding (s : State) (k : Nat) (c : Core) : (s.setCore k c).binding = s.binding := rfl
@[simp] theorem State.setCore_engines (s : State) (k : Nat) (c : Core) : (s.setCore k c).engines = s.engines := rfl
@[simp] theorem State.setCore_cores (s : State) (k : Nat) (c : Core) : (s.setCore k c).cores = Tbl.set (fun _ => {}) s.cores k c := rfl
@[simp] theorem State.setCore_tokenQ (s : State) (k : Nat) (c : Core) : (s.setCore k c).tokenQ = s.tokenQ := rfl
@[simp] theorem State.setCore_tokenLast (s : State) (k : Nat) (c : Core) : (s.setCore k c).tokenLast = s.tokenLast := rfl
@[simp] theorem State.setCore_vecs (s : State) (k : Nat) (c : Core) : (s.setCore k c).vecs = s.vecs := rfl
@[simp] theorem State.setCore_yoyos (s : State) (k : Nat) (c : Core) : (s.setCore k c).yoyos = s.yoyos := rfl
@[simp] theorem State.setCore_kvTable (s : State) (k : Nat) (c : Core) : (s.setCore k c).kvTable = s.kvTable := rfl
@[simp] theorem State.setCore_kv (s : State) (k : Nat) (c : Core) : (s.setCore k c).kv = s.kv := rfl
@[simp] theorem State.setCore_att (s : State) (k : Nat) (c : Core) : (s.setCore k c).att = s.att := rfl
@[simp] theorem State.setCore_bushels (s : State) (k : Nat) (c : Core) : (s.setCore k c).bushels = s.bushels := rfl
@[simp] theorem State.setCore_rauQ (s : State) (k : Nat) (c : Core) : (s.setCore k c).rauQ = s.rauQ := rfl
@[simp] theorem State.setCore_rauSeq (s : State) (k : Nat) (c : Core) : (s.setCore k c).rauSeq = s.rauSeq := rfl
@[simp] theorem State.setCore_ends (s : State) (k : Nat) (c : Core) : (s.setCore k c).ends = s.ends := rfl
@[simp] theorem State.setCore_verdict (s : State) (k : Nat) (c : Core) : (s.setCore k c).verdict = s.verdict := rfl
@[simp] theorem State.setCore_upd (s : State) (k : Nat) (c : Core) : (s.setCore k c).upd = s.upd := rfl
@[simp] theorem State.setCore_rules (s : State) (k : Nat) (c : Core) : (s.setCore k c).rules = s.rules := rfl
@[simp] theorem State.setCore_ports (s : State) (k : Nat) (c : Core) : (s.setCore k c).ports = s.ports := rfl
@[simp] theorem State.setCore_localQ (s : State) (k : Nat) (c : Core) : (s.setCore k c).localQ = s.localQ := rfl
@[simp] theorem State.setCore_snap (s : State) (k : Nat) (c : Core) : (s.setCore k c).snap = s.snap := rfl
@[simp] theorem State.setCore_tel (s : State) (k : Nat) (c : Core) : (s.setCore k c).tel = s.tel := rfl
@[simp] theorem State.setCore_clk (s : State) (k : Nat) (c : Core) : (s.setCore k c).clk = s.clk := rfl
@[simp] theorem State.setCore_budget (s : State) (k : Nat) (c : Core) : (s.setCore k c).budget = s.budget := rfl
@[simp] theorem State.setCore_mon (s : State) (k : Nat) (c : Core) : (s.setCore k c).mon = s.mon := rfl
@[simp] theorem State.setCore_halt (s : State) (k : Nat) (c : Core) : (s.setCore k c).halt = s.halt := rfl
@[simp] theorem State.setCore_inst (s : State) (k : Nat) (c : Core) : (s.setCore k c).inst = s.inst := rfl
@[simp] theorem State.setCore_nvm (s : State) (k : Nat) (c : Core) : (s.setCore k c).nvm = s.nvm := rfl
@[simp] theorem State.setCore_fw (s : State) (k : Nat) (c : Core) : (s.setCore k c).fw = s.fw := rfl
@[simp] theorem State.setCore_sec (s : State) (k : Nat) (c : Core) : (s.setCore k c).sec = s.sec := rfl
@[simp] theorem State.setCore_spdm (s : State) (k : Nat) (c : Core) : (s.setCore k c).spdm = s.spdm := rfl
@[simp] theorem State.setCore_i3c (s : State) (k : Nat) (c : Core) : (s.setCore k c).i3c = s.i3c := rfl
@[simp] theorem State.setCore_pcie (s : State) (k : Nat) (c : Core) : (s.setCore k c).pcie = s.pcie := rfl
@[simp] theorem State.setCore_maint (s : State) (k : Nat) (c : Core) : (s.setCore k c).maint = s.maint := rfl
@[simp] theorem State.setCore_dieReset (s : State) (k : Nat) (c : Core) : (s.setCore k c).dieReset = s.dieReset := rfl
@[simp] theorem State.setCore_resetReq (s : State) (k : Nat) (c : Core) : (s.setCore k c).resetReq = s.resetReq := rfl
@[simp] theorem State.setCore_stackFail (s : State) (k : Nat) (c : Core) : (s.setCore k c).stackFail = s.stackFail := rfl

/-! ## State.setEngine -/

@[simp] theorem State.setEngine_pending (s : State) (e : Nat) (v : Engine) : (s.setEngine e v).pending = s.pending := rfl
@[simp] theorem State.setEngine_free (s : State) (e : Nat) (v : Engine) : (s.setEngine e v).free = s.free := rfl
@[simp] theorem State.setEngine_readData (s : State) (e : Nat) (v : Engine) : (s.setEngine e v).readData = s.readData := rfl
@[simp] theorem State.setEngine_readBytes (s : State) (e : Nat) (v : Engine) : (s.setEngine e v).readBytes = s.readBytes := rfl
@[simp] theorem State.setEngine_regs (s : State) (e : Nat) (v : Engine) : (s.setEngine e v).regs = s.regs := rfl
@[simp] theorem State.setEngine_latches (s : State) (e : Nat) (v : Engine) : (s.setEngine e v).latches = s.latches := rfl
@[simp] theorem State.setEngine_staging (s : State) (e : Nat) (v : Engine) : (s.setEngine e v).staging = s.staging := rfl
@[simp] theorem State.setEngine_mem (s : State) (e : Nat) (v : Engine) : (s.setEngine e v).mem = s.mem := rfl
@[simp] theorem State.setEngine_badWords (s : State) (e : Nat) (v : Engine) : (s.setEngine e v).badWords = s.badWords := rfl
@[simp] theorem State.setEngine_host (s : State) (e : Nat) (v : Engine) : (s.setEngine e v).host = s.host := rfl
@[simp] theorem State.setEngine_tick (s : State) (e : Nat) (v : Engine) : (s.setEngine e v).tick = s.tick := rfl
@[simp] theorem State.setEngine_binding (s : State) (e : Nat) (v : Engine) : (s.setEngine e v).binding = s.binding := rfl
@[simp] theorem State.setEngine_engines (s : State) (e : Nat) (v : Engine) : (s.setEngine e v).engines = Tbl.set (fun _ => {}) s.engines e v := rfl
@[simp] theorem State.setEngine_cores (s : State) (e : Nat) (v : Engine) : (s.setEngine e v).cores = s.cores := rfl
@[simp] theorem State.setEngine_tokenQ (s : State) (e : Nat) (v : Engine) : (s.setEngine e v).tokenQ = s.tokenQ := rfl
@[simp] theorem State.setEngine_tokenLast (s : State) (e : Nat) (v : Engine) : (s.setEngine e v).tokenLast = s.tokenLast := rfl
@[simp] theorem State.setEngine_vecs (s : State) (e : Nat) (v : Engine) : (s.setEngine e v).vecs = s.vecs := rfl
@[simp] theorem State.setEngine_yoyos (s : State) (e : Nat) (v : Engine) : (s.setEngine e v).yoyos = s.yoyos := rfl
@[simp] theorem State.setEngine_kvTable (s : State) (e : Nat) (v : Engine) : (s.setEngine e v).kvTable = s.kvTable := rfl
@[simp] theorem State.setEngine_kv (s : State) (e : Nat) (v : Engine) : (s.setEngine e v).kv = s.kv := rfl
@[simp] theorem State.setEngine_att (s : State) (e : Nat) (v : Engine) : (s.setEngine e v).att = s.att := rfl
@[simp] theorem State.setEngine_bushels (s : State) (e : Nat) (v : Engine) : (s.setEngine e v).bushels = s.bushels := rfl
@[simp] theorem State.setEngine_rauQ (s : State) (e : Nat) (v : Engine) : (s.setEngine e v).rauQ = s.rauQ := rfl
@[simp] theorem State.setEngine_rauSeq (s : State) (e : Nat) (v : Engine) : (s.setEngine e v).rauSeq = s.rauSeq := rfl
@[simp] theorem State.setEngine_ends (s : State) (e : Nat) (v : Engine) : (s.setEngine e v).ends = s.ends := rfl
@[simp] theorem State.setEngine_verdict (s : State) (e : Nat) (v : Engine) : (s.setEngine e v).verdict = s.verdict := rfl
@[simp] theorem State.setEngine_upd (s : State) (e : Nat) (v : Engine) : (s.setEngine e v).upd = s.upd := rfl
@[simp] theorem State.setEngine_rules (s : State) (e : Nat) (v : Engine) : (s.setEngine e v).rules = s.rules := rfl
@[simp] theorem State.setEngine_ports (s : State) (e : Nat) (v : Engine) : (s.setEngine e v).ports = s.ports := rfl
@[simp] theorem State.setEngine_localQ (s : State) (e : Nat) (v : Engine) : (s.setEngine e v).localQ = s.localQ := rfl
@[simp] theorem State.setEngine_snap (s : State) (e : Nat) (v : Engine) : (s.setEngine e v).snap = s.snap := rfl
@[simp] theorem State.setEngine_tel (s : State) (e : Nat) (v : Engine) : (s.setEngine e v).tel = s.tel := rfl
@[simp] theorem State.setEngine_clk (s : State) (e : Nat) (v : Engine) : (s.setEngine e v).clk = s.clk := rfl
@[simp] theorem State.setEngine_budget (s : State) (e : Nat) (v : Engine) : (s.setEngine e v).budget = s.budget := rfl
@[simp] theorem State.setEngine_mon (s : State) (e : Nat) (v : Engine) : (s.setEngine e v).mon = s.mon := rfl
@[simp] theorem State.setEngine_halt (s : State) (e : Nat) (v : Engine) : (s.setEngine e v).halt = s.halt := rfl
@[simp] theorem State.setEngine_inst (s : State) (e : Nat) (v : Engine) : (s.setEngine e v).inst = s.inst := rfl
@[simp] theorem State.setEngine_nvm (s : State) (e : Nat) (v : Engine) : (s.setEngine e v).nvm = s.nvm := rfl
@[simp] theorem State.setEngine_fw (s : State) (e : Nat) (v : Engine) : (s.setEngine e v).fw = s.fw := rfl
@[simp] theorem State.setEngine_sec (s : State) (e : Nat) (v : Engine) : (s.setEngine e v).sec = s.sec := rfl
@[simp] theorem State.setEngine_spdm (s : State) (e : Nat) (v : Engine) : (s.setEngine e v).spdm = s.spdm := rfl
@[simp] theorem State.setEngine_i3c (s : State) (e : Nat) (v : Engine) : (s.setEngine e v).i3c = s.i3c := rfl
@[simp] theorem State.setEngine_pcie (s : State) (e : Nat) (v : Engine) : (s.setEngine e v).pcie = s.pcie := rfl
@[simp] theorem State.setEngine_maint (s : State) (e : Nat) (v : Engine) : (s.setEngine e v).maint = s.maint := rfl
@[simp] theorem State.setEngine_dieReset (s : State) (e : Nat) (v : Engine) : (s.setEngine e v).dieReset = s.dieReset := rfl
@[simp] theorem State.setEngine_resetReq (s : State) (e : Nat) (v : Engine) : (s.setEngine e v).resetReq = s.resetReq := rfl
@[simp] theorem State.setEngine_stackFail (s : State) (e : Nat) (v : Engine) : (s.setEngine e v).stackFail = s.stackFail := rfl

/-! ## State.setVec -/

@[simp] theorem State.setVec_pending (s : State) (e : Nat) (v : Vec) : (s.setVec e v).pending = s.pending := rfl
@[simp] theorem State.setVec_free (s : State) (e : Nat) (v : Vec) : (s.setVec e v).free = s.free := rfl
@[simp] theorem State.setVec_readData (s : State) (e : Nat) (v : Vec) : (s.setVec e v).readData = s.readData := rfl
@[simp] theorem State.setVec_readBytes (s : State) (e : Nat) (v : Vec) : (s.setVec e v).readBytes = s.readBytes := rfl
@[simp] theorem State.setVec_regs (s : State) (e : Nat) (v : Vec) : (s.setVec e v).regs = s.regs := rfl
@[simp] theorem State.setVec_latches (s : State) (e : Nat) (v : Vec) : (s.setVec e v).latches = s.latches := rfl
@[simp] theorem State.setVec_staging (s : State) (e : Nat) (v : Vec) : (s.setVec e v).staging = s.staging := rfl
@[simp] theorem State.setVec_mem (s : State) (e : Nat) (v : Vec) : (s.setVec e v).mem = s.mem := rfl
@[simp] theorem State.setVec_badWords (s : State) (e : Nat) (v : Vec) : (s.setVec e v).badWords = s.badWords := rfl
@[simp] theorem State.setVec_host (s : State) (e : Nat) (v : Vec) : (s.setVec e v).host = s.host := rfl
@[simp] theorem State.setVec_tick (s : State) (e : Nat) (v : Vec) : (s.setVec e v).tick = s.tick := rfl
@[simp] theorem State.setVec_binding (s : State) (e : Nat) (v : Vec) : (s.setVec e v).binding = s.binding := rfl
@[simp] theorem State.setVec_engines (s : State) (e : Nat) (v : Vec) : (s.setVec e v).engines = s.engines := rfl
@[simp] theorem State.setVec_cores (s : State) (e : Nat) (v : Vec) : (s.setVec e v).cores = s.cores := rfl
@[simp] theorem State.setVec_tokenQ (s : State) (e : Nat) (v : Vec) : (s.setVec e v).tokenQ = s.tokenQ := rfl
@[simp] theorem State.setVec_tokenLast (s : State) (e : Nat) (v : Vec) : (s.setVec e v).tokenLast = s.tokenLast := rfl
@[simp] theorem State.setVec_vecs (s : State) (e : Nat) (v : Vec) : (s.setVec e v).vecs = Tbl.set (fun _ => {}) s.vecs e v := rfl
@[simp] theorem State.setVec_yoyos (s : State) (e : Nat) (v : Vec) : (s.setVec e v).yoyos = s.yoyos := rfl
@[simp] theorem State.setVec_kvTable (s : State) (e : Nat) (v : Vec) : (s.setVec e v).kvTable = s.kvTable := rfl
@[simp] theorem State.setVec_kv (s : State) (e : Nat) (v : Vec) : (s.setVec e v).kv = s.kv := rfl
@[simp] theorem State.setVec_att (s : State) (e : Nat) (v : Vec) : (s.setVec e v).att = s.att := rfl
@[simp] theorem State.setVec_bushels (s : State) (e : Nat) (v : Vec) : (s.setVec e v).bushels = s.bushels := rfl
@[simp] theorem State.setVec_rauQ (s : State) (e : Nat) (v : Vec) : (s.setVec e v).rauQ = s.rauQ := rfl
@[simp] theorem State.setVec_rauSeq (s : State) (e : Nat) (v : Vec) : (s.setVec e v).rauSeq = s.rauSeq := rfl
@[simp] theorem State.setVec_ends (s : State) (e : Nat) (v : Vec) : (s.setVec e v).ends = s.ends := rfl
@[simp] theorem State.setVec_verdict (s : State) (e : Nat) (v : Vec) : (s.setVec e v).verdict = s.verdict := rfl
@[simp] theorem State.setVec_upd (s : State) (e : Nat) (v : Vec) : (s.setVec e v).upd = s.upd := rfl
@[simp] theorem State.setVec_rules (s : State) (e : Nat) (v : Vec) : (s.setVec e v).rules = s.rules := rfl
@[simp] theorem State.setVec_ports (s : State) (e : Nat) (v : Vec) : (s.setVec e v).ports = s.ports := rfl
@[simp] theorem State.setVec_localQ (s : State) (e : Nat) (v : Vec) : (s.setVec e v).localQ = s.localQ := rfl
@[simp] theorem State.setVec_snap (s : State) (e : Nat) (v : Vec) : (s.setVec e v).snap = s.snap := rfl
@[simp] theorem State.setVec_tel (s : State) (e : Nat) (v : Vec) : (s.setVec e v).tel = s.tel := rfl
@[simp] theorem State.setVec_clk (s : State) (e : Nat) (v : Vec) : (s.setVec e v).clk = s.clk := rfl
@[simp] theorem State.setVec_budget (s : State) (e : Nat) (v : Vec) : (s.setVec e v).budget = s.budget := rfl
@[simp] theorem State.setVec_mon (s : State) (e : Nat) (v : Vec) : (s.setVec e v).mon = s.mon := rfl
@[simp] theorem State.setVec_halt (s : State) (e : Nat) (v : Vec) : (s.setVec e v).halt = s.halt := rfl
@[simp] theorem State.setVec_inst (s : State) (e : Nat) (v : Vec) : (s.setVec e v).inst = s.inst := rfl
@[simp] theorem State.setVec_nvm (s : State) (e : Nat) (v : Vec) : (s.setVec e v).nvm = s.nvm := rfl
@[simp] theorem State.setVec_fw (s : State) (e : Nat) (v : Vec) : (s.setVec e v).fw = s.fw := rfl
@[simp] theorem State.setVec_sec (s : State) (e : Nat) (v : Vec) : (s.setVec e v).sec = s.sec := rfl
@[simp] theorem State.setVec_spdm (s : State) (e : Nat) (v : Vec) : (s.setVec e v).spdm = s.spdm := rfl
@[simp] theorem State.setVec_i3c (s : State) (e : Nat) (v : Vec) : (s.setVec e v).i3c = s.i3c := rfl
@[simp] theorem State.setVec_pcie (s : State) (e : Nat) (v : Vec) : (s.setVec e v).pcie = s.pcie := rfl
@[simp] theorem State.setVec_maint (s : State) (e : Nat) (v : Vec) : (s.setVec e v).maint = s.maint := rfl
@[simp] theorem State.setVec_dieReset (s : State) (e : Nat) (v : Vec) : (s.setVec e v).dieReset = s.dieReset := rfl
@[simp] theorem State.setVec_resetReq (s : State) (e : Nat) (v : Vec) : (s.setVec e v).resetReq = s.resetReq := rfl
@[simp] theorem State.setVec_stackFail (s : State) (e : Nat) (v : Vec) : (s.setVec e v).stackFail = s.stackFail := rfl

/-! ## State.setYoyo -/

@[simp] theorem State.setYoyo_pending (s : State) (d : Nat) (y : Yoyo) : (s.setYoyo d y).pending = s.pending := rfl
@[simp] theorem State.setYoyo_free (s : State) (d : Nat) (y : Yoyo) : (s.setYoyo d y).free = s.free := rfl
@[simp] theorem State.setYoyo_readData (s : State) (d : Nat) (y : Yoyo) : (s.setYoyo d y).readData = s.readData := rfl
@[simp] theorem State.setYoyo_readBytes (s : State) (d : Nat) (y : Yoyo) : (s.setYoyo d y).readBytes = s.readBytes := rfl
@[simp] theorem State.setYoyo_regs (s : State) (d : Nat) (y : Yoyo) : (s.setYoyo d y).regs = s.regs := rfl
@[simp] theorem State.setYoyo_latches (s : State) (d : Nat) (y : Yoyo) : (s.setYoyo d y).latches = s.latches := rfl
@[simp] theorem State.setYoyo_staging (s : State) (d : Nat) (y : Yoyo) : (s.setYoyo d y).staging = s.staging := rfl
@[simp] theorem State.setYoyo_mem (s : State) (d : Nat) (y : Yoyo) : (s.setYoyo d y).mem = s.mem := rfl
@[simp] theorem State.setYoyo_badWords (s : State) (d : Nat) (y : Yoyo) : (s.setYoyo d y).badWords = s.badWords := rfl
@[simp] theorem State.setYoyo_host (s : State) (d : Nat) (y : Yoyo) : (s.setYoyo d y).host = s.host := rfl
@[simp] theorem State.setYoyo_tick (s : State) (d : Nat) (y : Yoyo) : (s.setYoyo d y).tick = s.tick := rfl
@[simp] theorem State.setYoyo_binding (s : State) (d : Nat) (y : Yoyo) : (s.setYoyo d y).binding = s.binding := rfl
@[simp] theorem State.setYoyo_engines (s : State) (d : Nat) (y : Yoyo) : (s.setYoyo d y).engines = s.engines := rfl
@[simp] theorem State.setYoyo_cores (s : State) (d : Nat) (y : Yoyo) : (s.setYoyo d y).cores = s.cores := rfl
@[simp] theorem State.setYoyo_tokenQ (s : State) (d : Nat) (y : Yoyo) : (s.setYoyo d y).tokenQ = s.tokenQ := rfl
@[simp] theorem State.setYoyo_tokenLast (s : State) (d : Nat) (y : Yoyo) : (s.setYoyo d y).tokenLast = s.tokenLast := rfl
@[simp] theorem State.setYoyo_vecs (s : State) (d : Nat) (y : Yoyo) : (s.setYoyo d y).vecs = s.vecs := rfl
@[simp] theorem State.setYoyo_yoyos (s : State) (d : Nat) (y : Yoyo) : (s.setYoyo d y).yoyos = listPut {} 2 s.yoyos d y := rfl
@[simp] theorem State.setYoyo_kvTable (s : State) (d : Nat) (y : Yoyo) : (s.setYoyo d y).kvTable = s.kvTable := rfl
@[simp] theorem State.setYoyo_kv (s : State) (d : Nat) (y : Yoyo) : (s.setYoyo d y).kv = s.kv := rfl
@[simp] theorem State.setYoyo_att (s : State) (d : Nat) (y : Yoyo) : (s.setYoyo d y).att = s.att := rfl
@[simp] theorem State.setYoyo_bushels (s : State) (d : Nat) (y : Yoyo) : (s.setYoyo d y).bushels = s.bushels := rfl
@[simp] theorem State.setYoyo_rauQ (s : State) (d : Nat) (y : Yoyo) : (s.setYoyo d y).rauQ = s.rauQ := rfl
@[simp] theorem State.setYoyo_rauSeq (s : State) (d : Nat) (y : Yoyo) : (s.setYoyo d y).rauSeq = s.rauSeq := rfl
@[simp] theorem State.setYoyo_ends (s : State) (d : Nat) (y : Yoyo) : (s.setYoyo d y).ends = s.ends := rfl
@[simp] theorem State.setYoyo_verdict (s : State) (d : Nat) (y : Yoyo) : (s.setYoyo d y).verdict = s.verdict := rfl
@[simp] theorem State.setYoyo_upd (s : State) (d : Nat) (y : Yoyo) : (s.setYoyo d y).upd = s.upd := rfl
@[simp] theorem State.setYoyo_rules (s : State) (d : Nat) (y : Yoyo) : (s.setYoyo d y).rules = s.rules := rfl
@[simp] theorem State.setYoyo_ports (s : State) (d : Nat) (y : Yoyo) : (s.setYoyo d y).ports = s.ports := rfl
@[simp] theorem State.setYoyo_localQ (s : State) (d : Nat) (y : Yoyo) : (s.setYoyo d y).localQ = s.localQ := rfl
@[simp] theorem State.setYoyo_snap (s : State) (d : Nat) (y : Yoyo) : (s.setYoyo d y).snap = s.snap := rfl
@[simp] theorem State.setYoyo_tel (s : State) (d : Nat) (y : Yoyo) : (s.setYoyo d y).tel = s.tel := rfl
@[simp] theorem State.setYoyo_clk (s : State) (d : Nat) (y : Yoyo) : (s.setYoyo d y).clk = s.clk := rfl
@[simp] theorem State.setYoyo_budget (s : State) (d : Nat) (y : Yoyo) : (s.setYoyo d y).budget = s.budget := rfl
@[simp] theorem State.setYoyo_mon (s : State) (d : Nat) (y : Yoyo) : (s.setYoyo d y).mon = s.mon := rfl
@[simp] theorem State.setYoyo_halt (s : State) (d : Nat) (y : Yoyo) : (s.setYoyo d y).halt = s.halt := rfl
@[simp] theorem State.setYoyo_inst (s : State) (d : Nat) (y : Yoyo) : (s.setYoyo d y).inst = s.inst := rfl
@[simp] theorem State.setYoyo_nvm (s : State) (d : Nat) (y : Yoyo) : (s.setYoyo d y).nvm = s.nvm := rfl
@[simp] theorem State.setYoyo_fw (s : State) (d : Nat) (y : Yoyo) : (s.setYoyo d y).fw = s.fw := rfl
@[simp] theorem State.setYoyo_sec (s : State) (d : Nat) (y : Yoyo) : (s.setYoyo d y).sec = s.sec := rfl
@[simp] theorem State.setYoyo_spdm (s : State) (d : Nat) (y : Yoyo) : (s.setYoyo d y).spdm = s.spdm := rfl
@[simp] theorem State.setYoyo_i3c (s : State) (d : Nat) (y : Yoyo) : (s.setYoyo d y).i3c = s.i3c := rfl
@[simp] theorem State.setYoyo_pcie (s : State) (d : Nat) (y : Yoyo) : (s.setYoyo d y).pcie = s.pcie := rfl
@[simp] theorem State.setYoyo_maint (s : State) (d : Nat) (y : Yoyo) : (s.setYoyo d y).maint = s.maint := rfl
@[simp] theorem State.setYoyo_dieReset (s : State) (d : Nat) (y : Yoyo) : (s.setYoyo d y).dieReset = s.dieReset := rfl
@[simp] theorem State.setYoyo_resetReq (s : State) (d : Nat) (y : Yoyo) : (s.setYoyo d y).resetReq = s.resetReq := rfl
@[simp] theorem State.setYoyo_stackFail (s : State) (d : Nat) (y : Yoyo) : (s.setYoyo d y).stackFail = s.stackFail := rfl

/-! ## State.setPort -/

@[simp] theorem State.setPort_pending (s : State) (p : Nat) (v : Port) : (s.setPort p v).pending = s.pending := rfl
@[simp] theorem State.setPort_free (s : State) (p : Nat) (v : Port) : (s.setPort p v).free = s.free := rfl
@[simp] theorem State.setPort_readData (s : State) (p : Nat) (v : Port) : (s.setPort p v).readData = s.readData := rfl
@[simp] theorem State.setPort_readBytes (s : State) (p : Nat) (v : Port) : (s.setPort p v).readBytes = s.readBytes := rfl
@[simp] theorem State.setPort_regs (s : State) (p : Nat) (v : Port) : (s.setPort p v).regs = s.regs := rfl
@[simp] theorem State.setPort_latches (s : State) (p : Nat) (v : Port) : (s.setPort p v).latches = s.latches := rfl
@[simp] theorem State.setPort_staging (s : State) (p : Nat) (v : Port) : (s.setPort p v).staging = s.staging := rfl
@[simp] theorem State.setPort_mem (s : State) (p : Nat) (v : Port) : (s.setPort p v).mem = s.mem := rfl
@[simp] theorem State.setPort_badWords (s : State) (p : Nat) (v : Port) : (s.setPort p v).badWords = s.badWords := rfl
@[simp] theorem State.setPort_host (s : State) (p : Nat) (v : Port) : (s.setPort p v).host = s.host := rfl
@[simp] theorem State.setPort_tick (s : State) (p : Nat) (v : Port) : (s.setPort p v).tick = s.tick := rfl
@[simp] theorem State.setPort_binding (s : State) (p : Nat) (v : Port) : (s.setPort p v).binding = s.binding := rfl
@[simp] theorem State.setPort_engines (s : State) (p : Nat) (v : Port) : (s.setPort p v).engines = s.engines := rfl
@[simp] theorem State.setPort_cores (s : State) (p : Nat) (v : Port) : (s.setPort p v).cores = s.cores := rfl
@[simp] theorem State.setPort_tokenQ (s : State) (p : Nat) (v : Port) : (s.setPort p v).tokenQ = s.tokenQ := rfl
@[simp] theorem State.setPort_tokenLast (s : State) (p : Nat) (v : Port) : (s.setPort p v).tokenLast = s.tokenLast := rfl
@[simp] theorem State.setPort_vecs (s : State) (p : Nat) (v : Port) : (s.setPort p v).vecs = s.vecs := rfl
@[simp] theorem State.setPort_yoyos (s : State) (p : Nat) (v : Port) : (s.setPort p v).yoyos = s.yoyos := rfl
@[simp] theorem State.setPort_kvTable (s : State) (p : Nat) (v : Port) : (s.setPort p v).kvTable = s.kvTable := rfl
@[simp] theorem State.setPort_kv (s : State) (p : Nat) (v : Port) : (s.setPort p v).kv = s.kv := rfl
@[simp] theorem State.setPort_att (s : State) (p : Nat) (v : Port) : (s.setPort p v).att = s.att := rfl
@[simp] theorem State.setPort_bushels (s : State) (p : Nat) (v : Port) : (s.setPort p v).bushels = s.bushels := rfl
@[simp] theorem State.setPort_rauQ (s : State) (p : Nat) (v : Port) : (s.setPort p v).rauQ = s.rauQ := rfl
@[simp] theorem State.setPort_rauSeq (s : State) (p : Nat) (v : Port) : (s.setPort p v).rauSeq = s.rauSeq := rfl
@[simp] theorem State.setPort_ends (s : State) (p : Nat) (v : Port) : (s.setPort p v).ends = s.ends := rfl
@[simp] theorem State.setPort_verdict (s : State) (p : Nat) (v : Port) : (s.setPort p v).verdict = s.verdict := rfl
@[simp] theorem State.setPort_upd (s : State) (p : Nat) (v : Port) : (s.setPort p v).upd = s.upd := rfl
@[simp] theorem State.setPort_rules (s : State) (p : Nat) (v : Port) : (s.setPort p v).rules = s.rules := rfl
@[simp] theorem State.setPort_ports (s : State) (p : Nat) (v : Port) : (s.setPort p v).ports = listPut {} 4 s.ports p v := rfl
@[simp] theorem State.setPort_localQ (s : State) (p : Nat) (v : Port) : (s.setPort p v).localQ = s.localQ := rfl
@[simp] theorem State.setPort_snap (s : State) (p : Nat) (v : Port) : (s.setPort p v).snap = s.snap := rfl
@[simp] theorem State.setPort_tel (s : State) (p : Nat) (v : Port) : (s.setPort p v).tel = s.tel := rfl
@[simp] theorem State.setPort_clk (s : State) (p : Nat) (v : Port) : (s.setPort p v).clk = s.clk := rfl
@[simp] theorem State.setPort_budget (s : State) (p : Nat) (v : Port) : (s.setPort p v).budget = s.budget := rfl
@[simp] theorem State.setPort_mon (s : State) (p : Nat) (v : Port) : (s.setPort p v).mon = s.mon := rfl
@[simp] theorem State.setPort_halt (s : State) (p : Nat) (v : Port) : (s.setPort p v).halt = s.halt := rfl
@[simp] theorem State.setPort_inst (s : State) (p : Nat) (v : Port) : (s.setPort p v).inst = s.inst := rfl
@[simp] theorem State.setPort_nvm (s : State) (p : Nat) (v : Port) : (s.setPort p v).nvm = s.nvm := rfl
@[simp] theorem State.setPort_fw (s : State) (p : Nat) (v : Port) : (s.setPort p v).fw = s.fw := rfl
@[simp] theorem State.setPort_sec (s : State) (p : Nat) (v : Port) : (s.setPort p v).sec = s.sec := rfl
@[simp] theorem State.setPort_spdm (s : State) (p : Nat) (v : Port) : (s.setPort p v).spdm = s.spdm := rfl
@[simp] theorem State.setPort_i3c (s : State) (p : Nat) (v : Port) : (s.setPort p v).i3c = s.i3c := rfl
@[simp] theorem State.setPort_pcie (s : State) (p : Nat) (v : Port) : (s.setPort p v).pcie = s.pcie := rfl
@[simp] theorem State.setPort_maint (s : State) (p : Nat) (v : Port) : (s.setPort p v).maint = s.maint := rfl
@[simp] theorem State.setPort_dieReset (s : State) (p : Nat) (v : Port) : (s.setPort p v).dieReset = s.dieReset := rfl
@[simp] theorem State.setPort_resetReq (s : State) (p : Nat) (v : Port) : (s.setPort p v).resetReq = s.resetReq := rfl
@[simp] theorem State.setPort_stackFail (s : State) (p : Nat) (v : Port) : (s.setPort p v).stackFail = s.stackFail := rfl

/-! ## State.setRing -/

@[simp] theorem State.setRing_pending (s : State) (r : Nat) (v : Ring) : (s.setRing r v).pending = s.pending := rfl
@[simp] theorem State.setRing_free (s : State) (r : Nat) (v : Ring) : (s.setRing r v).free = s.free := rfl
@[simp] theorem State.setRing_readData (s : State) (r : Nat) (v : Ring) : (s.setRing r v).readData = s.readData := rfl
@[simp] theorem State.setRing_readBytes (s : State) (r : Nat) (v : Ring) : (s.setRing r v).readBytes = s.readBytes := rfl
@[simp] theorem State.setRing_regs (s : State) (r : Nat) (v : Ring) : (s.setRing r v).regs = s.regs := rfl
@[simp] theorem State.setRing_latches (s : State) (r : Nat) (v : Ring) : (s.setRing r v).latches = s.latches := rfl
@[simp] theorem State.setRing_staging (s : State) (r : Nat) (v : Ring) : (s.setRing r v).staging = s.staging := rfl
@[simp] theorem State.setRing_mem (s : State) (r : Nat) (v : Ring) : (s.setRing r v).mem = s.mem := rfl
@[simp] theorem State.setRing_badWords (s : State) (r : Nat) (v : Ring) : (s.setRing r v).badWords = s.badWords := rfl
@[simp] theorem State.setRing_host (s : State) (r : Nat) (v : Ring) : (s.setRing r v).host = { s.host with rings := listPut {} 4 s.host.rings r v } := rfl
@[simp] theorem State.setRing_tick (s : State) (r : Nat) (v : Ring) : (s.setRing r v).tick = s.tick := rfl
@[simp] theorem State.setRing_binding (s : State) (r : Nat) (v : Ring) : (s.setRing r v).binding = s.binding := rfl
@[simp] theorem State.setRing_engines (s : State) (r : Nat) (v : Ring) : (s.setRing r v).engines = s.engines := rfl
@[simp] theorem State.setRing_cores (s : State) (r : Nat) (v : Ring) : (s.setRing r v).cores = s.cores := rfl
@[simp] theorem State.setRing_tokenQ (s : State) (r : Nat) (v : Ring) : (s.setRing r v).tokenQ = s.tokenQ := rfl
@[simp] theorem State.setRing_tokenLast (s : State) (r : Nat) (v : Ring) : (s.setRing r v).tokenLast = s.tokenLast := rfl
@[simp] theorem State.setRing_vecs (s : State) (r : Nat) (v : Ring) : (s.setRing r v).vecs = s.vecs := rfl
@[simp] theorem State.setRing_yoyos (s : State) (r : Nat) (v : Ring) : (s.setRing r v).yoyos = s.yoyos := rfl
@[simp] theorem State.setRing_kvTable (s : State) (r : Nat) (v : Ring) : (s.setRing r v).kvTable = s.kvTable := rfl
@[simp] theorem State.setRing_kv (s : State) (r : Nat) (v : Ring) : (s.setRing r v).kv = s.kv := rfl
@[simp] theorem State.setRing_att (s : State) (r : Nat) (v : Ring) : (s.setRing r v).att = s.att := rfl
@[simp] theorem State.setRing_bushels (s : State) (r : Nat) (v : Ring) : (s.setRing r v).bushels = s.bushels := rfl
@[simp] theorem State.setRing_rauQ (s : State) (r : Nat) (v : Ring) : (s.setRing r v).rauQ = s.rauQ := rfl
@[simp] theorem State.setRing_rauSeq (s : State) (r : Nat) (v : Ring) : (s.setRing r v).rauSeq = s.rauSeq := rfl
@[simp] theorem State.setRing_ends (s : State) (r : Nat) (v : Ring) : (s.setRing r v).ends = s.ends := rfl
@[simp] theorem State.setRing_verdict (s : State) (r : Nat) (v : Ring) : (s.setRing r v).verdict = s.verdict := rfl
@[simp] theorem State.setRing_upd (s : State) (r : Nat) (v : Ring) : (s.setRing r v).upd = s.upd := rfl
@[simp] theorem State.setRing_rules (s : State) (r : Nat) (v : Ring) : (s.setRing r v).rules = s.rules := rfl
@[simp] theorem State.setRing_ports (s : State) (r : Nat) (v : Ring) : (s.setRing r v).ports = s.ports := rfl
@[simp] theorem State.setRing_localQ (s : State) (r : Nat) (v : Ring) : (s.setRing r v).localQ = s.localQ := rfl
@[simp] theorem State.setRing_snap (s : State) (r : Nat) (v : Ring) : (s.setRing r v).snap = s.snap := rfl
@[simp] theorem State.setRing_tel (s : State) (r : Nat) (v : Ring) : (s.setRing r v).tel = s.tel := rfl
@[simp] theorem State.setRing_clk (s : State) (r : Nat) (v : Ring) : (s.setRing r v).clk = s.clk := rfl
@[simp] theorem State.setRing_budget (s : State) (r : Nat) (v : Ring) : (s.setRing r v).budget = s.budget := rfl
@[simp] theorem State.setRing_mon (s : State) (r : Nat) (v : Ring) : (s.setRing r v).mon = s.mon := rfl
@[simp] theorem State.setRing_halt (s : State) (r : Nat) (v : Ring) : (s.setRing r v).halt = s.halt := rfl
@[simp] theorem State.setRing_inst (s : State) (r : Nat) (v : Ring) : (s.setRing r v).inst = s.inst := rfl
@[simp] theorem State.setRing_nvm (s : State) (r : Nat) (v : Ring) : (s.setRing r v).nvm = s.nvm := rfl
@[simp] theorem State.setRing_fw (s : State) (r : Nat) (v : Ring) : (s.setRing r v).fw = s.fw := rfl
@[simp] theorem State.setRing_sec (s : State) (r : Nat) (v : Ring) : (s.setRing r v).sec = s.sec := rfl
@[simp] theorem State.setRing_spdm (s : State) (r : Nat) (v : Ring) : (s.setRing r v).spdm = s.spdm := rfl
@[simp] theorem State.setRing_i3c (s : State) (r : Nat) (v : Ring) : (s.setRing r v).i3c = s.i3c := rfl
@[simp] theorem State.setRing_pcie (s : State) (r : Nat) (v : Ring) : (s.setRing r v).pcie = s.pcie := rfl
@[simp] theorem State.setRing_maint (s : State) (r : Nat) (v : Ring) : (s.setRing r v).maint = s.maint := rfl
@[simp] theorem State.setRing_dieReset (s : State) (r : Nat) (v : Ring) : (s.setRing r v).dieReset = s.dieReset := rfl
@[simp] theorem State.setRing_resetReq (s : State) (r : Nat) (v : Ring) : (s.setRing r v).resetReq = s.resetReq := rfl
@[simp] theorem State.setRing_stackFail (s : State) (r : Nat) (v : Ring) : (s.setRing r v).stackFail = s.stackFail := rfl

/-! ## State.poke -/

@[simp] theorem State.poke_pending (s : State) (a : Nat) (bs : List Byte) : (s.poke a bs).pending = s.pending := rfl
@[simp] theorem State.poke_free (s : State) (a : Nat) (bs : List Byte) : (s.poke a bs).free = s.free := rfl
@[simp] theorem State.poke_readData (s : State) (a : Nat) (bs : List Byte) : (s.poke a bs).readData = s.readData := rfl
@[simp] theorem State.poke_readBytes (s : State) (a : Nat) (bs : List Byte) : (s.poke a bs).readBytes = s.readBytes := rfl
@[simp] theorem State.poke_regs (s : State) (a : Nat) (bs : List Byte) : (s.poke a bs).regs = s.regs := rfl
@[simp] theorem State.poke_latches (s : State) (a : Nat) (bs : List Byte) : (s.poke a bs).latches = s.latches := rfl
@[simp] theorem State.poke_staging (s : State) (a : Nat) (bs : List Byte) : (s.poke a bs).staging = s.staging := rfl
@[simp] theorem State.poke_mem (s : State) (a : Nat) (bs : List Byte) : (s.poke a bs).mem = Tbl.setMany memDefault s.mem a bs := rfl
@[simp] theorem State.poke_badWords (s : State) (a : Nat) (bs : List Byte) : (s.poke a bs).badWords = s.badWords := rfl
@[simp] theorem State.poke_host (s : State) (a : Nat) (bs : List Byte) : (s.poke a bs).host = s.host := rfl
@[simp] theorem State.poke_tick (s : State) (a : Nat) (bs : List Byte) : (s.poke a bs).tick = s.tick := rfl
@[simp] theorem State.poke_binding (s : State) (a : Nat) (bs : List Byte) : (s.poke a bs).binding = s.binding := rfl
@[simp] theorem State.poke_engines (s : State) (a : Nat) (bs : List Byte) : (s.poke a bs).engines = s.engines := rfl
@[simp] theorem State.poke_cores (s : State) (a : Nat) (bs : List Byte) : (s.poke a bs).cores = s.cores := rfl
@[simp] theorem State.poke_tokenQ (s : State) (a : Nat) (bs : List Byte) : (s.poke a bs).tokenQ = s.tokenQ := rfl
@[simp] theorem State.poke_tokenLast (s : State) (a : Nat) (bs : List Byte) : (s.poke a bs).tokenLast = s.tokenLast := rfl
@[simp] theorem State.poke_vecs (s : State) (a : Nat) (bs : List Byte) : (s.poke a bs).vecs = s.vecs := rfl
@[simp] theorem State.poke_yoyos (s : State) (a : Nat) (bs : List Byte) : (s.poke a bs).yoyos = s.yoyos := rfl
@[simp] theorem State.poke_kvTable (s : State) (a : Nat) (bs : List Byte) : (s.poke a bs).kvTable = s.kvTable := rfl
@[simp] theorem State.poke_kv (s : State) (a : Nat) (bs : List Byte) : (s.poke a bs).kv = s.kv := rfl
@[simp] theorem State.poke_att (s : State) (a : Nat) (bs : List Byte) : (s.poke a bs).att = s.att := rfl
@[simp] theorem State.poke_bushels (s : State) (a : Nat) (bs : List Byte) : (s.poke a bs).bushels = s.bushels := rfl
@[simp] theorem State.poke_rauQ (s : State) (a : Nat) (bs : List Byte) : (s.poke a bs).rauQ = s.rauQ := rfl
@[simp] theorem State.poke_rauSeq (s : State) (a : Nat) (bs : List Byte) : (s.poke a bs).rauSeq = s.rauSeq := rfl
@[simp] theorem State.poke_ends (s : State) (a : Nat) (bs : List Byte) : (s.poke a bs).ends = s.ends := rfl
@[simp] theorem State.poke_verdict (s : State) (a : Nat) (bs : List Byte) : (s.poke a bs).verdict = s.verdict := rfl
@[simp] theorem State.poke_upd (s : State) (a : Nat) (bs : List Byte) : (s.poke a bs).upd = s.upd := rfl
@[simp] theorem State.poke_rules (s : State) (a : Nat) (bs : List Byte) : (s.poke a bs).rules = s.rules := rfl
@[simp] theorem State.poke_ports (s : State) (a : Nat) (bs : List Byte) : (s.poke a bs).ports = s.ports := rfl
@[simp] theorem State.poke_localQ (s : State) (a : Nat) (bs : List Byte) : (s.poke a bs).localQ = s.localQ := rfl
@[simp] theorem State.poke_snap (s : State) (a : Nat) (bs : List Byte) : (s.poke a bs).snap = s.snap := rfl
@[simp] theorem State.poke_tel (s : State) (a : Nat) (bs : List Byte) : (s.poke a bs).tel = s.tel := rfl
@[simp] theorem State.poke_clk (s : State) (a : Nat) (bs : List Byte) : (s.poke a bs).clk = s.clk := rfl
@[simp] theorem State.poke_budget (s : State) (a : Nat) (bs : List Byte) : (s.poke a bs).budget = s.budget := rfl
@[simp] theorem State.poke_mon (s : State) (a : Nat) (bs : List Byte) : (s.poke a bs).mon = s.mon := rfl
@[simp] theorem State.poke_halt (s : State) (a : Nat) (bs : List Byte) : (s.poke a bs).halt = s.halt := rfl
@[simp] theorem State.poke_inst (s : State) (a : Nat) (bs : List Byte) : (s.poke a bs).inst = s.inst := rfl
@[simp] theorem State.poke_nvm (s : State) (a : Nat) (bs : List Byte) : (s.poke a bs).nvm = s.nvm := rfl
@[simp] theorem State.poke_fw (s : State) (a : Nat) (bs : List Byte) : (s.poke a bs).fw = s.fw := rfl
@[simp] theorem State.poke_sec (s : State) (a : Nat) (bs : List Byte) : (s.poke a bs).sec = s.sec := rfl
@[simp] theorem State.poke_spdm (s : State) (a : Nat) (bs : List Byte) : (s.poke a bs).spdm = s.spdm := rfl
@[simp] theorem State.poke_i3c (s : State) (a : Nat) (bs : List Byte) : (s.poke a bs).i3c = s.i3c := rfl
@[simp] theorem State.poke_pcie (s : State) (a : Nat) (bs : List Byte) : (s.poke a bs).pcie = s.pcie := rfl
@[simp] theorem State.poke_maint (s : State) (a : Nat) (bs : List Byte) : (s.poke a bs).maint = s.maint := rfl
@[simp] theorem State.poke_dieReset (s : State) (a : Nat) (bs : List Byte) : (s.poke a bs).dieReset = s.dieReset := rfl
@[simp] theorem State.poke_resetReq (s : State) (a : Nat) (bs : List Byte) : (s.poke a bs).resetReq = s.resetReq := rfl
@[simp] theorem State.poke_stackFail (s : State) (a : Nat) (bs : List Byte) : (s.poke a bs).stackFail = s.stackFail := rfl

/-! ## State.hostPoke -/

@[simp] theorem State.hostPoke_pending (s : State) (a : Nat) (bs : List Byte) : (s.hostPoke a bs).pending = s.pending := rfl
@[simp] theorem State.hostPoke_free (s : State) (a : Nat) (bs : List Byte) : (s.hostPoke a bs).free = s.free := rfl
@[simp] theorem State.hostPoke_readData (s : State) (a : Nat) (bs : List Byte) : (s.hostPoke a bs).readData = s.readData := rfl
@[simp] theorem State.hostPoke_readBytes (s : State) (a : Nat) (bs : List Byte) : (s.hostPoke a bs).readBytes = s.readBytes := rfl
@[simp] theorem State.hostPoke_regs (s : State) (a : Nat) (bs : List Byte) : (s.hostPoke a bs).regs = s.regs := rfl
@[simp] theorem State.hostPoke_latches (s : State) (a : Nat) (bs : List Byte) : (s.hostPoke a bs).latches = s.latches := rfl
@[simp] theorem State.hostPoke_staging (s : State) (a : Nat) (bs : List Byte) : (s.hostPoke a bs).staging = s.staging := rfl
@[simp] theorem State.hostPoke_mem (s : State) (a : Nat) (bs : List Byte) : (s.hostPoke a bs).mem = s.mem := rfl
@[simp] theorem State.hostPoke_badWords (s : State) (a : Nat) (bs : List Byte) : (s.hostPoke a bs).badWords = s.badWords := rfl
@[simp] theorem State.hostPoke_host (s : State) (a : Nat) (bs : List Byte) : (s.hostPoke a bs).host = { s.host with mem := Tbl.setMany hostDefault s.host.mem a bs } := rfl
@[simp] theorem State.hostPoke_tick (s : State) (a : Nat) (bs : List Byte) : (s.hostPoke a bs).tick = s.tick := rfl
@[simp] theorem State.hostPoke_binding (s : State) (a : Nat) (bs : List Byte) : (s.hostPoke a bs).binding = s.binding := rfl
@[simp] theorem State.hostPoke_engines (s : State) (a : Nat) (bs : List Byte) : (s.hostPoke a bs).engines = s.engines := rfl
@[simp] theorem State.hostPoke_cores (s : State) (a : Nat) (bs : List Byte) : (s.hostPoke a bs).cores = s.cores := rfl
@[simp] theorem State.hostPoke_tokenQ (s : State) (a : Nat) (bs : List Byte) : (s.hostPoke a bs).tokenQ = s.tokenQ := rfl
@[simp] theorem State.hostPoke_tokenLast (s : State) (a : Nat) (bs : List Byte) : (s.hostPoke a bs).tokenLast = s.tokenLast := rfl
@[simp] theorem State.hostPoke_vecs (s : State) (a : Nat) (bs : List Byte) : (s.hostPoke a bs).vecs = s.vecs := rfl
@[simp] theorem State.hostPoke_yoyos (s : State) (a : Nat) (bs : List Byte) : (s.hostPoke a bs).yoyos = s.yoyos := rfl
@[simp] theorem State.hostPoke_kvTable (s : State) (a : Nat) (bs : List Byte) : (s.hostPoke a bs).kvTable = s.kvTable := rfl
@[simp] theorem State.hostPoke_kv (s : State) (a : Nat) (bs : List Byte) : (s.hostPoke a bs).kv = s.kv := rfl
@[simp] theorem State.hostPoke_att (s : State) (a : Nat) (bs : List Byte) : (s.hostPoke a bs).att = s.att := rfl
@[simp] theorem State.hostPoke_bushels (s : State) (a : Nat) (bs : List Byte) : (s.hostPoke a bs).bushels = s.bushels := rfl
@[simp] theorem State.hostPoke_rauQ (s : State) (a : Nat) (bs : List Byte) : (s.hostPoke a bs).rauQ = s.rauQ := rfl
@[simp] theorem State.hostPoke_rauSeq (s : State) (a : Nat) (bs : List Byte) : (s.hostPoke a bs).rauSeq = s.rauSeq := rfl
@[simp] theorem State.hostPoke_ends (s : State) (a : Nat) (bs : List Byte) : (s.hostPoke a bs).ends = s.ends := rfl
@[simp] theorem State.hostPoke_verdict (s : State) (a : Nat) (bs : List Byte) : (s.hostPoke a bs).verdict = s.verdict := rfl
@[simp] theorem State.hostPoke_upd (s : State) (a : Nat) (bs : List Byte) : (s.hostPoke a bs).upd = s.upd := rfl
@[simp] theorem State.hostPoke_rules (s : State) (a : Nat) (bs : List Byte) : (s.hostPoke a bs).rules = s.rules := rfl
@[simp] theorem State.hostPoke_ports (s : State) (a : Nat) (bs : List Byte) : (s.hostPoke a bs).ports = s.ports := rfl
@[simp] theorem State.hostPoke_localQ (s : State) (a : Nat) (bs : List Byte) : (s.hostPoke a bs).localQ = s.localQ := rfl
@[simp] theorem State.hostPoke_snap (s : State) (a : Nat) (bs : List Byte) : (s.hostPoke a bs).snap = s.snap := rfl
@[simp] theorem State.hostPoke_tel (s : State) (a : Nat) (bs : List Byte) : (s.hostPoke a bs).tel = s.tel := rfl
@[simp] theorem State.hostPoke_clk (s : State) (a : Nat) (bs : List Byte) : (s.hostPoke a bs).clk = s.clk := rfl
@[simp] theorem State.hostPoke_budget (s : State) (a : Nat) (bs : List Byte) : (s.hostPoke a bs).budget = s.budget := rfl
@[simp] theorem State.hostPoke_mon (s : State) (a : Nat) (bs : List Byte) : (s.hostPoke a bs).mon = s.mon := rfl
@[simp] theorem State.hostPoke_halt (s : State) (a : Nat) (bs : List Byte) : (s.hostPoke a bs).halt = s.halt := rfl
@[simp] theorem State.hostPoke_inst (s : State) (a : Nat) (bs : List Byte) : (s.hostPoke a bs).inst = s.inst := rfl
@[simp] theorem State.hostPoke_nvm (s : State) (a : Nat) (bs : List Byte) : (s.hostPoke a bs).nvm = s.nvm := rfl
@[simp] theorem State.hostPoke_fw (s : State) (a : Nat) (bs : List Byte) : (s.hostPoke a bs).fw = s.fw := rfl
@[simp] theorem State.hostPoke_sec (s : State) (a : Nat) (bs : List Byte) : (s.hostPoke a bs).sec = s.sec := rfl
@[simp] theorem State.hostPoke_spdm (s : State) (a : Nat) (bs : List Byte) : (s.hostPoke a bs).spdm = s.spdm := rfl
@[simp] theorem State.hostPoke_i3c (s : State) (a : Nat) (bs : List Byte) : (s.hostPoke a bs).i3c = s.i3c := rfl
@[simp] theorem State.hostPoke_pcie (s : State) (a : Nat) (bs : List Byte) : (s.hostPoke a bs).pcie = s.pcie := rfl
@[simp] theorem State.hostPoke_maint (s : State) (a : Nat) (bs : List Byte) : (s.hostPoke a bs).maint = s.maint := rfl
@[simp] theorem State.hostPoke_dieReset (s : State) (a : Nat) (bs : List Byte) : (s.hostPoke a bs).dieReset = s.dieReset := rfl
@[simp] theorem State.hostPoke_resetReq (s : State) (a : Nat) (bs : List Byte) : (s.hostPoke a bs).resetReq = s.resetReq := rfl
@[simp] theorem State.hostPoke_stackFail (s : State) (a : Nat) (bs : List Byte) : (s.hostPoke a bs).stackFail = s.stackFail := rfl

/-! ## State.dropLatch -/

@[simp] theorem State.dropLatch_pending (s : State) (off : Nat) : (s.dropLatch off).pending = s.pending := rfl
@[simp] theorem State.dropLatch_free (s : State) (off : Nat) : (s.dropLatch off).free = s.free := rfl
@[simp] theorem State.dropLatch_readData (s : State) (off : Nat) : (s.dropLatch off).readData = s.readData := rfl
@[simp] theorem State.dropLatch_readBytes (s : State) (off : Nat) : (s.dropLatch off).readBytes = s.readBytes := rfl
@[simp] theorem State.dropLatch_regs (s : State) (off : Nat) : (s.dropLatch off).regs = s.regs := rfl
@[simp] theorem State.dropLatch_latches (s : State) (off : Nat) : (s.dropLatch off).latches = s.latches.filter (fun l => l.1 != off) := rfl
@[simp] theorem State.dropLatch_staging (s : State) (off : Nat) : (s.dropLatch off).staging = s.staging := rfl
@[simp] theorem State.dropLatch_mem (s : State) (off : Nat) : (s.dropLatch off).mem = s.mem := rfl
@[simp] theorem State.dropLatch_badWords (s : State) (off : Nat) : (s.dropLatch off).badWords = s.badWords := rfl
@[simp] theorem State.dropLatch_host (s : State) (off : Nat) : (s.dropLatch off).host = s.host := rfl
@[simp] theorem State.dropLatch_tick (s : State) (off : Nat) : (s.dropLatch off).tick = s.tick := rfl
@[simp] theorem State.dropLatch_binding (s : State) (off : Nat) : (s.dropLatch off).binding = s.binding := rfl
@[simp] theorem State.dropLatch_engines (s : State) (off : Nat) : (s.dropLatch off).engines = s.engines := rfl
@[simp] theorem State.dropLatch_cores (s : State) (off : Nat) : (s.dropLatch off).cores = s.cores := rfl
@[simp] theorem State.dropLatch_tokenQ (s : State) (off : Nat) : (s.dropLatch off).tokenQ = s.tokenQ := rfl
@[simp] theorem State.dropLatch_tokenLast (s : State) (off : Nat) : (s.dropLatch off).tokenLast = s.tokenLast := rfl
@[simp] theorem State.dropLatch_vecs (s : State) (off : Nat) : (s.dropLatch off).vecs = s.vecs := rfl
@[simp] theorem State.dropLatch_yoyos (s : State) (off : Nat) : (s.dropLatch off).yoyos = s.yoyos := rfl
@[simp] theorem State.dropLatch_kvTable (s : State) (off : Nat) : (s.dropLatch off).kvTable = s.kvTable := rfl
@[simp] theorem State.dropLatch_kv (s : State) (off : Nat) : (s.dropLatch off).kv = s.kv := rfl
@[simp] theorem State.dropLatch_att (s : State) (off : Nat) : (s.dropLatch off).att = s.att := rfl
@[simp] theorem State.dropLatch_bushels (s : State) (off : Nat) : (s.dropLatch off).bushels = s.bushels := rfl
@[simp] theorem State.dropLatch_rauQ (s : State) (off : Nat) : (s.dropLatch off).rauQ = s.rauQ := rfl
@[simp] theorem State.dropLatch_rauSeq (s : State) (off : Nat) : (s.dropLatch off).rauSeq = s.rauSeq := rfl
@[simp] theorem State.dropLatch_ends (s : State) (off : Nat) : (s.dropLatch off).ends = s.ends := rfl
@[simp] theorem State.dropLatch_verdict (s : State) (off : Nat) : (s.dropLatch off).verdict = s.verdict := rfl
@[simp] theorem State.dropLatch_upd (s : State) (off : Nat) : (s.dropLatch off).upd = s.upd := rfl
@[simp] theorem State.dropLatch_rules (s : State) (off : Nat) : (s.dropLatch off).rules = s.rules := rfl
@[simp] theorem State.dropLatch_ports (s : State) (off : Nat) : (s.dropLatch off).ports = s.ports := rfl
@[simp] theorem State.dropLatch_localQ (s : State) (off : Nat) : (s.dropLatch off).localQ = s.localQ := rfl
@[simp] theorem State.dropLatch_snap (s : State) (off : Nat) : (s.dropLatch off).snap = s.snap := rfl
@[simp] theorem State.dropLatch_tel (s : State) (off : Nat) : (s.dropLatch off).tel = s.tel := rfl
@[simp] theorem State.dropLatch_clk (s : State) (off : Nat) : (s.dropLatch off).clk = s.clk := rfl
@[simp] theorem State.dropLatch_budget (s : State) (off : Nat) : (s.dropLatch off).budget = s.budget := rfl
@[simp] theorem State.dropLatch_mon (s : State) (off : Nat) : (s.dropLatch off).mon = s.mon := rfl
@[simp] theorem State.dropLatch_halt (s : State) (off : Nat) : (s.dropLatch off).halt = s.halt := rfl
@[simp] theorem State.dropLatch_inst (s : State) (off : Nat) : (s.dropLatch off).inst = s.inst := rfl
@[simp] theorem State.dropLatch_nvm (s : State) (off : Nat) : (s.dropLatch off).nvm = s.nvm := rfl
@[simp] theorem State.dropLatch_fw (s : State) (off : Nat) : (s.dropLatch off).fw = s.fw := rfl
@[simp] theorem State.dropLatch_sec (s : State) (off : Nat) : (s.dropLatch off).sec = s.sec := rfl
@[simp] theorem State.dropLatch_spdm (s : State) (off : Nat) : (s.dropLatch off).spdm = s.spdm := rfl
@[simp] theorem State.dropLatch_i3c (s : State) (off : Nat) : (s.dropLatch off).i3c = s.i3c := rfl
@[simp] theorem State.dropLatch_pcie (s : State) (off : Nat) : (s.dropLatch off).pcie = s.pcie := rfl
@[simp] theorem State.dropLatch_maint (s : State) (off : Nat) : (s.dropLatch off).maint = s.maint := rfl
@[simp] theorem State.dropLatch_dieReset (s : State) (off : Nat) : (s.dropLatch off).dieReset = s.dieReset := rfl
@[simp] theorem State.dropLatch_resetReq (s : State) (off : Nat) : (s.dropLatch off).resetReq = s.resetReq := rfl
@[simp] theorem State.dropLatch_stackFail (s : State) (off : Nat) : (s.dropLatch off).stackFail = s.stackFail := rfl

/-! ## State.dropStaged -/

@[simp] theorem State.dropStaged_pending (s : State) (off : Nat) : (s.dropStaged off).pending = s.pending := rfl
@[simp] theorem State.dropStaged_free (s : State) (off : Nat) : (s.dropStaged off).free = s.free := rfl
@[simp] theorem State.dropStaged_readData (s : State) (off : Nat) : (s.dropStaged off).readData = s.readData := rfl
@[simp] theorem State.dropStaged_readBytes (s : State) (off : Nat) : (s.dropStaged off).readBytes = s.readBytes := rfl
@[simp] theorem State.dropStaged_regs (s : State) (off : Nat) : (s.dropStaged off).regs = s.regs := rfl
@[simp] theorem State.dropStaged_latches (s : State) (off : Nat) : (s.dropStaged off).latches = s.latches := rfl
@[simp] theorem State.dropStaged_staging (s : State) (off : Nat) : (s.dropStaged off).staging = s.staging.filter (fun l => l.1 != off) := rfl
@[simp] theorem State.dropStaged_mem (s : State) (off : Nat) : (s.dropStaged off).mem = s.mem := rfl
@[simp] theorem State.dropStaged_badWords (s : State) (off : Nat) : (s.dropStaged off).badWords = s.badWords := rfl
@[simp] theorem State.dropStaged_host (s : State) (off : Nat) : (s.dropStaged off).host = s.host := rfl
@[simp] theorem State.dropStaged_tick (s : State) (off : Nat) : (s.dropStaged off).tick = s.tick := rfl
@[simp] theorem State.dropStaged_binding (s : State) (off : Nat) : (s.dropStaged off).binding = s.binding := rfl
@[simp] theorem State.dropStaged_engines (s : State) (off : Nat) : (s.dropStaged off).engines = s.engines := rfl
@[simp] theorem State.dropStaged_cores (s : State) (off : Nat) : (s.dropStaged off).cores = s.cores := rfl
@[simp] theorem State.dropStaged_tokenQ (s : State) (off : Nat) : (s.dropStaged off).tokenQ = s.tokenQ := rfl
@[simp] theorem State.dropStaged_tokenLast (s : State) (off : Nat) : (s.dropStaged off).tokenLast = s.tokenLast := rfl
@[simp] theorem State.dropStaged_vecs (s : State) (off : Nat) : (s.dropStaged off).vecs = s.vecs := rfl
@[simp] theorem State.dropStaged_yoyos (s : State) (off : Nat) : (s.dropStaged off).yoyos = s.yoyos := rfl
@[simp] theorem State.dropStaged_kvTable (s : State) (off : Nat) : (s.dropStaged off).kvTable = s.kvTable := rfl
@[simp] theorem State.dropStaged_kv (s : State) (off : Nat) : (s.dropStaged off).kv = s.kv := rfl
@[simp] theorem State.dropStaged_att (s : State) (off : Nat) : (s.dropStaged off).att = s.att := rfl
@[simp] theorem State.dropStaged_bushels (s : State) (off : Nat) : (s.dropStaged off).bushels = s.bushels := rfl
@[simp] theorem State.dropStaged_rauQ (s : State) (off : Nat) : (s.dropStaged off).rauQ = s.rauQ := rfl
@[simp] theorem State.dropStaged_rauSeq (s : State) (off : Nat) : (s.dropStaged off).rauSeq = s.rauSeq := rfl
@[simp] theorem State.dropStaged_ends (s : State) (off : Nat) : (s.dropStaged off).ends = s.ends := rfl
@[simp] theorem State.dropStaged_verdict (s : State) (off : Nat) : (s.dropStaged off).verdict = s.verdict := rfl
@[simp] theorem State.dropStaged_upd (s : State) (off : Nat) : (s.dropStaged off).upd = s.upd := rfl
@[simp] theorem State.dropStaged_rules (s : State) (off : Nat) : (s.dropStaged off).rules = s.rules := rfl
@[simp] theorem State.dropStaged_ports (s : State) (off : Nat) : (s.dropStaged off).ports = s.ports := rfl
@[simp] theorem State.dropStaged_localQ (s : State) (off : Nat) : (s.dropStaged off).localQ = s.localQ := rfl
@[simp] theorem State.dropStaged_snap (s : State) (off : Nat) : (s.dropStaged off).snap = s.snap := rfl
@[simp] theorem State.dropStaged_tel (s : State) (off : Nat) : (s.dropStaged off).tel = s.tel := rfl
@[simp] theorem State.dropStaged_clk (s : State) (off : Nat) : (s.dropStaged off).clk = s.clk := rfl
@[simp] theorem State.dropStaged_budget (s : State) (off : Nat) : (s.dropStaged off).budget = s.budget := rfl
@[simp] theorem State.dropStaged_mon (s : State) (off : Nat) : (s.dropStaged off).mon = s.mon := rfl
@[simp] theorem State.dropStaged_halt (s : State) (off : Nat) : (s.dropStaged off).halt = s.halt := rfl
@[simp] theorem State.dropStaged_inst (s : State) (off : Nat) : (s.dropStaged off).inst = s.inst := rfl
@[simp] theorem State.dropStaged_nvm (s : State) (off : Nat) : (s.dropStaged off).nvm = s.nvm := rfl
@[simp] theorem State.dropStaged_fw (s : State) (off : Nat) : (s.dropStaged off).fw = s.fw := rfl
@[simp] theorem State.dropStaged_sec (s : State) (off : Nat) : (s.dropStaged off).sec = s.sec := rfl
@[simp] theorem State.dropStaged_spdm (s : State) (off : Nat) : (s.dropStaged off).spdm = s.spdm := rfl
@[simp] theorem State.dropStaged_i3c (s : State) (off : Nat) : (s.dropStaged off).i3c = s.i3c := rfl
@[simp] theorem State.dropStaged_pcie (s : State) (off : Nat) : (s.dropStaged off).pcie = s.pcie := rfl
@[simp] theorem State.dropStaged_maint (s : State) (off : Nat) : (s.dropStaged off).maint = s.maint := rfl
@[simp] theorem State.dropStaged_dieReset (s : State) (off : Nat) : (s.dropStaged off).dieReset = s.dieReset := rfl
@[simp] theorem State.dropStaged_resetReq (s : State) (off : Nat) : (s.dropStaged off).resetReq = s.resetReq := rfl
@[simp] theorem State.dropStaged_stackFail (s : State) (off : Nat) : (s.dropStaged off).stackFail = s.stackFail := rfl

/-! ## State.setField -/

@[simp] theorem State.setField_pending (s : State) (off hi lo v : Nat) : (s.setField off hi lo v).pending = s.pending := rfl
@[simp] theorem State.setField_free (s : State) (off hi lo v : Nat) : (s.setField off hi lo v).free = s.free := rfl
@[simp] theorem State.setField_readData (s : State) (off hi lo v : Nat) : (s.setField off hi lo v).readData = s.readData := rfl
@[simp] theorem State.setField_readBytes (s : State) (off hi lo v : Nat) : (s.setField off hi lo v).readBytes = s.readBytes := rfl
@[simp] theorem State.setField_latches (s : State) (off hi lo v : Nat) : (s.setField off hi lo v).latches = s.latches := rfl
@[simp] theorem State.setField_staging (s : State) (off hi lo v : Nat) : (s.setField off hi lo v).staging = s.staging := rfl
@[simp] theorem State.setField_mem (s : State) (off hi lo v : Nat) : (s.setField off hi lo v).mem = s.mem := rfl
@[simp] theorem State.setField_badWords (s : State) (off hi lo v : Nat) : (s.setField off hi lo v).badWords = s.badWords := rfl
@[simp] theorem State.setField_host (s : State) (off hi lo v : Nat) : (s.setField off hi lo v).host = s.host := rfl
@[simp] theorem State.setField_tick (s : State) (off hi lo v : Nat) : (s.setField off hi lo v).tick = s.tick := rfl
@[simp] theorem State.setField_binding (s : State) (off hi lo v : Nat) : (s.setField off hi lo v).binding = s.binding := rfl
@[simp] theorem State.setField_engines (s : State) (off hi lo v : Nat) : (s.setField off hi lo v).engines = s.engines := rfl
@[simp] theorem State.setField_cores (s : State) (off hi lo v : Nat) : (s.setField off hi lo v).cores = s.cores := rfl
@[simp] theorem State.setField_tokenQ (s : State) (off hi lo v : Nat) : (s.setField off hi lo v).tokenQ = s.tokenQ := rfl
@[simp] theorem State.setField_tokenLast (s : State) (off hi lo v : Nat) : (s.setField off hi lo v).tokenLast = s.tokenLast := rfl
@[simp] theorem State.setField_vecs (s : State) (off hi lo v : Nat) : (s.setField off hi lo v).vecs = s.vecs := rfl
@[simp] theorem State.setField_yoyos (s : State) (off hi lo v : Nat) : (s.setField off hi lo v).yoyos = s.yoyos := rfl
@[simp] theorem State.setField_kvTable (s : State) (off hi lo v : Nat) : (s.setField off hi lo v).kvTable = s.kvTable := rfl
@[simp] theorem State.setField_kv (s : State) (off hi lo v : Nat) : (s.setField off hi lo v).kv = s.kv := rfl
@[simp] theorem State.setField_att (s : State) (off hi lo v : Nat) : (s.setField off hi lo v).att = s.att := rfl
@[simp] theorem State.setField_bushels (s : State) (off hi lo v : Nat) : (s.setField off hi lo v).bushels = s.bushels := rfl
@[simp] theorem State.setField_rauQ (s : State) (off hi lo v : Nat) : (s.setField off hi lo v).rauQ = s.rauQ := rfl
@[simp] theorem State.setField_rauSeq (s : State) (off hi lo v : Nat) : (s.setField off hi lo v).rauSeq = s.rauSeq := rfl
@[simp] theorem State.setField_ends (s : State) (off hi lo v : Nat) : (s.setField off hi lo v).ends = s.ends := rfl
@[simp] theorem State.setField_verdict (s : State) (off hi lo v : Nat) : (s.setField off hi lo v).verdict = s.verdict := rfl
@[simp] theorem State.setField_upd (s : State) (off hi lo v : Nat) : (s.setField off hi lo v).upd = s.upd := rfl
@[simp] theorem State.setField_rules (s : State) (off hi lo v : Nat) : (s.setField off hi lo v).rules = s.rules := rfl
@[simp] theorem State.setField_ports (s : State) (off hi lo v : Nat) : (s.setField off hi lo v).ports = s.ports := rfl
@[simp] theorem State.setField_localQ (s : State) (off hi lo v : Nat) : (s.setField off hi lo v).localQ = s.localQ := rfl
@[simp] theorem State.setField_snap (s : State) (off hi lo v : Nat) : (s.setField off hi lo v).snap = s.snap := rfl
@[simp] theorem State.setField_tel (s : State) (off hi lo v : Nat) : (s.setField off hi lo v).tel = s.tel := rfl
@[simp] theorem State.setField_clk (s : State) (off hi lo v : Nat) : (s.setField off hi lo v).clk = s.clk := rfl
@[simp] theorem State.setField_budget (s : State) (off hi lo v : Nat) : (s.setField off hi lo v).budget = s.budget := rfl
@[simp] theorem State.setField_mon (s : State) (off hi lo v : Nat) : (s.setField off hi lo v).mon = s.mon := rfl
@[simp] theorem State.setField_halt (s : State) (off hi lo v : Nat) : (s.setField off hi lo v).halt = s.halt := rfl
@[simp] theorem State.setField_inst (s : State) (off hi lo v : Nat) : (s.setField off hi lo v).inst = s.inst := rfl
@[simp] theorem State.setField_nvm (s : State) (off hi lo v : Nat) : (s.setField off hi lo v).nvm = s.nvm := rfl
@[simp] theorem State.setField_fw (s : State) (off hi lo v : Nat) : (s.setField off hi lo v).fw = s.fw := rfl
@[simp] theorem State.setField_sec (s : State) (off hi lo v : Nat) : (s.setField off hi lo v).sec = s.sec := rfl
@[simp] theorem State.setField_spdm (s : State) (off hi lo v : Nat) : (s.setField off hi lo v).spdm = s.spdm := rfl
@[simp] theorem State.setField_i3c (s : State) (off hi lo v : Nat) : (s.setField off hi lo v).i3c = s.i3c := rfl
@[simp] theorem State.setField_pcie (s : State) (off hi lo v : Nat) : (s.setField off hi lo v).pcie = s.pcie := rfl
@[simp] theorem State.setField_maint (s : State) (off hi lo v : Nat) : (s.setField off hi lo v).maint = s.maint := rfl
@[simp] theorem State.setField_dieReset (s : State) (off hi lo v : Nat) : (s.setField off hi lo v).dieReset = s.dieReset := rfl
@[simp] theorem State.setField_resetReq (s : State) (off hi lo v : Nat) : (s.setField off hi lo v).resetReq = s.resetReq := rfl
@[simp] theorem State.setField_stackFail (s : State) (off hi lo v : Nat) : (s.setField off hi lo v).stackFail = s.stackFail := rfl

/-! ## State.setFlag -/

@[simp] theorem State.setFlag_pending (s : State) (off i : Nat) (v : Bool) : (s.setFlag off i v).pending = s.pending := rfl
@[simp] theorem State.setFlag_free (s : State) (off i : Nat) (v : Bool) : (s.setFlag off i v).free = s.free := rfl
@[simp] theorem State.setFlag_readData (s : State) (off i : Nat) (v : Bool) : (s.setFlag off i v).readData = s.readData := rfl
@[simp] theorem State.setFlag_readBytes (s : State) (off i : Nat) (v : Bool) : (s.setFlag off i v).readBytes = s.readBytes := rfl
@[simp] theorem State.setFlag_latches (s : State) (off i : Nat) (v : Bool) : (s.setFlag off i v).latches = s.latches := rfl
@[simp] theorem State.setFlag_staging (s : State) (off i : Nat) (v : Bool) : (s.setFlag off i v).staging = s.staging := rfl
@[simp] theorem State.setFlag_mem (s : State) (off i : Nat) (v : Bool) : (s.setFlag off i v).mem = s.mem := rfl
@[simp] theorem State.setFlag_badWords (s : State) (off i : Nat) (v : Bool) : (s.setFlag off i v).badWords = s.badWords := rfl
@[simp] theorem State.setFlag_host (s : State) (off i : Nat) (v : Bool) : (s.setFlag off i v).host = s.host := rfl
@[simp] theorem State.setFlag_tick (s : State) (off i : Nat) (v : Bool) : (s.setFlag off i v).tick = s.tick := rfl
@[simp] theorem State.setFlag_binding (s : State) (off i : Nat) (v : Bool) : (s.setFlag off i v).binding = s.binding := rfl
@[simp] theorem State.setFlag_engines (s : State) (off i : Nat) (v : Bool) : (s.setFlag off i v).engines = s.engines := rfl
@[simp] theorem State.setFlag_cores (s : State) (off i : Nat) (v : Bool) : (s.setFlag off i v).cores = s.cores := rfl
@[simp] theorem State.setFlag_tokenQ (s : State) (off i : Nat) (v : Bool) : (s.setFlag off i v).tokenQ = s.tokenQ := rfl
@[simp] theorem State.setFlag_tokenLast (s : State) (off i : Nat) (v : Bool) : (s.setFlag off i v).tokenLast = s.tokenLast := rfl
@[simp] theorem State.setFlag_vecs (s : State) (off i : Nat) (v : Bool) : (s.setFlag off i v).vecs = s.vecs := rfl
@[simp] theorem State.setFlag_yoyos (s : State) (off i : Nat) (v : Bool) : (s.setFlag off i v).yoyos = s.yoyos := rfl
@[simp] theorem State.setFlag_kvTable (s : State) (off i : Nat) (v : Bool) : (s.setFlag off i v).kvTable = s.kvTable := rfl
@[simp] theorem State.setFlag_kv (s : State) (off i : Nat) (v : Bool) : (s.setFlag off i v).kv = s.kv := rfl
@[simp] theorem State.setFlag_att (s : State) (off i : Nat) (v : Bool) : (s.setFlag off i v).att = s.att := rfl
@[simp] theorem State.setFlag_bushels (s : State) (off i : Nat) (v : Bool) : (s.setFlag off i v).bushels = s.bushels := rfl
@[simp] theorem State.setFlag_rauQ (s : State) (off i : Nat) (v : Bool) : (s.setFlag off i v).rauQ = s.rauQ := rfl
@[simp] theorem State.setFlag_rauSeq (s : State) (off i : Nat) (v : Bool) : (s.setFlag off i v).rauSeq = s.rauSeq := rfl
@[simp] theorem State.setFlag_ends (s : State) (off i : Nat) (v : Bool) : (s.setFlag off i v).ends = s.ends := rfl
@[simp] theorem State.setFlag_verdict (s : State) (off i : Nat) (v : Bool) : (s.setFlag off i v).verdict = s.verdict := rfl
@[simp] theorem State.setFlag_upd (s : State) (off i : Nat) (v : Bool) : (s.setFlag off i v).upd = s.upd := rfl
@[simp] theorem State.setFlag_rules (s : State) (off i : Nat) (v : Bool) : (s.setFlag off i v).rules = s.rules := rfl
@[simp] theorem State.setFlag_ports (s : State) (off i : Nat) (v : Bool) : (s.setFlag off i v).ports = s.ports := rfl
@[simp] theorem State.setFlag_localQ (s : State) (off i : Nat) (v : Bool) : (s.setFlag off i v).localQ = s.localQ := rfl
@[simp] theorem State.setFlag_snap (s : State) (off i : Nat) (v : Bool) : (s.setFlag off i v).snap = s.snap := rfl
@[simp] theorem State.setFlag_tel (s : State) (off i : Nat) (v : Bool) : (s.setFlag off i v).tel = s.tel := rfl
@[simp] theorem State.setFlag_clk (s : State) (off i : Nat) (v : Bool) : (s.setFlag off i v).clk = s.clk := rfl
@[simp] theorem State.setFlag_budget (s : State) (off i : Nat) (v : Bool) : (s.setFlag off i v).budget = s.budget := rfl
@[simp] theorem State.setFlag_mon (s : State) (off i : Nat) (v : Bool) : (s.setFlag off i v).mon = s.mon := rfl
@[simp] theorem State.setFlag_halt (s : State) (off i : Nat) (v : Bool) : (s.setFlag off i v).halt = s.halt := rfl
@[simp] theorem State.setFlag_inst (s : State) (off i : Nat) (v : Bool) : (s.setFlag off i v).inst = s.inst := rfl
@[simp] theorem State.setFlag_nvm (s : State) (off i : Nat) (v : Bool) : (s.setFlag off i v).nvm = s.nvm := rfl
@[simp] theorem State.setFlag_fw (s : State) (off i : Nat) (v : Bool) : (s.setFlag off i v).fw = s.fw := rfl
@[simp] theorem State.setFlag_sec (s : State) (off i : Nat) (v : Bool) : (s.setFlag off i v).sec = s.sec := rfl
@[simp] theorem State.setFlag_spdm (s : State) (off i : Nat) (v : Bool) : (s.setFlag off i v).spdm = s.spdm := rfl
@[simp] theorem State.setFlag_i3c (s : State) (off i : Nat) (v : Bool) : (s.setFlag off i v).i3c = s.i3c := rfl
@[simp] theorem State.setFlag_pcie (s : State) (off i : Nat) (v : Bool) : (s.setFlag off i v).pcie = s.pcie := rfl
@[simp] theorem State.setFlag_maint (s : State) (off i : Nat) (v : Bool) : (s.setFlag off i v).maint = s.maint := rfl
@[simp] theorem State.setFlag_dieReset (s : State) (off i : Nat) (v : Bool) : (s.setFlag off i v).dieReset = s.dieReset := rfl
@[simp] theorem State.setFlag_resetReq (s : State) (off i : Nat) (v : Bool) : (s.setFlag off i v).resetReq = s.resetReq := rfl
@[simp] theorem State.setFlag_stackFail (s : State) (off i : Nat) (v : Bool) : (s.setFlag off i v).stackFail = s.stackFail := rfl

/-! ## State.count -/

@[simp] theorem State.count_pending (s : State) (off n : Nat) : (s.count off n).pending = s.pending := rfl
@[simp] theorem State.count_free (s : State) (off n : Nat) : (s.count off n).free = s.free := rfl
@[simp] theorem State.count_readData (s : State) (off n : Nat) : (s.count off n).readData = s.readData := rfl
@[simp] theorem State.count_readBytes (s : State) (off n : Nat) : (s.count off n).readBytes = s.readBytes := rfl
@[simp] theorem State.count_latches (s : State) (off n : Nat) : (s.count off n).latches = s.latches := rfl
@[simp] theorem State.count_staging (s : State) (off n : Nat) : (s.count off n).staging = s.staging := rfl
@[simp] theorem State.count_mem (s : State) (off n : Nat) : (s.count off n).mem = s.mem := rfl
@[simp] theorem State.count_badWords (s : State) (off n : Nat) : (s.count off n).badWords = s.badWords := rfl
@[simp] theorem State.count_host (s : State) (off n : Nat) : (s.count off n).host = s.host := rfl
@[simp] theorem State.count_tick (s : State) (off n : Nat) : (s.count off n).tick = s.tick := rfl
@[simp] theorem State.count_binding (s : State) (off n : Nat) : (s.count off n).binding = s.binding := rfl
@[simp] theorem State.count_engines (s : State) (off n : Nat) : (s.count off n).engines = s.engines := rfl
@[simp] theorem State.count_cores (s : State) (off n : Nat) : (s.count off n).cores = s.cores := rfl
@[simp] theorem State.count_tokenQ (s : State) (off n : Nat) : (s.count off n).tokenQ = s.tokenQ := rfl
@[simp] theorem State.count_tokenLast (s : State) (off n : Nat) : (s.count off n).tokenLast = s.tokenLast := rfl
@[simp] theorem State.count_vecs (s : State) (off n : Nat) : (s.count off n).vecs = s.vecs := rfl
@[simp] theorem State.count_yoyos (s : State) (off n : Nat) : (s.count off n).yoyos = s.yoyos := rfl
@[simp] theorem State.count_kvTable (s : State) (off n : Nat) : (s.count off n).kvTable = s.kvTable := rfl
@[simp] theorem State.count_kv (s : State) (off n : Nat) : (s.count off n).kv = s.kv := rfl
@[simp] theorem State.count_att (s : State) (off n : Nat) : (s.count off n).att = s.att := rfl
@[simp] theorem State.count_bushels (s : State) (off n : Nat) : (s.count off n).bushels = s.bushels := rfl
@[simp] theorem State.count_rauQ (s : State) (off n : Nat) : (s.count off n).rauQ = s.rauQ := rfl
@[simp] theorem State.count_rauSeq (s : State) (off n : Nat) : (s.count off n).rauSeq = s.rauSeq := rfl
@[simp] theorem State.count_ends (s : State) (off n : Nat) : (s.count off n).ends = s.ends := rfl
@[simp] theorem State.count_verdict (s : State) (off n : Nat) : (s.count off n).verdict = s.verdict := rfl
@[simp] theorem State.count_upd (s : State) (off n : Nat) : (s.count off n).upd = s.upd := rfl
@[simp] theorem State.count_rules (s : State) (off n : Nat) : (s.count off n).rules = s.rules := rfl
@[simp] theorem State.count_ports (s : State) (off n : Nat) : (s.count off n).ports = s.ports := rfl
@[simp] theorem State.count_localQ (s : State) (off n : Nat) : (s.count off n).localQ = s.localQ := rfl
@[simp] theorem State.count_snap (s : State) (off n : Nat) : (s.count off n).snap = s.snap := rfl
@[simp] theorem State.count_tel (s : State) (off n : Nat) : (s.count off n).tel = s.tel := rfl
@[simp] theorem State.count_clk (s : State) (off n : Nat) : (s.count off n).clk = s.clk := rfl
@[simp] theorem State.count_budget (s : State) (off n : Nat) : (s.count off n).budget = s.budget := rfl
@[simp] theorem State.count_mon (s : State) (off n : Nat) : (s.count off n).mon = s.mon := rfl
@[simp] theorem State.count_halt (s : State) (off n : Nat) : (s.count off n).halt = s.halt := rfl
@[simp] theorem State.count_inst (s : State) (off n : Nat) : (s.count off n).inst = s.inst := rfl
@[simp] theorem State.count_nvm (s : State) (off n : Nat) : (s.count off n).nvm = s.nvm := rfl
@[simp] theorem State.count_fw (s : State) (off n : Nat) : (s.count off n).fw = s.fw := rfl
@[simp] theorem State.count_sec (s : State) (off n : Nat) : (s.count off n).sec = s.sec := rfl
@[simp] theorem State.count_spdm (s : State) (off n : Nat) : (s.count off n).spdm = s.spdm := rfl
@[simp] theorem State.count_i3c (s : State) (off n : Nat) : (s.count off n).i3c = s.i3c := rfl
@[simp] theorem State.count_pcie (s : State) (off n : Nat) : (s.count off n).pcie = s.pcie := rfl
@[simp] theorem State.count_maint (s : State) (off n : Nat) : (s.count off n).maint = s.maint := rfl
@[simp] theorem State.count_dieReset (s : State) (off n : Nat) : (s.count off n).dieReset = s.dieReset := rfl
@[simp] theorem State.count_resetReq (s : State) (off n : Nat) : (s.count off n).resetReq = s.resetReq := rfl
@[simp] theorem State.count_stackFail (s : State) (off n : Nat) : (s.count off n).stackFail = s.stackFail := rfl

/-! ## State.modCore -/

@[simp] theorem State.modCore_pending (s : State) (k : Nat) (f : Core → Core) : (s.modCore k f).pending = s.pending := rfl
@[simp] theorem State.modCore_free (s : State) (k : Nat) (f : Core → Core) : (s.modCore k f).free = s.free := rfl
@[simp] theorem State.modCore_readData (s : State) (k : Nat) (f : Core → Core) : (s.modCore k f).readData = s.readData := rfl
@[simp] theorem State.modCore_readBytes (s : State) (k : Nat) (f : Core → Core) : (s.modCore k f).readBytes = s.readBytes := rfl
@[simp] theorem State.modCore_regs (s : State) (k : Nat) (f : Core → Core) : (s.modCore k f).regs = s.regs := rfl
@[simp] theorem State.modCore_latches (s : State) (k : Nat) (f : Core → Core) : (s.modCore k f).latches = s.latches := rfl
@[simp] theorem State.modCore_staging (s : State) (k : Nat) (f : Core → Core) : (s.modCore k f).staging = s.staging := rfl
@[simp] theorem State.modCore_mem (s : State) (k : Nat) (f : Core → Core) : (s.modCore k f).mem = s.mem := rfl
@[simp] theorem State.modCore_badWords (s : State) (k : Nat) (f : Core → Core) : (s.modCore k f).badWords = s.badWords := rfl
@[simp] theorem State.modCore_host (s : State) (k : Nat) (f : Core → Core) : (s.modCore k f).host = s.host := rfl
@[simp] theorem State.modCore_tick (s : State) (k : Nat) (f : Core → Core) : (s.modCore k f).tick = s.tick := rfl
@[simp] theorem State.modCore_binding (s : State) (k : Nat) (f : Core → Core) : (s.modCore k f).binding = s.binding := rfl
@[simp] theorem State.modCore_engines (s : State) (k : Nat) (f : Core → Core) : (s.modCore k f).engines = s.engines := rfl
@[simp] theorem State.modCore_tokenQ (s : State) (k : Nat) (f : Core → Core) : (s.modCore k f).tokenQ = s.tokenQ := rfl
@[simp] theorem State.modCore_tokenLast (s : State) (k : Nat) (f : Core → Core) : (s.modCore k f).tokenLast = s.tokenLast := rfl
@[simp] theorem State.modCore_vecs (s : State) (k : Nat) (f : Core → Core) : (s.modCore k f).vecs = s.vecs := rfl
@[simp] theorem State.modCore_yoyos (s : State) (k : Nat) (f : Core → Core) : (s.modCore k f).yoyos = s.yoyos := rfl
@[simp] theorem State.modCore_kvTable (s : State) (k : Nat) (f : Core → Core) : (s.modCore k f).kvTable = s.kvTable := rfl
@[simp] theorem State.modCore_kv (s : State) (k : Nat) (f : Core → Core) : (s.modCore k f).kv = s.kv := rfl
@[simp] theorem State.modCore_att (s : State) (k : Nat) (f : Core → Core) : (s.modCore k f).att = s.att := rfl
@[simp] theorem State.modCore_bushels (s : State) (k : Nat) (f : Core → Core) : (s.modCore k f).bushels = s.bushels := rfl
@[simp] theorem State.modCore_rauQ (s : State) (k : Nat) (f : Core → Core) : (s.modCore k f).rauQ = s.rauQ := rfl
@[simp] theorem State.modCore_rauSeq (s : State) (k : Nat) (f : Core → Core) : (s.modCore k f).rauSeq = s.rauSeq := rfl
@[simp] theorem State.modCore_ends (s : State) (k : Nat) (f : Core → Core) : (s.modCore k f).ends = s.ends := rfl
@[simp] theorem State.modCore_verdict (s : State) (k : Nat) (f : Core → Core) : (s.modCore k f).verdict = s.verdict := rfl
@[simp] theorem State.modCore_upd (s : State) (k : Nat) (f : Core → Core) : (s.modCore k f).upd = s.upd := rfl
@[simp] theorem State.modCore_rules (s : State) (k : Nat) (f : Core → Core) : (s.modCore k f).rules = s.rules := rfl
@[simp] theorem State.modCore_ports (s : State) (k : Nat) (f : Core → Core) : (s.modCore k f).ports = s.ports := rfl
@[simp] theorem State.modCore_localQ (s : State) (k : Nat) (f : Core → Core) : (s.modCore k f).localQ = s.localQ := rfl
@[simp] theorem State.modCore_snap (s : State) (k : Nat) (f : Core → Core) : (s.modCore k f).snap = s.snap := rfl
@[simp] theorem State.modCore_tel (s : State) (k : Nat) (f : Core → Core) : (s.modCore k f).tel = s.tel := rfl
@[simp] theorem State.modCore_clk (s : State) (k : Nat) (f : Core → Core) : (s.modCore k f).clk = s.clk := rfl
@[simp] theorem State.modCore_budget (s : State) (k : Nat) (f : Core → Core) : (s.modCore k f).budget = s.budget := rfl
@[simp] theorem State.modCore_mon (s : State) (k : Nat) (f : Core → Core) : (s.modCore k f).mon = s.mon := rfl
@[simp] theorem State.modCore_halt (s : State) (k : Nat) (f : Core → Core) : (s.modCore k f).halt = s.halt := rfl
@[simp] theorem State.modCore_inst (s : State) (k : Nat) (f : Core → Core) : (s.modCore k f).inst = s.inst := rfl
@[simp] theorem State.modCore_nvm (s : State) (k : Nat) (f : Core → Core) : (s.modCore k f).nvm = s.nvm := rfl
@[simp] theorem State.modCore_fw (s : State) (k : Nat) (f : Core → Core) : (s.modCore k f).fw = s.fw := rfl
@[simp] theorem State.modCore_sec (s : State) (k : Nat) (f : Core → Core) : (s.modCore k f).sec = s.sec := rfl
@[simp] theorem State.modCore_spdm (s : State) (k : Nat) (f : Core → Core) : (s.modCore k f).spdm = s.spdm := rfl
@[simp] theorem State.modCore_i3c (s : State) (k : Nat) (f : Core → Core) : (s.modCore k f).i3c = s.i3c := rfl
@[simp] theorem State.modCore_pcie (s : State) (k : Nat) (f : Core → Core) : (s.modCore k f).pcie = s.pcie := rfl
@[simp] theorem State.modCore_maint (s : State) (k : Nat) (f : Core → Core) : (s.modCore k f).maint = s.maint := rfl
@[simp] theorem State.modCore_dieReset (s : State) (k : Nat) (f : Core → Core) : (s.modCore k f).dieReset = s.dieReset := rfl
@[simp] theorem State.modCore_resetReq (s : State) (k : Nat) (f : Core → Core) : (s.modCore k f).resetReq = s.resetReq := rfl
@[simp] theorem State.modCore_stackFail (s : State) (k : Nat) (f : Core → Core) : (s.modCore k f).stackFail = s.stackFail := rfl

/-! ## State.modEngine -/

@[simp] theorem State.modEngine_pending (s : State) (e : Nat) (f : Engine → Engine) : (s.modEngine e f).pending = s.pending := rfl
@[simp] theorem State.modEngine_free (s : State) (e : Nat) (f : Engine → Engine) : (s.modEngine e f).free = s.free := rfl
@[simp] theorem State.modEngine_readData (s : State) (e : Nat) (f : Engine → Engine) : (s.modEngine e f).readData = s.readData := rfl
@[simp] theorem State.modEngine_readBytes (s : State) (e : Nat) (f : Engine → Engine) : (s.modEngine e f).readBytes = s.readBytes := rfl
@[simp] theorem State.modEngine_regs (s : State) (e : Nat) (f : Engine → Engine) : (s.modEngine e f).regs = s.regs := rfl
@[simp] theorem State.modEngine_latches (s : State) (e : Nat) (f : Engine → Engine) : (s.modEngine e f).latches = s.latches := rfl
@[simp] theorem State.modEngine_staging (s : State) (e : Nat) (f : Engine → Engine) : (s.modEngine e f).staging = s.staging := rfl
@[simp] theorem State.modEngine_mem (s : State) (e : Nat) (f : Engine → Engine) : (s.modEngine e f).mem = s.mem := rfl
@[simp] theorem State.modEngine_badWords (s : State) (e : Nat) (f : Engine → Engine) : (s.modEngine e f).badWords = s.badWords := rfl
@[simp] theorem State.modEngine_host (s : State) (e : Nat) (f : Engine → Engine) : (s.modEngine e f).host = s.host := rfl
@[simp] theorem State.modEngine_tick (s : State) (e : Nat) (f : Engine → Engine) : (s.modEngine e f).tick = s.tick := rfl
@[simp] theorem State.modEngine_binding (s : State) (e : Nat) (f : Engine → Engine) : (s.modEngine e f).binding = s.binding := rfl
@[simp] theorem State.modEngine_cores (s : State) (e : Nat) (f : Engine → Engine) : (s.modEngine e f).cores = s.cores := rfl
@[simp] theorem State.modEngine_tokenQ (s : State) (e : Nat) (f : Engine → Engine) : (s.modEngine e f).tokenQ = s.tokenQ := rfl
@[simp] theorem State.modEngine_tokenLast (s : State) (e : Nat) (f : Engine → Engine) : (s.modEngine e f).tokenLast = s.tokenLast := rfl
@[simp] theorem State.modEngine_vecs (s : State) (e : Nat) (f : Engine → Engine) : (s.modEngine e f).vecs = s.vecs := rfl
@[simp] theorem State.modEngine_yoyos (s : State) (e : Nat) (f : Engine → Engine) : (s.modEngine e f).yoyos = s.yoyos := rfl
@[simp] theorem State.modEngine_kvTable (s : State) (e : Nat) (f : Engine → Engine) : (s.modEngine e f).kvTable = s.kvTable := rfl
@[simp] theorem State.modEngine_kv (s : State) (e : Nat) (f : Engine → Engine) : (s.modEngine e f).kv = s.kv := rfl
@[simp] theorem State.modEngine_att (s : State) (e : Nat) (f : Engine → Engine) : (s.modEngine e f).att = s.att := rfl
@[simp] theorem State.modEngine_bushels (s : State) (e : Nat) (f : Engine → Engine) : (s.modEngine e f).bushels = s.bushels := rfl
@[simp] theorem State.modEngine_rauQ (s : State) (e : Nat) (f : Engine → Engine) : (s.modEngine e f).rauQ = s.rauQ := rfl
@[simp] theorem State.modEngine_rauSeq (s : State) (e : Nat) (f : Engine → Engine) : (s.modEngine e f).rauSeq = s.rauSeq := rfl
@[simp] theorem State.modEngine_ends (s : State) (e : Nat) (f : Engine → Engine) : (s.modEngine e f).ends = s.ends := rfl
@[simp] theorem State.modEngine_verdict (s : State) (e : Nat) (f : Engine → Engine) : (s.modEngine e f).verdict = s.verdict := rfl
@[simp] theorem State.modEngine_upd (s : State) (e : Nat) (f : Engine → Engine) : (s.modEngine e f).upd = s.upd := rfl
@[simp] theorem State.modEngine_rules (s : State) (e : Nat) (f : Engine → Engine) : (s.modEngine e f).rules = s.rules := rfl
@[simp] theorem State.modEngine_ports (s : State) (e : Nat) (f : Engine → Engine) : (s.modEngine e f).ports = s.ports := rfl
@[simp] theorem State.modEngine_localQ (s : State) (e : Nat) (f : Engine → Engine) : (s.modEngine e f).localQ = s.localQ := rfl
@[simp] theorem State.modEngine_snap (s : State) (e : Nat) (f : Engine → Engine) : (s.modEngine e f).snap = s.snap := rfl
@[simp] theorem State.modEngine_tel (s : State) (e : Nat) (f : Engine → Engine) : (s.modEngine e f).tel = s.tel := rfl
@[simp] theorem State.modEngine_clk (s : State) (e : Nat) (f : Engine → Engine) : (s.modEngine e f).clk = s.clk := rfl
@[simp] theorem State.modEngine_budget (s : State) (e : Nat) (f : Engine → Engine) : (s.modEngine e f).budget = s.budget := rfl
@[simp] theorem State.modEngine_mon (s : State) (e : Nat) (f : Engine → Engine) : (s.modEngine e f).mon = s.mon := rfl
@[simp] theorem State.modEngine_halt (s : State) (e : Nat) (f : Engine → Engine) : (s.modEngine e f).halt = s.halt := rfl
@[simp] theorem State.modEngine_inst (s : State) (e : Nat) (f : Engine → Engine) : (s.modEngine e f).inst = s.inst := rfl
@[simp] theorem State.modEngine_nvm (s : State) (e : Nat) (f : Engine → Engine) : (s.modEngine e f).nvm = s.nvm := rfl
@[simp] theorem State.modEngine_fw (s : State) (e : Nat) (f : Engine → Engine) : (s.modEngine e f).fw = s.fw := rfl
@[simp] theorem State.modEngine_sec (s : State) (e : Nat) (f : Engine → Engine) : (s.modEngine e f).sec = s.sec := rfl
@[simp] theorem State.modEngine_spdm (s : State) (e : Nat) (f : Engine → Engine) : (s.modEngine e f).spdm = s.spdm := rfl
@[simp] theorem State.modEngine_i3c (s : State) (e : Nat) (f : Engine → Engine) : (s.modEngine e f).i3c = s.i3c := rfl
@[simp] theorem State.modEngine_pcie (s : State) (e : Nat) (f : Engine → Engine) : (s.modEngine e f).pcie = s.pcie := rfl
@[simp] theorem State.modEngine_maint (s : State) (e : Nat) (f : Engine → Engine) : (s.modEngine e f).maint = s.maint := rfl
@[simp] theorem State.modEngine_dieReset (s : State) (e : Nat) (f : Engine → Engine) : (s.modEngine e f).dieReset = s.dieReset := rfl
@[simp] theorem State.modEngine_resetReq (s : State) (e : Nat) (f : Engine → Engine) : (s.modEngine e f).resetReq = s.resetReq := rfl
@[simp] theorem State.modEngine_stackFail (s : State) (e : Nat) (f : Engine → Engine) : (s.modEngine e f).stackFail = s.stackFail := rfl

/-! ## State.modYoyo -/

@[simp] theorem State.modYoyo_pending (s : State) (d : Nat) (f : Yoyo → Yoyo) : (s.modYoyo d f).pending = s.pending := rfl
@[simp] theorem State.modYoyo_free (s : State) (d : Nat) (f : Yoyo → Yoyo) : (s.modYoyo d f).free = s.free := rfl
@[simp] theorem State.modYoyo_readData (s : State) (d : Nat) (f : Yoyo → Yoyo) : (s.modYoyo d f).readData = s.readData := rfl
@[simp] theorem State.modYoyo_readBytes (s : State) (d : Nat) (f : Yoyo → Yoyo) : (s.modYoyo d f).readBytes = s.readBytes := rfl
@[simp] theorem State.modYoyo_regs (s : State) (d : Nat) (f : Yoyo → Yoyo) : (s.modYoyo d f).regs = s.regs := rfl
@[simp] theorem State.modYoyo_latches (s : State) (d : Nat) (f : Yoyo → Yoyo) : (s.modYoyo d f).latches = s.latches := rfl
@[simp] theorem State.modYoyo_staging (s : State) (d : Nat) (f : Yoyo → Yoyo) : (s.modYoyo d f).staging = s.staging := rfl
@[simp] theorem State.modYoyo_mem (s : State) (d : Nat) (f : Yoyo → Yoyo) : (s.modYoyo d f).mem = s.mem := rfl
@[simp] theorem State.modYoyo_badWords (s : State) (d : Nat) (f : Yoyo → Yoyo) : (s.modYoyo d f).badWords = s.badWords := rfl
@[simp] theorem State.modYoyo_host (s : State) (d : Nat) (f : Yoyo → Yoyo) : (s.modYoyo d f).host = s.host := rfl
@[simp] theorem State.modYoyo_tick (s : State) (d : Nat) (f : Yoyo → Yoyo) : (s.modYoyo d f).tick = s.tick := rfl
@[simp] theorem State.modYoyo_binding (s : State) (d : Nat) (f : Yoyo → Yoyo) : (s.modYoyo d f).binding = s.binding := rfl
@[simp] theorem State.modYoyo_engines (s : State) (d : Nat) (f : Yoyo → Yoyo) : (s.modYoyo d f).engines = s.engines := rfl
@[simp] theorem State.modYoyo_cores (s : State) (d : Nat) (f : Yoyo → Yoyo) : (s.modYoyo d f).cores = s.cores := rfl
@[simp] theorem State.modYoyo_tokenQ (s : State) (d : Nat) (f : Yoyo → Yoyo) : (s.modYoyo d f).tokenQ = s.tokenQ := rfl
@[simp] theorem State.modYoyo_tokenLast (s : State) (d : Nat) (f : Yoyo → Yoyo) : (s.modYoyo d f).tokenLast = s.tokenLast := rfl
@[simp] theorem State.modYoyo_vecs (s : State) (d : Nat) (f : Yoyo → Yoyo) : (s.modYoyo d f).vecs = s.vecs := rfl
@[simp] theorem State.modYoyo_kvTable (s : State) (d : Nat) (f : Yoyo → Yoyo) : (s.modYoyo d f).kvTable = s.kvTable := rfl
@[simp] theorem State.modYoyo_kv (s : State) (d : Nat) (f : Yoyo → Yoyo) : (s.modYoyo d f).kv = s.kv := rfl
@[simp] theorem State.modYoyo_att (s : State) (d : Nat) (f : Yoyo → Yoyo) : (s.modYoyo d f).att = s.att := rfl
@[simp] theorem State.modYoyo_bushels (s : State) (d : Nat) (f : Yoyo → Yoyo) : (s.modYoyo d f).bushels = s.bushels := rfl
@[simp] theorem State.modYoyo_rauQ (s : State) (d : Nat) (f : Yoyo → Yoyo) : (s.modYoyo d f).rauQ = s.rauQ := rfl
@[simp] theorem State.modYoyo_rauSeq (s : State) (d : Nat) (f : Yoyo → Yoyo) : (s.modYoyo d f).rauSeq = s.rauSeq := rfl
@[simp] theorem State.modYoyo_ends (s : State) (d : Nat) (f : Yoyo → Yoyo) : (s.modYoyo d f).ends = s.ends := rfl
@[simp] theorem State.modYoyo_verdict (s : State) (d : Nat) (f : Yoyo → Yoyo) : (s.modYoyo d f).verdict = s.verdict := rfl
@[simp] theorem State.modYoyo_upd (s : State) (d : Nat) (f : Yoyo → Yoyo) : (s.modYoyo d f).upd = s.upd := rfl
@[simp] theorem State.modYoyo_rules (s : State) (d : Nat) (f : Yoyo → Yoyo) : (s.modYoyo d f).rules = s.rules := rfl
@[simp] theorem State.modYoyo_ports (s : State) (d : Nat) (f : Yoyo → Yoyo) : (s.modYoyo d f).ports = s.ports := rfl
@[simp] theorem State.modYoyo_localQ (s : State) (d : Nat) (f : Yoyo → Yoyo) : (s.modYoyo d f).localQ = s.localQ := rfl
@[simp] theorem State.modYoyo_snap (s : State) (d : Nat) (f : Yoyo → Yoyo) : (s.modYoyo d f).snap = s.snap := rfl
@[simp] theorem State.modYoyo_tel (s : State) (d : Nat) (f : Yoyo → Yoyo) : (s.modYoyo d f).tel = s.tel := rfl
@[simp] theorem State.modYoyo_clk (s : State) (d : Nat) (f : Yoyo → Yoyo) : (s.modYoyo d f).clk = s.clk := rfl
@[simp] theorem State.modYoyo_budget (s : State) (d : Nat) (f : Yoyo → Yoyo) : (s.modYoyo d f).budget = s.budget := rfl
@[simp] theorem State.modYoyo_mon (s : State) (d : Nat) (f : Yoyo → Yoyo) : (s.modYoyo d f).mon = s.mon := rfl
@[simp] theorem State.modYoyo_halt (s : State) (d : Nat) (f : Yoyo → Yoyo) : (s.modYoyo d f).halt = s.halt := rfl
@[simp] theorem State.modYoyo_inst (s : State) (d : Nat) (f : Yoyo → Yoyo) : (s.modYoyo d f).inst = s.inst := rfl
@[simp] theorem State.modYoyo_nvm (s : State) (d : Nat) (f : Yoyo → Yoyo) : (s.modYoyo d f).nvm = s.nvm := rfl
@[simp] theorem State.modYoyo_fw (s : State) (d : Nat) (f : Yoyo → Yoyo) : (s.modYoyo d f).fw = s.fw := rfl
@[simp] theorem State.modYoyo_sec (s : State) (d : Nat) (f : Yoyo → Yoyo) : (s.modYoyo d f).sec = s.sec := rfl
@[simp] theorem State.modYoyo_spdm (s : State) (d : Nat) (f : Yoyo → Yoyo) : (s.modYoyo d f).spdm = s.spdm := rfl
@[simp] theorem State.modYoyo_i3c (s : State) (d : Nat) (f : Yoyo → Yoyo) : (s.modYoyo d f).i3c = s.i3c := rfl
@[simp] theorem State.modYoyo_pcie (s : State) (d : Nat) (f : Yoyo → Yoyo) : (s.modYoyo d f).pcie = s.pcie := rfl
@[simp] theorem State.modYoyo_maint (s : State) (d : Nat) (f : Yoyo → Yoyo) : (s.modYoyo d f).maint = s.maint := rfl
@[simp] theorem State.modYoyo_dieReset (s : State) (d : Nat) (f : Yoyo → Yoyo) : (s.modYoyo d f).dieReset = s.dieReset := rfl
@[simp] theorem State.modYoyo_resetReq (s : State) (d : Nat) (f : Yoyo → Yoyo) : (s.modYoyo d f).resetReq = s.resetReq := rfl
@[simp] theorem State.modYoyo_stackFail (s : State) (d : Nat) (f : Yoyo → Yoyo) : (s.modYoyo d f).stackFail = s.stackFail := rfl

/-! ## State.modPort -/

@[simp] theorem State.modPort_pending (s : State) (p : Nat) (f : Port → Port) : (s.modPort p f).pending = s.pending := rfl
@[simp] theorem State.modPort_free (s : State) (p : Nat) (f : Port → Port) : (s.modPort p f).free = s.free := rfl
@[simp] theorem State.modPort_readData (s : State) (p : Nat) (f : Port → Port) : (s.modPort p f).readData = s.readData := rfl
@[simp] theorem State.modPort_readBytes (s : State) (p : Nat) (f : Port → Port) : (s.modPort p f).readBytes = s.readBytes := rfl
@[simp] theorem State.modPort_regs (s : State) (p : Nat) (f : Port → Port) : (s.modPort p f).regs = s.regs := rfl
@[simp] theorem State.modPort_latches (s : State) (p : Nat) (f : Port → Port) : (s.modPort p f).latches = s.latches := rfl
@[simp] theorem State.modPort_staging (s : State) (p : Nat) (f : Port → Port) : (s.modPort p f).staging = s.staging := rfl
@[simp] theorem State.modPort_mem (s : State) (p : Nat) (f : Port → Port) : (s.modPort p f).mem = s.mem := rfl
@[simp] theorem State.modPort_badWords (s : State) (p : Nat) (f : Port → Port) : (s.modPort p f).badWords = s.badWords := rfl
@[simp] theorem State.modPort_host (s : State) (p : Nat) (f : Port → Port) : (s.modPort p f).host = s.host := rfl
@[simp] theorem State.modPort_tick (s : State) (p : Nat) (f : Port → Port) : (s.modPort p f).tick = s.tick := rfl
@[simp] theorem State.modPort_binding (s : State) (p : Nat) (f : Port → Port) : (s.modPort p f).binding = s.binding := rfl
@[simp] theorem State.modPort_engines (s : State) (p : Nat) (f : Port → Port) : (s.modPort p f).engines = s.engines := rfl
@[simp] theorem State.modPort_cores (s : State) (p : Nat) (f : Port → Port) : (s.modPort p f).cores = s.cores := rfl
@[simp] theorem State.modPort_tokenQ (s : State) (p : Nat) (f : Port → Port) : (s.modPort p f).tokenQ = s.tokenQ := rfl
@[simp] theorem State.modPort_tokenLast (s : State) (p : Nat) (f : Port → Port) : (s.modPort p f).tokenLast = s.tokenLast := rfl
@[simp] theorem State.modPort_vecs (s : State) (p : Nat) (f : Port → Port) : (s.modPort p f).vecs = s.vecs := rfl
@[simp] theorem State.modPort_yoyos (s : State) (p : Nat) (f : Port → Port) : (s.modPort p f).yoyos = s.yoyos := rfl
@[simp] theorem State.modPort_kvTable (s : State) (p : Nat) (f : Port → Port) : (s.modPort p f).kvTable = s.kvTable := rfl
@[simp] theorem State.modPort_kv (s : State) (p : Nat) (f : Port → Port) : (s.modPort p f).kv = s.kv := rfl
@[simp] theorem State.modPort_att (s : State) (p : Nat) (f : Port → Port) : (s.modPort p f).att = s.att := rfl
@[simp] theorem State.modPort_bushels (s : State) (p : Nat) (f : Port → Port) : (s.modPort p f).bushels = s.bushels := rfl
@[simp] theorem State.modPort_rauQ (s : State) (p : Nat) (f : Port → Port) : (s.modPort p f).rauQ = s.rauQ := rfl
@[simp] theorem State.modPort_rauSeq (s : State) (p : Nat) (f : Port → Port) : (s.modPort p f).rauSeq = s.rauSeq := rfl
@[simp] theorem State.modPort_ends (s : State) (p : Nat) (f : Port → Port) : (s.modPort p f).ends = s.ends := rfl
@[simp] theorem State.modPort_verdict (s : State) (p : Nat) (f : Port → Port) : (s.modPort p f).verdict = s.verdict := rfl
@[simp] theorem State.modPort_upd (s : State) (p : Nat) (f : Port → Port) : (s.modPort p f).upd = s.upd := rfl
@[simp] theorem State.modPort_rules (s : State) (p : Nat) (f : Port → Port) : (s.modPort p f).rules = s.rules := rfl
@[simp] theorem State.modPort_localQ (s : State) (p : Nat) (f : Port → Port) : (s.modPort p f).localQ = s.localQ := rfl
@[simp] theorem State.modPort_snap (s : State) (p : Nat) (f : Port → Port) : (s.modPort p f).snap = s.snap := rfl
@[simp] theorem State.modPort_tel (s : State) (p : Nat) (f : Port → Port) : (s.modPort p f).tel = s.tel := rfl
@[simp] theorem State.modPort_clk (s : State) (p : Nat) (f : Port → Port) : (s.modPort p f).clk = s.clk := rfl
@[simp] theorem State.modPort_budget (s : State) (p : Nat) (f : Port → Port) : (s.modPort p f).budget = s.budget := rfl
@[simp] theorem State.modPort_mon (s : State) (p : Nat) (f : Port → Port) : (s.modPort p f).mon = s.mon := rfl
@[simp] theorem State.modPort_halt (s : State) (p : Nat) (f : Port → Port) : (s.modPort p f).halt = s.halt := rfl
@[simp] theorem State.modPort_inst (s : State) (p : Nat) (f : Port → Port) : (s.modPort p f).inst = s.inst := rfl
@[simp] theorem State.modPort_nvm (s : State) (p : Nat) (f : Port → Port) : (s.modPort p f).nvm = s.nvm := rfl
@[simp] theorem State.modPort_fw (s : State) (p : Nat) (f : Port → Port) : (s.modPort p f).fw = s.fw := rfl
@[simp] theorem State.modPort_sec (s : State) (p : Nat) (f : Port → Port) : (s.modPort p f).sec = s.sec := rfl
@[simp] theorem State.modPort_spdm (s : State) (p : Nat) (f : Port → Port) : (s.modPort p f).spdm = s.spdm := rfl
@[simp] theorem State.modPort_i3c (s : State) (p : Nat) (f : Port → Port) : (s.modPort p f).i3c = s.i3c := rfl
@[simp] theorem State.modPort_pcie (s : State) (p : Nat) (f : Port → Port) : (s.modPort p f).pcie = s.pcie := rfl
@[simp] theorem State.modPort_maint (s : State) (p : Nat) (f : Port → Port) : (s.modPort p f).maint = s.maint := rfl
@[simp] theorem State.modPort_dieReset (s : State) (p : Nat) (f : Port → Port) : (s.modPort p f).dieReset = s.dieReset := rfl
@[simp] theorem State.modPort_resetReq (s : State) (p : Nat) (f : Port → Port) : (s.modPort p f).resetReq = s.resetReq := rfl
@[simp] theorem State.modPort_stackFail (s : State) (p : Nat) (f : Port → Port) : (s.modPort p f).stackFail = s.stackFail := rfl

/-! ## State.keepSystem -/

@[simp] theorem State.keepSystem_pending (s t : State) : (s.keepSystem t).pending = s.pending := rfl
@[simp] theorem State.keepSystem_free (s t : State) : (s.keepSystem t).free = t.free := rfl
@[simp] theorem State.keepSystem_readData (s t : State) : (s.keepSystem t).readData = t.readData := rfl
@[simp] theorem State.keepSystem_readBytes (s t : State) : (s.keepSystem t).readBytes = t.readBytes := rfl
@[simp] theorem State.keepSystem_regs (s t : State) : (s.keepSystem t).regs = t.regs := rfl
@[simp] theorem State.keepSystem_latches (s t : State) : (s.keepSystem t).latches = t.latches := rfl
@[simp] theorem State.keepSystem_staging (s t : State) : (s.keepSystem t).staging = t.staging := rfl
@[simp] theorem State.keepSystem_mem (s t : State) : (s.keepSystem t).mem = t.mem := rfl
@[simp] theorem State.keepSystem_badWords (s t : State) : (s.keepSystem t).badWords = t.badWords := rfl
@[simp] theorem State.keepSystem_host (s t : State) : (s.keepSystem t).host = t.host := rfl
@[simp] theorem State.keepSystem_tick (s t : State) : (s.keepSystem t).tick = s.tick := rfl
@[simp] theorem State.keepSystem_binding (s t : State) : (s.keepSystem t).binding = s.binding := rfl
@[simp] theorem State.keepSystem_engines (s t : State) : (s.keepSystem t).engines = t.engines := rfl
@[simp] theorem State.keepSystem_cores (s t : State) : (s.keepSystem t).cores = t.cores := rfl
@[simp] theorem State.keepSystem_tokenQ (s t : State) : (s.keepSystem t).tokenQ = t.tokenQ := rfl
@[simp] theorem State.keepSystem_tokenLast (s t : State) : (s.keepSystem t).tokenLast = t.tokenLast := rfl
@[simp] theorem State.keepSystem_vecs (s t : State) : (s.keepSystem t).vecs = t.vecs := rfl
@[simp] theorem State.keepSystem_yoyos (s t : State) : (s.keepSystem t).yoyos = t.yoyos := rfl
@[simp] theorem State.keepSystem_kvTable (s t : State) : (s.keepSystem t).kvTable = s.kvTable := rfl
@[simp] theorem State.keepSystem_kv (s t : State) : (s.keepSystem t).kv = t.kv := rfl
@[simp] theorem State.keepSystem_att (s t : State) : (s.keepSystem t).att = t.att := rfl
@[simp] theorem State.keepSystem_bushels (s t : State) : (s.keepSystem t).bushels = t.bushels := rfl
@[simp] theorem State.keepSystem_rauQ (s t : State) : (s.keepSystem t).rauQ = t.rauQ := rfl
@[simp] theorem State.keepSystem_rauSeq (s t : State) : (s.keepSystem t).rauSeq = t.rauSeq := rfl
@[simp] theorem State.keepSystem_ends (s t : State) : (s.keepSystem t).ends = t.ends := rfl
@[simp] theorem State.keepSystem_verdict (s t : State) : (s.keepSystem t).verdict = s.verdict := rfl
@[simp] theorem State.keepSystem_upd (s t : State) : (s.keepSystem t).upd = s.upd := rfl
@[simp] theorem State.keepSystem_rules (s t : State) : (s.keepSystem t).rules = s.rules := rfl
@[simp] theorem State.keepSystem_ports (s t : State) : (s.keepSystem t).ports = t.ports := rfl
@[simp] theorem State.keepSystem_localQ (s t : State) : (s.keepSystem t).localQ = t.localQ := rfl
@[simp] theorem State.keepSystem_snap (s t : State) : (s.keepSystem t).snap = t.snap := rfl
@[simp] theorem State.keepSystem_tel (s t : State) : (s.keepSystem t).tel = t.tel := rfl
@[simp] theorem State.keepSystem_clk (s t : State) : (s.keepSystem t).clk = s.clk := rfl
@[simp] theorem State.keepSystem_budget (s t : State) : (s.keepSystem t).budget = s.budget := rfl
@[simp] theorem State.keepSystem_mon (s t : State) : (s.keepSystem t).mon = s.mon := rfl
@[simp] theorem State.keepSystem_halt (s t : State) : (s.keepSystem t).halt = s.halt := rfl
@[simp] theorem State.keepSystem_inst (s t : State) : (s.keepSystem t).inst = s.inst := rfl
@[simp] theorem State.keepSystem_nvm (s t : State) : (s.keepSystem t).nvm = s.nvm := rfl
@[simp] theorem State.keepSystem_fw (s t : State) : (s.keepSystem t).fw = s.fw := rfl
@[simp] theorem State.keepSystem_sec (s t : State) : (s.keepSystem t).sec = t.sec := rfl
@[simp] theorem State.keepSystem_spdm (s t : State) : (s.keepSystem t).spdm = s.spdm := rfl
@[simp] theorem State.keepSystem_i3c (s t : State) : (s.keepSystem t).i3c = s.i3c := rfl
@[simp] theorem State.keepSystem_pcie (s t : State) : (s.keepSystem t).pcie = s.pcie := rfl
@[simp] theorem State.keepSystem_maint (s t : State) : (s.keepSystem t).maint = s.maint := rfl
@[simp] theorem State.keepSystem_dieReset (s t : State) : (s.keepSystem t).dieReset = s.dieReset := rfl
@[simp] theorem State.keepSystem_resetReq (s t : State) : (s.keepSystem t).resetReq = t.resetReq := rfl
@[simp] theorem State.keepSystem_stackFail (s t : State) : (s.keepSystem t).stackFail = s.stackFail := rfl

/-! ## State.keepFixed -/

@[simp] theorem State.keepFixed_pending (s t : State) : (s.keepFixed t).pending = s.pending := rfl
@[simp] theorem State.keepFixed_free (s t : State) : (s.keepFixed t).free = t.free := rfl
@[simp] theorem State.keepFixed_readData (s t : State) : (s.keepFixed t).readData = t.readData := rfl
@[simp] theorem State.keepFixed_readBytes (s t : State) : (s.keepFixed t).readBytes = t.readBytes := rfl
@[simp] theorem State.keepFixed_regs (s t : State) : (s.keepFixed t).regs = t.regs := rfl
@[simp] theorem State.keepFixed_latches (s t : State) : (s.keepFixed t).latches = t.latches := rfl
@[simp] theorem State.keepFixed_staging (s t : State) : (s.keepFixed t).staging = t.staging := rfl
@[simp] theorem State.keepFixed_mem (s t : State) : (s.keepFixed t).mem = t.mem := rfl
@[simp] theorem State.keepFixed_badWords (s t : State) : (s.keepFixed t).badWords = t.badWords := rfl
@[simp] theorem State.keepFixed_host (s t : State) : (s.keepFixed t).host = t.host := rfl
@[simp] theorem State.keepFixed_tick (s t : State) :
    (s.keepFixed t).tick = { s.tick with shMode := t.tick.shMode, shPeriod := t.tick.shPeriod } := rfl
@[simp] theorem State.keepFixed_binding (s t : State) : (s.keepFixed t).binding = t.binding := rfl
@[simp] theorem State.keepFixed_engines (s t : State) : (s.keepFixed t).engines = t.engines := rfl
@[simp] theorem State.keepFixed_cores (s t : State) : (s.keepFixed t).cores = t.cores := rfl
@[simp] theorem State.keepFixed_tokenQ (s t : State) : (s.keepFixed t).tokenQ = t.tokenQ := rfl
@[simp] theorem State.keepFixed_tokenLast (s t : State) : (s.keepFixed t).tokenLast = t.tokenLast := rfl
@[simp] theorem State.keepFixed_vecs (s t : State) : (s.keepFixed t).vecs = t.vecs := rfl
@[simp] theorem State.keepFixed_yoyos (s t : State) : (s.keepFixed t).yoyos = t.yoyos := rfl
@[simp] theorem State.keepFixed_kvTable (s t : State) : (s.keepFixed t).kvTable = t.kvTable := rfl
@[simp] theorem State.keepFixed_kv (s t : State) : (s.keepFixed t).kv = t.kv := rfl
@[simp] theorem State.keepFixed_att (s t : State) : (s.keepFixed t).att = t.att := rfl
@[simp] theorem State.keepFixed_bushels (s t : State) : (s.keepFixed t).bushels = t.bushels := rfl
@[simp] theorem State.keepFixed_rauQ (s t : State) : (s.keepFixed t).rauQ = t.rauQ := rfl
@[simp] theorem State.keepFixed_rauSeq (s t : State) : (s.keepFixed t).rauSeq = t.rauSeq := rfl
@[simp] theorem State.keepFixed_ends (s t : State) : (s.keepFixed t).ends = t.ends := rfl
@[simp] theorem State.keepFixed_verdict (s t : State) : (s.keepFixed t).verdict = t.verdict := rfl
@[simp] theorem State.keepFixed_upd (s t : State) : (s.keepFixed t).upd = t.upd := rfl
@[simp] theorem State.keepFixed_rules (s t : State) : (s.keepFixed t).rules = t.rules := rfl
@[simp] theorem State.keepFixed_ports (s t : State) : (s.keepFixed t).ports = t.ports := rfl
@[simp] theorem State.keepFixed_localQ (s t : State) : (s.keepFixed t).localQ = t.localQ := rfl
@[simp] theorem State.keepFixed_snap (s t : State) : (s.keepFixed t).snap = t.snap := rfl
@[simp] theorem State.keepFixed_tel (s t : State) : (s.keepFixed t).tel = t.tel := rfl
@[simp] theorem State.keepFixed_clk (s t : State) : (s.keepFixed t).clk = t.clk := rfl
@[simp] theorem State.keepFixed_budget (s t : State) : (s.keepFixed t).budget = s.budget := rfl
@[simp] theorem State.keepFixed_mon (s t : State) : (s.keepFixed t).mon = t.mon := rfl
@[simp] theorem State.keepFixed_halt (s t : State) : (s.keepFixed t).halt = t.halt := rfl
@[simp] theorem State.keepFixed_inst (s t : State) : (s.keepFixed t).inst = t.inst := rfl
@[simp] theorem State.keepFixed_nvm (s t : State) : (s.keepFixed t).nvm = s.nvm := rfl
@[simp] theorem State.keepFixed_fw (s t : State) : (s.keepFixed t).fw = t.fw := rfl
@[simp] theorem State.keepFixed_sec (s t : State) : (s.keepFixed t).sec = t.sec := rfl
@[simp] theorem State.keepFixed_spdm (s t : State) : (s.keepFixed t).spdm = t.spdm := rfl
@[simp] theorem State.keepFixed_i3c (s t : State) : (s.keepFixed t).i3c = t.i3c := rfl
@[simp] theorem State.keepFixed_pcie (s t : State) : (s.keepFixed t).pcie = t.pcie := rfl
@[simp] theorem State.keepFixed_maint (s t : State) : (s.keepFixed t).maint = t.maint := rfl
@[simp] theorem State.keepFixed_dieReset (s t : State) : (s.keepFixed t).dieReset = t.dieReset := rfl
@[simp] theorem State.keepFixed_resetReq (s t : State) : (s.keepFixed t).resetReq = t.resetReq := rfl
@[simp] theorem State.keepFixed_stackFail (s t : State) : (s.keepFixed t).stackFail = t.stackFail := rfl

/-! ## State.keepMem -/

@[simp] theorem State.keepMem_pending (s t : State) : (s.keepMem t).pending = t.pending := rfl
@[simp] theorem State.keepMem_free (s t : State) : (s.keepMem t).free = t.free := rfl
@[simp] theorem State.keepMem_readData (s t : State) : (s.keepMem t).readData = t.readData := rfl
@[simp] theorem State.keepMem_readBytes (s t : State) : (s.keepMem t).readBytes = t.readBytes := rfl
@[simp] theorem State.keepMem_regs (s t : State) : (s.keepMem t).regs = t.regs := rfl
@[simp] theorem State.keepMem_latches (s t : State) : (s.keepMem t).latches = t.latches := rfl
@[simp] theorem State.keepMem_staging (s t : State) : (s.keepMem t).staging = t.staging := rfl
@[simp] theorem State.keepMem_mem (s t : State) : (s.keepMem t).mem = s.mem := rfl
@[simp] theorem State.keepMem_badWords (s t : State) : (s.keepMem t).badWords = s.badWords := rfl
@[simp] theorem State.keepMem_host (s t : State) : (s.keepMem t).host = t.host := rfl
@[simp] theorem State.keepMem_tick (s t : State) : (s.keepMem t).tick = t.tick := rfl
@[simp] theorem State.keepMem_binding (s t : State) : (s.keepMem t).binding = t.binding := rfl
@[simp] theorem State.keepMem_engines (s t : State) : (s.keepMem t).engines = t.engines := rfl
@[simp] theorem State.keepMem_cores (s t : State) : (s.keepMem t).cores = t.cores := rfl
@[simp] theorem State.keepMem_tokenQ (s t : State) : (s.keepMem t).tokenQ = t.tokenQ := rfl
@[simp] theorem State.keepMem_tokenLast (s t : State) : (s.keepMem t).tokenLast = t.tokenLast := rfl
@[simp] theorem State.keepMem_vecs (s t : State) : (s.keepMem t).vecs = t.vecs := rfl
@[simp] theorem State.keepMem_yoyos (s t : State) : (s.keepMem t).yoyos = t.yoyos := rfl
@[simp] theorem State.keepMem_kvTable (s t : State) : (s.keepMem t).kvTable = t.kvTable := rfl
@[simp] theorem State.keepMem_kv (s t : State) : (s.keepMem t).kv = t.kv := rfl
@[simp] theorem State.keepMem_att (s t : State) : (s.keepMem t).att = t.att := rfl
@[simp] theorem State.keepMem_bushels (s t : State) : (s.keepMem t).bushels = t.bushels := rfl
@[simp] theorem State.keepMem_rauQ (s t : State) : (s.keepMem t).rauQ = t.rauQ := rfl
@[simp] theorem State.keepMem_rauSeq (s t : State) : (s.keepMem t).rauSeq = t.rauSeq := rfl
@[simp] theorem State.keepMem_ends (s t : State) : (s.keepMem t).ends = t.ends := rfl
@[simp] theorem State.keepMem_verdict (s t : State) : (s.keepMem t).verdict = t.verdict := rfl
@[simp] theorem State.keepMem_upd (s t : State) : (s.keepMem t).upd = t.upd := rfl
@[simp] theorem State.keepMem_rules (s t : State) : (s.keepMem t).rules = t.rules := rfl
@[simp] theorem State.keepMem_ports (s t : State) : (s.keepMem t).ports = t.ports := rfl
@[simp] theorem State.keepMem_localQ (s t : State) : (s.keepMem t).localQ = t.localQ := rfl
@[simp] theorem State.keepMem_snap (s t : State) : (s.keepMem t).snap = t.snap := rfl
@[simp] theorem State.keepMem_tel (s t : State) : (s.keepMem t).tel = t.tel := rfl
@[simp] theorem State.keepMem_clk (s t : State) : (s.keepMem t).clk = t.clk := rfl
@[simp] theorem State.keepMem_budget (s t : State) : (s.keepMem t).budget = t.budget := rfl
@[simp] theorem State.keepMem_mon (s t : State) : (s.keepMem t).mon = t.mon := rfl
@[simp] theorem State.keepMem_halt (s t : State) : (s.keepMem t).halt = t.halt := rfl
@[simp] theorem State.keepMem_inst (s t : State) : (s.keepMem t).inst = t.inst := rfl
@[simp] theorem State.keepMem_nvm (s t : State) : (s.keepMem t).nvm = t.nvm := rfl
@[simp] theorem State.keepMem_fw (s t : State) : (s.keepMem t).fw = t.fw := rfl
@[simp] theorem State.keepMem_sec (s t : State) : (s.keepMem t).sec = t.sec := rfl
@[simp] theorem State.keepMem_spdm (s t : State) : (s.keepMem t).spdm = t.spdm := rfl
@[simp] theorem State.keepMem_i3c (s t : State) : (s.keepMem t).i3c = t.i3c := rfl
@[simp] theorem State.keepMem_pcie (s t : State) : (s.keepMem t).pcie = t.pcie := rfl
@[simp] theorem State.keepMem_maint (s t : State) : (s.keepMem t).maint = t.maint := rfl
@[simp] theorem State.keepMem_dieReset (s t : State) : (s.keepMem t).dieReset = t.dieReset := rfl
@[simp] theorem State.keepMem_resetReq (s t : State) : (s.keepMem t).resetReq = t.resetReq := rfl
@[simp] theorem State.keepMem_stackFail (s t : State) : (s.keepMem t).stackFail = t.stackFail := rfl

end Sys2Proof.Machine
end

