-- ==== Sys2Proof/Laws/Tbl.lean ====
section
/-!
SUPPORT. Laws/Tbl.lean: reading back a sparse table, and its canonical form.
-/

namespace Sys2Proof.Machine

variable {α : Type}

/-! ## Reading back -/

@[simp] theorem Tbl.get_nil (d : Nat → α) (k : Nat) : Tbl.get d [] k = d k := rfl

theorem Tbl.get_cons (d : Nat → α) (e : Nat × α) (t : Tbl α) (k : Nat) :
    Tbl.get d (e :: t) k = if e.1 = k then e.2 else Tbl.get d t k := rfl

/-- An insertion reads back at its key and leaves every other key alone. -/
theorem Tbl.get_insert (d : Nat → α) (t : Tbl α) (k : Nat) (v : α) (j : Nat) :
    Tbl.get d (Tbl.insert k v t) j = if k = j then v else Tbl.get d t j := by
  induction t with
  | nil => rfl
  | cons e t ih =>
    simp only [Tbl.insert]
    split
    · rfl
    · split
      · next h => subst h; simp only [Tbl.get_cons]; split <;> rfl
      · next h =>
        simp only [Tbl.get_cons, ih]
        by_cases hk : e.1 = j
        · simp only [hk, if_true]; split
          · next h' => exact absurd (h'.trans hk.symm) h
          · rfl
        · simp only [hk, if_false]

/-- An erased key reads as its default; every other key is left alone. -/
theorem Tbl.get_erase (d : Nat → α) (t : Tbl α) (k j : Nat) :
    Tbl.get d (Tbl.erase k t) j = if k = j then d j else Tbl.get d t j := by
  induction t with
  | nil => simp [Tbl.erase]
  | cons e t ih =>
    simp only [Tbl.erase]
    split
    · next h =>
      rw [ih, Tbl.get_cons, h]
      split <;> rfl
    · next h =>
      simp only [Tbl.get_cons, ih]
      by_cases hk : e.1 = j
      · simp only [hk, if_true]; split
        · next h' => exact absurd (hk.trans h'.symm) h
        · rfl
      · simp only [hk, if_false]

@[simp] theorem Tbl.length_getMany (d : Nat → α) (t : Tbl α) (k n : Nat) : (Tbl.getMany d t k n).length = n := by
  induction n generalizing k with
  | zero => rfl
  | succ n ih => simp [Tbl.getMany, ih]

theorem Tbl.getElem_getMany (d : Nat → α) (t : Tbl α) (k n i : Nat) (h : i < n) :
    (Tbl.getMany d t k n)[i]'(by simpa using h) = Tbl.get d t (k + i) := by
  induction n generalizing k i with
  | zero => omega
  | succ n ih =>
    cases i with
    | zero => simp [Tbl.getMany]
    | succ i =>
      simp only [Tbl.getMany, List.getElem_cons_succ]
      rw [ih (k + 1) i (by omega), show k + 1 + i = k + (i + 1) by omega]

variable [DecidableEq α]

/-- A write reads back at its key and leaves every other key alone. -/
theorem Tbl.get_set (d : Nat → α) (t : Tbl α) (k : Nat) (v : α) (j : Nat) :
    Tbl.get d (Tbl.set d t k v) j = if k = j then v else Tbl.get d t j := by
  unfold Tbl.set
  split
  · next h =>
    rw [Tbl.get_erase]; split
    · next e => subst e; exact h.symm
    · rfl
  · exact Tbl.get_insert d t k v j

@[simp] theorem Tbl.get_set_same (d : Nat → α) (t : Tbl α) (k : Nat) (v : α) : Tbl.get d (Tbl.set d t k v) k = v := by
  simp [Tbl.get_set]

theorem Tbl.get_set_other (d : Nat → α) (t : Tbl α) {k j : Nat} (v : α) (h : k ≠ j) :
    Tbl.get d (Tbl.set d t k v) j = Tbl.get d t j := by
  simp [Tbl.get_set, h]

/-- A write of consecutive keys leaves every key outside them alone. -/
theorem Tbl.get_setMany_other (d : Nat → α) (t : Tbl α) (k : Nat) (vs : List α) (j : Nat)
    (h : j < k ∨ k + vs.length ≤ j) : Tbl.get d (Tbl.setMany d t k vs) j = Tbl.get d t j := by
  induction vs generalizing t k with
  | nil => rfl
  | cons v vs ih =>
    simp only [Tbl.setMany, List.length_cons] at *
    rw [ih _ _ (by omega), Tbl.get_set_other d t v (by omega)]

/-- A write of consecutive keys reads back inside them. -/
theorem Tbl.get_setMany_in (d : Nat → α) (t : Tbl α) (k : Nat) (vs : List α) (i : Nat) (h : i < vs.length) :
    Tbl.get d (Tbl.setMany d t k vs) (k + i) = vs[i] := by
  induction vs generalizing t k i with
  | nil => simp at h
  | cons v vs ih =>
    simp only [Tbl.setMany]
    cases i with
    | zero =>
      rw [Tbl.get_setMany_other _ _ _ _ _ (by omega)]; simp
    | succ i =>
      have := ih (Tbl.set d t k v) (k + 1) i (by simpa using h)
      rw [show k + (i + 1) = k + 1 + i by omega, this]; simp

/-- What was written is read back. -/
theorem Tbl.getMany_setMany (d : Nat → α) (t : Tbl α) (k : Nat) (vs : List α) :
    Tbl.getMany d (Tbl.setMany d t k vs) k vs.length = vs := by
  apply List.ext_getElem (by simp)
  intro i h₁ h₂
  rw [Tbl.getElem_getMany _ _ _ _ _ h₂, Tbl.get_setMany_in _ _ _ _ _ h₂]

/-- A read outside the written keys sees no change. -/
theorem Tbl.getMany_setMany_other (d : Nat → α) (t : Tbl α) (k : Nat) (vs : List α) (j n : Nat)
    (h : j + n ≤ k ∨ k + vs.length ≤ j) : Tbl.getMany d (Tbl.setMany d t k vs) j n = Tbl.getMany d t j n := by
  apply List.ext_getElem (by simp)
  intro i h₁ h₂
  have hi : i < n := by simpa using h₂
  rw [Tbl.getElem_getMany _ _ _ _ _ hi, Tbl.getElem_getMany _ _ _ _ _ hi, Tbl.get_setMany_other _ _ _ _ _ (by omega)]

/-! ## The canonical form -/

theorem Tbl.wfFrom_mono (d : Nat → α) {lo hi : Nat} (t : Tbl α) (h : lo ≤ hi) (w : Tbl.wfFrom d hi t = true) :
    Tbl.wfFrom d lo t = true := by
  cases t with
  | nil => rfl
  | cons e t =>
    simp only [Tbl.wfFrom, Bool.and_eq_true, decide_eq_true_eq] at *
    exact ⟨⟨Nat.le_trans h w.1.1, w.1.2⟩, w.2⟩

theorem Tbl.wfFrom_insert (d : Nat → α) (t : Tbl α) (lo k : Nat) (v : α) (hk : lo ≤ k) (hv : v ≠ d k)
    (w : Tbl.wfFrom d lo t = true) : Tbl.wfFrom d lo (Tbl.insert k v t) = true := by
  induction t generalizing lo with
  | nil => simp [Tbl.insert, Tbl.wfFrom, hk, hv]
  | cons e t ih =>
    simp only [Tbl.wfFrom, Bool.and_eq_true, decide_eq_true_eq] at w
    simp only [Tbl.insert]
    split
    · next h =>
      simp only [Tbl.wfFrom, Bool.and_eq_true, decide_eq_true_eq]
      exact ⟨⟨hk, hv⟩, ⟨by omega, w.1.2⟩, w.2⟩
    · split
      · next h =>
        subst h
        simp only [Tbl.wfFrom, Bool.and_eq_true, decide_eq_true_eq]
        exact ⟨⟨hk, hv⟩, w.2⟩
      · simp only [Tbl.wfFrom, Bool.and_eq_true, decide_eq_true_eq]
        exact ⟨w.1, ih (e.1 + 1) (by omega) w.2⟩

theorem Tbl.wfFrom_erase (d : Nat → α) (t : Tbl α) (lo k : Nat) (w : Tbl.wfFrom d lo t = true) :
    Tbl.wfFrom d lo (Tbl.erase k t) = true := by
  induction t generalizing lo with
  | nil => rfl
  | cons e t ih =>
    simp only [Tbl.wfFrom, Bool.and_eq_true, decide_eq_true_eq] at w
    simp only [Tbl.erase]
    split
    · exact ih lo (Tbl.wfFrom_mono d t (by omega) w.2)
    · simp only [Tbl.wfFrom, Bool.and_eq_true, decide_eq_true_eq]
      exact ⟨w.1, ih (e.1 + 1) w.2⟩

theorem Tbl.wf_set (d : Nat → α) (t : Tbl α) (k : Nat) (v : α) (w : Tbl.wf d t = true) :
    Tbl.wf d (Tbl.set d t k v) = true := by
  unfold Tbl.set; split
  · exact Tbl.wfFrom_erase d t 0 k w
  · next h => exact Tbl.wfFrom_insert d t 0 k v (Nat.zero_le k) h w

theorem Tbl.wf_setMany (d : Nat → α) (t : Tbl α) (k : Nat) (vs : List α) (w : Tbl.wf d t = true) :
    Tbl.wf d (Tbl.setMany d t k vs) = true := by
  induction vs generalizing t k with
  | nil => exact w
  | cons v vs ih => exact ih _ _ (Tbl.wf_set d t k v w)

theorem Tbl.wfFrom_filter (d : Nat → α) (t : Tbl α) (lo : Nat) (p : Nat × α → Bool) (w : Tbl.wfFrom d lo t = true) :
    Tbl.wfFrom d lo (t.filter p) = true := by
  induction t generalizing lo with
  | nil => rfl
  | cons e t ih =>
    simp only [Tbl.wfFrom, Bool.and_eq_true, decide_eq_true_eq] at w
    simp only [List.filter]
    split
    · simp only [Tbl.wfFrom, Bool.and_eq_true, decide_eq_true_eq]
      exact ⟨w.1, ih (e.1 + 1) w.2⟩
    · exact ih lo (Tbl.wfFrom_mono d t (by omega) w.2)

end Sys2Proof.Machine
end

