-- ==== Sys2Proof/Laws/Memory.lean ====
section
/-!
SUPPORT. Laws/Memory.lean: what the memory operations do, and that each keeps the canonical form.
-/

namespace Sys2Proof.Machine

/-- Reset's memory is in the canonical form. -/
theorem State.reset_mem_wf : Memory.wf State.reset.mem = true := rfl

/-! ## Device memory -/

theorem State.poke_mem_wf {s : State} (h : Memory.wf s.mem = true) (a : Nat) (bs : List Byte) :
    Memory.wf (s.poke a bs).mem = true := Tbl.wf_setMany _ _ _ _ h

/-- A read of what was just put there. -/
@[simp] theorem State.peek_poke (s : State) (a : Nat) (bs : List Byte) : (s.poke a bs).peek a bs.length = bs :=
  Tbl.getMany_setMany _ _ _ _

/-- A read outside the bytes put sees no change. -/
theorem State.peek_poke_other (s : State) (a : Nat) (bs : List Byte) (b n : Nat)
    (h : b + n ≤ a ∨ a + bs.length ≤ b) : (s.poke a bs).peek b n = s.peek b n :=
  Tbl.getMany_setMany_other _ _ _ _ _ _ h

/-- A fold of byte pokes keeps the canonical form. -/
theorem State.foldl_poke_mem_wf {β : Type} (f : State → β → State)
    (hf : ∀ t b, Memory.wf t.mem = true → Memory.wf (f t b).mem = true) (l : List β) (s : State)
    (h : Memory.wf s.mem = true) : Memory.wf (l.foldl f s).mem = true := by
  induction l generalizing s with
  | nil => exact h
  | cons b l ih => exact ih _ (hf _ _ h)

theorem State.storeEcc_mem_wf {s : State} (h : Memory.wf s.mem = true) (a : Nat) (bs : List Byte) :
    Memory.wf (s.storeEcc a bs).mem = true := by
  unfold State.storeEcc
  simp only
  split
  · exact State.poke_mem_wf h a bs
  · apply State.foldl_poke_mem_wf _ _ _ _ h
    intro t b ht
    split
    · exact ht
    · exact State.poke_mem_wf ht _ _

theorem State.store_mem_wf {s : State} (h : Memory.wf s.mem = true) (eng : Option Nat) (a : Nat) (bs : List Byte) :
    Memory.wf (s.store eng a bs).mem = true := by
  unfold State.store
  split
  · exact h
  · split
    · exact h
    · exact State.storeEcc_mem_wf h a bs

/-- Everything a plain write can do: hold it, drop it because its stack is off, or store it. -/
theorem State.store_cases (s : State) (eng : Option Nat) (a : Nat) (bs : List Byte) :
    (s.heldAt a bs.length = true ∧
      s.store eng a bs = { s with snap := { s.snap with held := s.snap.held ++ [{ addr := a, bytes := bs, engine := eng }] } }) ∨
    (s.heldAt a bs.length = false ∧ a < stackEnd ∧ s.stackDead (stackOf a).1 = true ∧ s.store eng a bs = s) ∨
    (s.heldAt a bs.length = false ∧ (a < stackEnd → s.stackDead (stackOf a).1 = false) ∧
      s.store eng a bs = s.storeEcc a bs) := by
  unfold State.store
  by_cases h : s.heldAt a bs.length = true
  · exact .inl ⟨h, if_pos h⟩
  · have h' : s.heldAt a bs.length = false := by simpa using h
    refine .inr ?_
    by_cases d : a < stackEnd ∧ s.stackDead (stackOf a).1 = true
    · exact .inl ⟨h', d.1, d.2, by simp [h', d.1, d.2]⟩
    · refine .inr ⟨h', ?_, ?_⟩
      · intro ha; cases hd : s.stackDead (stackOf a).1
        · rfl
        · exact absurd ⟨ha, hd⟩ d
      · rw [if_neg h, if_neg]
        simpa using d

/-- With no bad word, a write stores its bytes and nothing else. -/
theorem State.storeEcc_of_clean {s : State} (h : s.badWords = []) (a : Nat) (bs : List Byte) :
    s.storeEcc a bs = s.poke a bs := by
  simp [State.storeEcc, h]

/-! ## Host memory -/

/-- Host memory is in the canonical form. -/
theorem State.hostPoke_wf {s : State} (h : Tbl.wf hostDefault s.host.mem = true) (a : Nat) (bs : List Byte) :
    Tbl.wf hostDefault (s.hostPoke a bs).host.mem = true := Tbl.wf_setMany _ _ _ _ h

@[simp] theorem State.hostPeek_hostPoke (s : State) (a : Nat) (bs : List Byte) :
    (s.hostPoke a bs).hostPeek a bs.length = bs := Tbl.getMany_setMany _ _ _ _

theorem State.poolPoke_wf {s : State} (h : Tbl.wf hostDefault s.host.mem = true) (a : Nat) (bs : List Byte) :
    Tbl.wf hostDefault (s.poolPoke a bs).host.mem = true := by
  induction bs generalizing s a with
  | nil => exact h
  | cons b bs ih =>
    simp only [State.poolPoke]
    apply ih
    split
    · exact State.hostPoke_wf h _ _
    · exact h

end Sys2Proof.Machine
end

