-- ==== Sys2Proof/Laws/Registers.lean ====
section
/-!
SUPPORT. Laws/Registers.lean: reading back registers, fields, flags and counters, and the tables of cores and engines.
-/

namespace Sys2Proof.Machine

theorem State.reg_setReg (s : State) (off v j : Nat) :
    (s.setReg off v).reg j = if off = j then v % 2 ^ 64 else s.reg j := by
  unfold State.reg
  rw [State.setReg_regs, Tbl.get_set]
  split <;> simp [BitVec.toNat_ofNat]

@[simp] theorem State.reg_setReg_same (s : State) (off v : Nat) : (s.setReg off v).reg off = v % 2 ^ 64 := by
  simp [State.reg_setReg]

theorem State.reg_setReg_other (s : State) {off j : Nat} (v : Nat) (h : off ≠ j) : (s.setReg off v).reg j = s.reg j := by
  simp [State.reg_setReg, h]

theorem State.reg_lt (s : State) (off : Nat) : s.reg off < 2 ^ 64 := (Tbl.get regReset s.regs off).isLt

/-- A counter counts, saturates (R459) and leaves every other register alone. -/
theorem State.reg_count (s : State) (off n j : Nat) :
    (s.count off n).reg j = if off = j then capAt (regTop off) (s.reg off + n) % 2 ^ 64 else s.reg j := by
  unfold State.count
  exact State.reg_setReg s off _ j

theorem State.reg_count_other (s : State) {off j : Nat} (n : Nat) (h : off ≠ j) : (s.count off n).reg j = s.reg j := by
  simp [State.reg_count, h]

theorem State.reg_setField_other (s : State) {off j : Nat} (hi lo v : Nat) (h : off ≠ j) :
    (s.setField off hi lo v).reg j = s.reg j := State.reg_setReg_other s _ h

theorem State.reg_setFlag_other (s : State) {off j : Nat} (i : Nat) (v : Bool) (h : off ≠ j) :
    (s.setFlag off i v).reg j = s.reg j := State.reg_setReg_other s _ h

theorem regTop_lt (off : Nat) : regTop off < 2 ^ 64 := by
  unfold regTop
  split
  · split <;> decide
  · decide

theorem capAt_le (m x : Nat) : capAt m x ≤ m := by
  unfold capAt; split <;> omega

/-- A counter after it has counted. -/
@[simp] theorem State.reg_count_same (s : State) (off n : Nat) :
    (s.count off n).reg off = capAt (regTop off) (s.reg off + n) := by
  rw [State.reg_count, if_pos rfl, Nat.mod_eq_of_lt (Nat.lt_of_le_of_lt (capAt_le _ _) (regTop_lt off))]

/-- A field after it has been written. -/
theorem State.field_setField_same (s : State) (off v : Nat) {hi lo : Nat} (hh : hi < 64) (hw : lo ≤ hi) :
    (s.setField off hi lo v).field off hi lo = v % 2 ^ (hi + 1 - lo) := by
  unfold State.field State.setField
  rw [State.reg_setReg_same, Nat.mod_eq_of_lt (putBits_lt v (State.reg_lt s off) hh hw), bitsOf_putBits_same]

/-- A field of a register of which another field has been written. -/
theorem State.field_setField_disjoint (s : State) (off v : Nat) {hi lo h l : Nat} (hh : hi < 64) (hw : lo ≤ hi) (hl : l ≤ h)
    (d : h < lo ∨ hi < l) : (s.setField off hi lo v).field off h l = s.field off h l := by
  unfold State.field State.setField
  rw [State.reg_setReg_same, Nat.mod_eq_of_lt (putBits_lt v (State.reg_lt s off) hh hw),
    bitsOf_putBits_disjoint _ _ _ _ hw hl d]

/-- A flag after it has been written. -/
theorem State.bit_setFlag_same (s : State) (off : Nat) {i : Nat} (v : Bool) (h : i < 64) :
    bitOf ((s.setFlag off i v).reg off) i = v := by
  unfold State.setFlag State.setField
  rw [State.reg_setReg_same, Nat.mod_eq_of_lt (putBits_lt _ (State.reg_lt s off) h (Nat.le_refl i)), bitOf_putBits_same]

/-- Another bit of a register of which a flag has been written. -/
theorem State.bit_setFlag_other (s : State) (off : Nat) {i j : Nat} (v : Bool) (h : i < 64) (d : j ≠ i) :
    bitOf ((s.setFlag off i v).reg off) j = bitOf (s.reg off) j := by
  unfold State.setFlag State.setField
  rw [State.reg_setReg_same, Nat.mod_eq_of_lt (putBits_lt _ (State.reg_lt s off) h (Nat.le_refl i)),
    bitOf_putBits_other _ _ _ _ (Nat.le_refl i) (by omega)]

@[simp] theorem State.reg_keepSystem (s t : State) (off : Nat) : (s.keepSystem t).reg off = t.reg off := rfl
@[simp] theorem State.reg_keepFixed (s t : State) (off : Nat) : (s.keepFixed t).reg off = t.reg off := rfl
@[simp] theorem State.reg_keepMem (s t : State) (off : Nat) : (s.keepMem t).reg off = t.reg off := rfl

@[simp] theorem State.core_setCore_same (s : State) (k : Nat) (c : Core) : (s.setCore k c).core k = c := by
  simp [State.core]

theorem State.core_setCore_other (s : State) {k j : Nat} (c : Core) (h : k ≠ j) : (s.setCore k c).core j = s.core j := by
  simp [State.core, Tbl.get_set, h]

@[simp] theorem State.engine_setEngine_same (s : State) (e : Nat) (v : Engine) : (s.setEngine e v).engine e = v := by
  simp [State.engine]

theorem State.engine_setEngine_other (s : State) {e j : Nat} (v : Engine) (h : e ≠ j) :
    (s.setEngine e v).engine j = s.engine j := by
  simp [State.engine, Tbl.get_set, h]

@[simp] theorem State.vec_setVec_same (s : State) (e : Nat) (v : Vec) : (s.setVec e v).vec e = v := by
  simp [State.vec]

theorem State.port_setPort (s : State) (p : Nat) (v : Port) {j : Nat} (h : j < 4) :
    (s.setPort p v).port j = if j = p then v else s.port j := listGet_listPut _ _ _ _ _ h

theorem State.yoyo_setYoyo (s : State) (d : Nat) (v : Yoyo) {j : Nat} (h : j < 2) :
    (s.setYoyo d v).yoyo j = if j = d then v else s.yoyo j := listGet_listPut _ _ _ _ _ h

theorem State.ring_setRing (s : State) (r : Nat) (v : Ring) {j : Nat} (h : j < 4) :
    (s.setRing r v).ring j = if j = r then v else s.ring j := listGet_listPut _ _ _ _ _ h

end Sys2Proof.Machine
end

