-- ==== Sys2Proof/Laws/Report.lean ====
section
/-!
SUPPORT. Laws/Report.lean: what reporting changes. A record, an alarm or an audit entry touches telemetry, the audit log,
the ring in device memory and their registers, and nothing else.
-/

namespace Sys2Proof.Machine

/-! ## Telemetry -/

/-- `t` is `s` but for what a record may change. -/
def TelOnly (s t : State) : Prop :=
  t = { s with regs := t.regs, mem := t.mem, badWords := t.badWords, snap := t.snap, tel := t.tel } ∧
  (∀ off, off ≠ rTelWriteIndex → off ≠ rTelStatus → off ≠ rTelCtrEPISODES → t.reg off = s.reg off) ∧
  (Memory.wf s.mem = true → Memory.wf t.mem = true) ∧
  t.snap = { s.snap with held := t.snap.held }

theorem TelOnly.refl (s : State) : TelOnly s s := ⟨rfl, fun _ _ _ _ => rfl, id, rfl⟩

theorem TelOnly.trans {s t u : State} (h : TelOnly s t) (g : TelOnly t u) : TelOnly s u := by
  obtain ⟨h₁, h₂, h₃, h₄⟩ := h
  obtain ⟨g₁, g₂, g₃, g₄⟩ := g
  refine ⟨?_, fun o a b c => (g₂ o a b c).trans (h₂ o a b c), fun w => g₃ (h₃ w), ?_⟩
  · rw [g₁, h₁]
  · rw [g₄, h₄]

theorem TelOnly.modSrc (s : State) (x : Nat) (f : TelSrc → TelSrc) : TelOnly s (s.modSrc x f) :=
  ⟨rfl, fun _ _ _ _ => rfl, id, rfl⟩

theorem TelOnly.tel (s : State) (t : TelSt) : TelOnly s { s with tel := t } := ⟨rfl, fun _ _ _ _ => rfl, id, rfl⟩

theorem TelOnly.store (s : State) (e : Option Nat) (a : Nat) (bs : List Byte) : TelOnly s (s.store e a bs) := by
  refine ⟨?_, ?_, fun h => State.store_mem_wf h e a bs, ?_⟩
  all_goals
    have key : ∀ (l : List (Nat × Byte)) (k : List Nat) (t : State),
        l.foldl (fun (t : State) ib => if k.contains ((a + ib.1) / 32 * 32) then t else t.poke (a + ib.1) [ib.2]) t =
        { t with mem := (l.foldl (fun (t : State) ib =>
          if k.contains ((a + ib.1) / 32 * 32) then t else t.poke (a + ib.1) [ib.2]) t).mem } := by
      intro l k
      induction l with
      | nil => intro t; rfl
      | cons b l ih =>
        intro t
        simp only [List.foldl]
        rw [ih]
        split <;> rfl
    unfold State.store
    split
    · first | rfl | (intro _ _ _ _; rfl)
    · split
      · first | rfl | (intro _ _ _ _; rfl)
      · unfold State.storeEcc
        simp only
        split
        · first | rfl | (intro _ _ _ _; rfl)
        · first | (rw [key]; done) | (rw [key]; intro _ _ _ _; rfl)

theorem TelOnly.setReg (s : State) (off v : Nat) (h : off = rTelWriteIndex ∨ off = rTelStatus ∨ off = rTelCtrEPISODES) :
    TelOnly s (s.setReg off v) := by
  refine ⟨rfl, ?_, id, rfl⟩
  intro o a b c
  apply State.reg_setReg_other
  rcases h with h | h | h <;> subst h <;> exact fun e => by first | exact a e.symm | exact b e.symm | exact c e.symm

theorem TelOnly.writeRec (s : State) (r : TelRec) : TelOnly s (s.writeRec r) :=
  (TelOnly.store s _ _ _).trans (TelOnly.setReg _ _ _ (.inl rfl))

theorem TelOnly.writeNow (s : State) (source cls kind code : Nat) (body : List Byte) :
    TelOnly s (s.writeNow source cls kind code body) := by
  unfold State.writeNow
  simp only
  split
  · exact TelOnly.tel s _
  · exact (TelOnly.tel s _).trans (TelOnly.writeRec _ _)

theorem TelOnly.raiseLevel (s : State) : TelOnly s s.raiseLevel := by
  unfold State.raiseLevel
  simp only
  split
  · exact TelOnly.refl s
  · split
    · exact ((((TelOnly.tel s _).trans (TelOnly.tel _ _)).trans (TelOnly.writeNow _ _ _ _ _ _)).trans
        (TelOnly.setReg _ _ _ (.inr (.inl rfl)))).trans (TelOnly.setReg _ _ _ (.inr (.inr rfl)))
    · exact TelOnly.tel s _

theorem TelOnly.shed (s : State) (r : TelRec) : TelOnly s (s.shed r) := by
  unfold State.shed
  split
  · exact (TelOnly.modSrc s _ _).trans (TelOnly.tel _ _)
  · exact (TelOnly.modSrc s _ _).trans (TelOnly.tel _ _)
  · exact (TelOnly.modSrc s _ _).trans (TelOnly.tel _ _)
  · exact TelOnly.refl s

theorem TelOnly.countEmitted (s : State) (source cls : Nat) : TelOnly s (s.countEmitted source cls) := by
  unfold State.countEmitted
  split
  · exact TelOnly.modSrc s _ _
  · exact TelOnly.modSrc s _ _
  · exact TelOnly.refl s

theorem TelOnly.emit (s : State) (source cls kind code : Nat) (body : List Byte) :
    TelOnly s (s.emit source cls kind code body) := by
  unfold State.emit
  simp only
  split
  · exact TelOnly.refl s
  · split
    · exact ((TelOnly.tel s _).trans (TelOnly.countEmitted _ _ _)).trans (TelOnly.shed _ _)
    · exact ((TelOnly.tel s _).trans (TelOnly.tel _ _)).trans (TelOnly.raiseLevel _)

theorem TelOnly.alarm (s : State) (source code : Nat) : TelOnly s (s.alarm source code) := by
  unfold State.alarm
  simp only
  split
  · exact TelOnly.modSrc s _ _
  · exact (TelOnly.modSrc s _ _).trans (TelOnly.emit _ _ _ _ _ _)

/-- An alarm leaves every register but those of the telemetry ring alone. -/
theorem State.reg_alarm (s : State) (x c : Nat) {off : Nat} (a : off ≠ rTelWriteIndex) (b : off ≠ rTelStatus)
    (d : off ≠ rTelCtrEPISODES) : (s.alarm x c).reg off = s.reg off := (TelOnly.alarm s x c).2.1 off a b d

theorem State.reg_emit (s : State) (x k i c : Nat) (bs : List Byte) {off : Nat} (a : off ≠ rTelWriteIndex)
    (b : off ≠ rTelStatus) (d : off ≠ rTelCtrEPISODES) : (s.emit x k i c bs).reg off = s.reg off :=
  (TelOnly.emit s x k i c bs).2.1 off a b d

theorem TelOnly.pending_eq {s t : State} (h : TelOnly s t) : t.pending = s.pending := by rw [h.1]
theorem TelOnly.free_eq {s t : State} (h : TelOnly s t) : t.free = s.free := by rw [h.1]
theorem TelOnly.readData_eq {s t : State} (h : TelOnly s t) : t.readData = s.readData := by rw [h.1]
theorem TelOnly.readBytes_eq {s t : State} (h : TelOnly s t) : t.readBytes = s.readBytes := by rw [h.1]
theorem TelOnly.latches_eq {s t : State} (h : TelOnly s t) : t.latches = s.latches := by rw [h.1]
theorem TelOnly.staging_eq {s t : State} (h : TelOnly s t) : t.staging = s.staging := by rw [h.1]
theorem TelOnly.host_eq {s t : State} (h : TelOnly s t) : t.host = s.host := by rw [h.1]
theorem TelOnly.tick_eq {s t : State} (h : TelOnly s t) : t.tick = s.tick := by rw [h.1]
theorem TelOnly.binding_eq {s t : State} (h : TelOnly s t) : t.binding = s.binding := by rw [h.1]
theorem TelOnly.engines_eq {s t : State} (h : TelOnly s t) : t.engines = s.engines := by rw [h.1]
theorem TelOnly.cores_eq {s t : State} (h : TelOnly s t) : t.cores = s.cores := by rw [h.1]
theorem TelOnly.tokenQ_eq {s t : State} (h : TelOnly s t) : t.tokenQ = s.tokenQ := by rw [h.1]
theorem TelOnly.tokenLast_eq {s t : State} (h : TelOnly s t) : t.tokenLast = s.tokenLast := by rw [h.1]
theorem TelOnly.vecs_eq {s t : State} (h : TelOnly s t) : t.vecs = s.vecs := by rw [h.1]
theorem TelOnly.yoyos_eq {s t : State} (h : TelOnly s t) : t.yoyos = s.yoyos := by rw [h.1]
theorem TelOnly.kvTable_eq {s t : State} (h : TelOnly s t) : t.kvTable = s.kvTable := by rw [h.1]
theorem TelOnly.kv_eq {s t : State} (h : TelOnly s t) : t.kv = s.kv := by rw [h.1]
theorem TelOnly.att_eq {s t : State} (h : TelOnly s t) : t.att = s.att := by rw [h.1]
theorem TelOnly.bushels_eq {s t : State} (h : TelOnly s t) : t.bushels = s.bushels := by rw [h.1]
theorem TelOnly.rauQ_eq {s t : State} (h : TelOnly s t) : t.rauQ = s.rauQ := by rw [h.1]
theorem TelOnly.rauSeq_eq {s t : State} (h : TelOnly s t) : t.rauSeq = s.rauSeq := by rw [h.1]
theorem TelOnly.ends_eq {s t : State} (h : TelOnly s t) : t.ends = s.ends := by rw [h.1]
theorem TelOnly.verdict_eq {s t : State} (h : TelOnly s t) : t.verdict = s.verdict := by rw [h.1]
theorem TelOnly.upd_eq {s t : State} (h : TelOnly s t) : t.upd = s.upd := by rw [h.1]
theorem TelOnly.rules_eq {s t : State} (h : TelOnly s t) : t.rules = s.rules := by rw [h.1]
theorem TelOnly.ports_eq {s t : State} (h : TelOnly s t) : t.ports = s.ports := by rw [h.1]
theorem TelOnly.localQ_eq {s t : State} (h : TelOnly s t) : t.localQ = s.localQ := by rw [h.1]
theorem TelOnly.clk_eq {s t : State} (h : TelOnly s t) : t.clk = s.clk := by rw [h.1]
theorem TelOnly.budget_eq {s t : State} (h : TelOnly s t) : t.budget = s.budget := by rw [h.1]
theorem TelOnly.mon_eq {s t : State} (h : TelOnly s t) : t.mon = s.mon := by rw [h.1]
theorem TelOnly.halt_eq {s t : State} (h : TelOnly s t) : t.halt = s.halt := by rw [h.1]
theorem TelOnly.inst_eq {s t : State} (h : TelOnly s t) : t.inst = s.inst := by rw [h.1]
theorem TelOnly.nvm_eq {s t : State} (h : TelOnly s t) : t.nvm = s.nvm := by rw [h.1]
theorem TelOnly.fw_eq {s t : State} (h : TelOnly s t) : t.fw = s.fw := by rw [h.1]
theorem TelOnly.sec_eq {s t : State} (h : TelOnly s t) : t.sec = s.sec := by rw [h.1]
theorem TelOnly.spdm_eq {s t : State} (h : TelOnly s t) : t.spdm = s.spdm := by rw [h.1]
theorem TelOnly.i3c_eq {s t : State} (h : TelOnly s t) : t.i3c = s.i3c := by rw [h.1]
theorem TelOnly.pcie_eq {s t : State} (h : TelOnly s t) : t.pcie = s.pcie := by rw [h.1]
theorem TelOnly.maint_eq {s t : State} (h : TelOnly s t) : t.maint = s.maint := by rw [h.1]
theorem TelOnly.dieReset_eq {s t : State} (h : TelOnly s t) : t.dieReset = s.dieReset := by rw [h.1]
theorem TelOnly.resetReq_eq {s t : State} (h : TelOnly s t) : t.resetReq = s.resetReq := by rw [h.1]
theorem TelOnly.stackFail_eq {s t : State} (h : TelOnly s t) : t.stackFail = s.stackFail := by rw [h.1]

@[simp] theorem State.alarm_pending (s : State) (x c : Nat) : (s.alarm x c).pending = s.pending := (TelOnly.alarm s x c).pending_eq
@[simp] theorem State.alarm_free (s : State) (x c : Nat) : (s.alarm x c).free = s.free := (TelOnly.alarm s x c).free_eq
@[simp] theorem State.alarm_readData (s : State) (x c : Nat) : (s.alarm x c).readData = s.readData := (TelOnly.alarm s x c).readData_eq
@[simp] theorem State.alarm_readBytes (s : State) (x c : Nat) : (s.alarm x c).readBytes = s.readBytes := (TelOnly.alarm s x c).readBytes_eq
@[simp] theorem State.alarm_latches (s : State) (x c : Nat) : (s.alarm x c).latches = s.latches := (TelOnly.alarm s x c).latches_eq
@[simp] theorem State.alarm_staging (s : State) (x c : Nat) : (s.alarm x c).staging = s.staging := (TelOnly.alarm s x c).staging_eq
@[simp] theorem State.alarm_host (s : State) (x c : Nat) : (s.alarm x c).host = s.host := (TelOnly.alarm s x c).host_eq
@[simp] theorem State.alarm_tick (s : State) (x c : Nat) : (s.alarm x c).tick = s.tick := (TelOnly.alarm s x c).tick_eq
@[simp] theorem State.alarm_binding (s : State) (x c : Nat) : (s.alarm x c).binding = s.binding := (TelOnly.alarm s x c).binding_eq
@[simp] theorem State.alarm_engines (s : State) (x c : Nat) : (s.alarm x c).engines = s.engines := (TelOnly.alarm s x c).engines_eq
@[simp] theorem State.alarm_cores (s : State) (x c : Nat) : (s.alarm x c).cores = s.cores := (TelOnly.alarm s x c).cores_eq
@[simp] theorem State.alarm_tokenQ (s : State) (x c : Nat) : (s.alarm x c).tokenQ = s.tokenQ := (TelOnly.alarm s x c).tokenQ_eq
@[simp] theorem State.alarm_tokenLast (s : State) (x c : Nat) : (s.alarm x c).tokenLast = s.tokenLast := (TelOnly.alarm s x c).tokenLast_eq
@[simp] theorem State.alarm_vecs (s : State) (x c : Nat) : (s.alarm x c).vecs = s.vecs := (TelOnly.alarm s x c).vecs_eq
@[simp] theorem State.alarm_yoyos (s : State) (x c : Nat) : (s.alarm x c).yoyos = s.yoyos := (TelOnly.alarm s x c).yoyos_eq
@[simp] theorem State.alarm_kvTable (s : State) (x c : Nat) : (s.alarm x c).kvTable = s.kvTable := (TelOnly.alarm s x c).kvTable_eq
@[simp] theorem State.alarm_kv (s : State) (x c : Nat) : (s.alarm x c).kv = s.kv := (TelOnly.alarm s x c).kv_eq
@[simp] theorem State.alarm_att (s : State) (x c : Nat) : (s.alarm x c).att = s.att := (TelOnly.alarm s x c).att_eq
@[simp] theorem State.alarm_bushels (s : State) (x c : Nat) : (s.alarm x c).bushels = s.bushels := (TelOnly.alarm s x c).bushels_eq
@[simp] theorem State.alarm_rauQ (s : State) (x c : Nat) : (s.alarm x c).rauQ = s.rauQ := (TelOnly.alarm s x c).rauQ_eq
@[simp] theorem State.alarm_rauSeq (s : State) (x c : Nat) : (s.alarm x c).rauSeq = s.rauSeq := (TelOnly.alarm s x c).rauSeq_eq
@[simp] theorem State.alarm_ends (s : State) (x c : Nat) : (s.alarm x c).ends = s.ends := (TelOnly.alarm s x c).ends_eq
@[simp] theorem State.alarm_verdict (s : State) (x c : Nat) : (s.alarm x c).verdict = s.verdict := (TelOnly.alarm s x c).verdict_eq
@[simp] theorem State.alarm_upd (s : State) (x c : Nat) : (s.alarm x c).upd = s.upd := (TelOnly.alarm s x c).upd_eq
@[simp] theorem State.alarm_rules (s : State) (x c : Nat) : (s.alarm x c).rules = s.rules := (TelOnly.alarm s x c).rules_eq
@[simp] theorem State.alarm_ports (s : State) (x c : Nat) : (s.alarm x c).ports = s.ports := (TelOnly.alarm s x c).ports_eq
@[simp] theorem State.alarm_localQ (s : State) (x c : Nat) : (s.alarm x c).localQ = s.localQ := (TelOnly.alarm s x c).localQ_eq
@[simp] theorem State.alarm_clk (s : State) (x c : Nat) : (s.alarm x c).clk = s.clk := (TelOnly.alarm s x c).clk_eq
@[simp] theorem State.alarm_budget (s : State) (x c : Nat) : (s.alarm x c).budget = s.budget := (TelOnly.alarm s x c).budget_eq
@[simp] theorem State.alarm_mon (s : State) (x c : Nat) : (s.alarm x c).mon = s.mon := (TelOnly.alarm s x c).mon_eq
@[simp] theorem State.alarm_halt (s : State) (x c : Nat) : (s.alarm x c).halt = s.halt := (TelOnly.alarm s x c).halt_eq
@[simp] theorem State.alarm_inst (s : State) (x c : Nat) : (s.alarm x c).inst = s.inst := (TelOnly.alarm s x c).inst_eq
@[simp] theorem State.alarm_nvm (s : State) (x c : Nat) : (s.alarm x c).nvm = s.nvm := (TelOnly.alarm s x c).nvm_eq
@[simp] theorem State.alarm_fw (s : State) (x c : Nat) : (s.alarm x c).fw = s.fw := (TelOnly.alarm s x c).fw_eq
@[simp] theorem State.alarm_sec (s : State) (x c : Nat) : (s.alarm x c).sec = s.sec := (TelOnly.alarm s x c).sec_eq
@[simp] theorem State.alarm_spdm (s : State) (x c : Nat) : (s.alarm x c).spdm = s.spdm := (TelOnly.alarm s x c).spdm_eq
@[simp] theorem State.alarm_i3c (s : State) (x c : Nat) : (s.alarm x c).i3c = s.i3c := (TelOnly.alarm s x c).i3c_eq
@[simp] theorem State.alarm_pcie (s : State) (x c : Nat) : (s.alarm x c).pcie = s.pcie := (TelOnly.alarm s x c).pcie_eq
@[simp] theorem State.alarm_maint (s : State) (x c : Nat) : (s.alarm x c).maint = s.maint := (TelOnly.alarm s x c).maint_eq
@[simp] theorem State.alarm_dieReset (s : State) (x c : Nat) : (s.alarm x c).dieReset = s.dieReset := (TelOnly.alarm s x c).dieReset_eq
@[simp] theorem State.alarm_resetReq (s : State) (x c : Nat) : (s.alarm x c).resetReq = s.resetReq := (TelOnly.alarm s x c).resetReq_eq
@[simp] theorem State.alarm_stackFail (s : State) (x c : Nat) : (s.alarm x c).stackFail = s.stackFail := (TelOnly.alarm s x c).stackFail_eq
@[simp] theorem State.emit_pending (s : State) (x k i c : Nat) (bs : List Byte) : (s.emit x k i c bs).pending = s.pending :=
  (TelOnly.emit s x k i c bs).pending_eq
@[simp] theorem State.emit_free (s : State) (x k i c : Nat) (bs : List Byte) : (s.emit x k i c bs).free = s.free :=
  (TelOnly.emit s x k i c bs).free_eq
@[simp] theorem State.emit_readData (s : State) (x k i c : Nat) (bs : List Byte) : (s.emit x k i c bs).readData = s.readData :=
  (TelOnly.emit s x k i c bs).readData_eq
@[simp] theorem State.emit_readBytes (s : State) (x k i c : Nat) (bs : List Byte) : (s.emit x k i c bs).readBytes = s.readBytes :=
  (TelOnly.emit s x k i c bs).readBytes_eq
@[simp] theorem State.emit_latches (s : State) (x k i c : Nat) (bs : List Byte) : (s.emit x k i c bs).latches = s.latches :=
  (TelOnly.emit s x k i c bs).latches_eq
@[simp] theorem State.emit_staging (s : State) (x k i c : Nat) (bs : List Byte) : (s.emit x k i c bs).staging = s.staging :=
  (TelOnly.emit s x k i c bs).staging_eq
@[simp] theorem State.emit_host (s : State) (x k i c : Nat) (bs : List Byte) : (s.emit x k i c bs).host = s.host :=
  (TelOnly.emit s x k i c bs).host_eq
@[simp] theorem State.emit_tick (s : State) (x k i c : Nat) (bs : List Byte) : (s.emit x k i c bs).tick = s.tick :=
  (TelOnly.emit s x k i c bs).tick_eq
@[simp] theorem State.emit_binding (s : State) (x k i c : Nat) (bs : List Byte) : (s.emit x k i c bs).binding = s.binding :=
  (TelOnly.emit s x k i c bs).binding_eq
@[simp] theorem State.emit_engines (s : State) (x k i c : Nat) (bs : List Byte) : (s.emit x k i c bs).engines = s.engines :=
  (TelOnly.emit s x k i c bs).engines_eq
@[simp] theorem State.emit_cores (s : State) (x k i c : Nat) (bs : List Byte) : (s.emit x k i c bs).cores = s.cores :=
  (TelOnly.emit s x k i c bs).cores_eq
@[simp] theorem State.emit_tokenQ (s : State) (x k i c : Nat) (bs : List Byte) : (s.emit x k i c bs).tokenQ = s.tokenQ :=
  (TelOnly.emit s x k i c bs).tokenQ_eq
@[simp] theorem State.emit_tokenLast (s : State) (x k i c : Nat) (bs : List Byte) : (s.emit x k i c bs).tokenLast = s.tokenLast :=
  (TelOnly.emit s x k i c bs).tokenLast_eq
@[simp] theorem State.emit_vecs (s : State) (x k i c : Nat) (bs : List Byte) : (s.emit x k i c bs).vecs = s.vecs :=
  (TelOnly.emit s x k i c bs).vecs_eq
@[simp] theorem State.emit_yoyos (s : State) (x k i c : Nat) (bs : List Byte) : (s.emit x k i c bs).yoyos = s.yoyos :=
  (TelOnly.emit s x k i c bs).yoyos_eq
@[simp] theorem State.emit_kvTable (s : State) (x k i c : Nat) (bs : List Byte) : (s.emit x k i c bs).kvTable = s.kvTable :=
  (TelOnly.emit s x k i c bs).kvTable_eq
@[simp] theorem State.emit_kv (s : State) (x k i c : Nat) (bs : List Byte) : (s.emit x k i c bs).kv = s.kv :=
  (TelOnly.emit s x k i c bs).kv_eq
@[simp] theorem State.emit_att (s : State) (x k i c : Nat) (bs : List Byte) : (s.emit x k i c bs).att = s.att :=
  (TelOnly.emit s x k i c bs).att_eq
@[simp] theorem State.emit_bushels (s : State) (x k i c : Nat) (bs : List Byte) : (s.emit x k i c bs).bushels = s.bushels :=
  (TelOnly.emit s x k i c bs).bushels_eq
@[simp] theorem State.emit_rauQ (s : State) (x k i c : Nat) (bs : List Byte) : (s.emit x k i c bs).rauQ = s.rauQ :=
  (TelOnly.emit s x k i c bs).rauQ_eq
@[simp] theorem State.emit_rauSeq (s : State) (x k i c : Nat) (bs : List Byte) : (s.emit x k i c bs).rauSeq = s.rauSeq :=
  (TelOnly.emit s x k i c bs).rauSeq_eq
@[simp] theorem State.emit_ends (s : State) (x k i c : Nat) (bs : List Byte) : (s.emit x k i c bs).ends = s.ends :=
  (TelOnly.emit s x k i c bs).ends_eq
@[simp] theorem State.emit_verdict (s : State) (x k i c : Nat) (bs : List Byte) : (s.emit x k i c bs).verdict = s.verdict :=
  (TelOnly.emit s x k i c bs).verdict_eq
@[simp] theorem State.emit_upd (s : State) (x k i c : Nat) (bs : List Byte) : (s.emit x k i c bs).upd = s.upd :=
  (TelOnly.emit s x k i c bs).upd_eq
@[simp] theorem State.emit_rules (s : State) (x k i c : Nat) (bs : List Byte) : (s.emit x k i c bs).rules = s.rules :=
  (TelOnly.emit s x k i c bs).rules_eq
@[simp] theorem State.emit_ports (s : State) (x k i c : Nat) (bs : List Byte) : (s.emit x k i c bs).ports = s.ports :=
  (TelOnly.emit s x k i c bs).ports_eq
@[simp] theorem State.emit_localQ (s : State) (x k i c : Nat) (bs : List Byte) : (s.emit x k i c bs).localQ = s.localQ :=
  (TelOnly.emit s x k i c bs).localQ_eq
@[simp] theorem State.emit_clk (s : State) (x k i c : Nat) (bs : List Byte) : (s.emit x k i c bs).clk = s.clk :=
  (TelOnly.emit s x k i c bs).clk_eq
@[simp] theorem State.emit_budget (s : State) (x k i c : Nat) (bs : List Byte) : (s.emit x k i c bs).budget = s.budget :=
  (TelOnly.emit s x k i c bs).budget_eq
@[simp] theorem State.emit_mon (s : State) (x k i c : Nat) (bs : List Byte) : (s.emit x k i c bs).mon = s.mon :=
  (TelOnly.emit s x k i c bs).mon_eq
@[simp] theorem State.emit_halt (s : State) (x k i c : Nat) (bs : List Byte) : (s.emit x k i c bs).halt = s.halt :=
  (TelOnly.emit s x k i c bs).halt_eq
@[simp] theorem State.emit_inst (s : State) (x k i c : Nat) (bs : List Byte) : (s.emit x k i c bs).inst = s.inst :=
  (TelOnly.emit s x k i c bs).inst_eq
@[simp] theorem State.emit_nvm (s : State) (x k i c : Nat) (bs : List Byte) : (s.emit x k i c bs).nvm = s.nvm :=
  (TelOnly.emit s x k i c bs).nvm_eq
@[simp] theorem State.emit_fw (s : State) (x k i c : Nat) (bs : List Byte) : (s.emit x k i c bs).fw = s.fw :=
  (TelOnly.emit s x k i c bs).fw_eq
@[simp] theorem State.emit_sec (s : State) (x k i c : Nat) (bs : List Byte) : (s.emit x k i c bs).sec = s.sec :=
  (TelOnly.emit s x k i c bs).sec_eq
@[simp] theorem State.emit_spdm (s : State) (x k i c : Nat) (bs : List Byte) : (s.emit x k i c bs).spdm = s.spdm :=
  (TelOnly.emit s x k i c bs).spdm_eq
@[simp] theorem State.emit_i3c (s : State) (x k i c : Nat) (bs : List Byte) : (s.emit x k i c bs).i3c = s.i3c :=
  (TelOnly.emit s x k i c bs).i3c_eq
@[simp] theorem State.emit_pcie (s : State) (x k i c : Nat) (bs : List Byte) : (s.emit x k i c bs).pcie = s.pcie :=
  (TelOnly.emit s x k i c bs).pcie_eq
@[simp] theorem State.emit_maint (s : State) (x k i c : Nat) (bs : List Byte) : (s.emit x k i c bs).maint = s.maint :=
  (TelOnly.emit s x k i c bs).maint_eq
@[simp] theorem State.emit_dieReset (s : State) (x k i c : Nat) (bs : List Byte) : (s.emit x k i c bs).dieReset = s.dieReset :=
  (TelOnly.emit s x k i c bs).dieReset_eq
@[simp] theorem State.emit_resetReq (s : State) (x k i c : Nat) (bs : List Byte) : (s.emit x k i c bs).resetReq = s.resetReq :=
  (TelOnly.emit s x k i c bs).resetReq_eq
@[simp] theorem State.emit_stackFail (s : State) (x k i c : Nat) (bs : List Byte) : (s.emit x k i c bs).stackFail = s.stackFail :=
  (TelOnly.emit s x k i c bs).stackFail_eq

/-! ## The audit log -/

/-- `t` is `s` but for what an audit entry may change. -/
def AuditOnly (s t : State) : Prop :=
  t = { s with regs := t.regs, free := t.free, sec := t.sec } ∧
  t.sec = { s.sec with entries := t.sec.entries, sinceCkpt := t.sec.sinceCkpt } ∧
  (∀ off, off ≠ rSecAuditNext → off ≠ rSecAuditOldest → off ≠ rSecStatus → t.reg off = s.reg off)

theorem AuditOnly.refl (s : State) : AuditOnly s s := ⟨rfl, rfl, fun _ _ _ _ => rfl⟩

theorem AuditOnly.trans {s t u : State} (h : AuditOnly s t) (g : AuditOnly t u) : AuditOnly s u := by
  obtain ⟨h₁, h₂, h₃⟩ := h
  obtain ⟨g₁, g₂, g₃⟩ := g
  refine ⟨?_, ?_, fun o a b c => (g₃ o a b c).trans (h₃ o a b c)⟩
  · rw [g₁, h₁]
  · rw [g₂, h₂]

theorem AuditOnly.log (s : State) (e : List (List Byte)) (n : Nat) :
    AuditOnly s { s with sec := { s.sec with entries := e, sinceCkpt := n } } := ⟨rfl, rfl, fun _ _ _ _ => rfl⟩

theorem AuditOnly.setReg (s : State) (off v : Nat) (h : off = rSecAuditNext ∨ off = rSecAuditOldest ∨ off = rSecStatus) :
    AuditOnly s (s.setReg off v) := by
  refine ⟨rfl, rfl, ?_⟩
  intro o a b c
  apply State.reg_setReg_other
  rcases h with h | h | h <;> subst h <;> exact fun e => by first | exact a e.symm | exact b e.symm | exact c e.symm

theorem AuditOnly.draw (s : State) (n : Nat) : AuditOnly s (s.draw n).1 := ⟨rfl, rfl, fun _ _ _ _ => rfl⟩

theorem AuditOnly.push (s : State) (e : List Byte) : AuditOnly s (s.auditPush e) :=
  (AuditOnly.setReg s rSecAuditNext (s.reg rSecAuditNext + 1) (.inl rfl)).trans (AuditOnly.log _ _ _)

theorem AuditOnly.checkpoint (s : State) : AuditOnly s s.auditCheckpoint :=
  ((AuditOnly.draw s 1).trans (AuditOnly.push _ _)).trans (AuditOnly.log _ _ _)

theorem AuditOnly.room (s : State) : AuditOnly s s.auditRoom := by
  unfold State.auditRoom
  simp only
  split
  · exact AuditOnly.refl s
  · exact ((((AuditOnly.push s _).trans (AuditOnly.checkpoint _)).trans (AuditOnly.setReg _ _ _ (.inr (.inl rfl)))).trans
      (AuditOnly.setReg _ _ _ (.inr (.inr rfl)))).trans (AuditOnly.log _ _ _)

theorem AuditOnly.audit (s : State) (k st ro w : Nat) (d : List Byte) : AuditOnly s (s.audit k st ro w d) := by
  unfold State.audit
  simp only
  split
  · exact ((AuditOnly.room s).trans (AuditOnly.push _ _)).trans (AuditOnly.checkpoint _)
  · exact (AuditOnly.room s).trans (AuditOnly.push _ _)

theorem State.reg_audit (s : State) (k st ro w : Nat) (bs : List Byte) {off : Nat} (a : off ≠ rSecAuditNext)
    (b : off ≠ rSecAuditOldest) (c : off ≠ rSecStatus) : (s.audit k st ro w bs).reg off = s.reg off :=
  (AuditOnly.audit s k st ro w bs).2.2 off a b c

theorem AuditOnly.pending_eq {s t : State} (h : AuditOnly s t) : t.pending = s.pending := by rw [h.1]
theorem AuditOnly.readData_eq {s t : State} (h : AuditOnly s t) : t.readData = s.readData := by rw [h.1]
theorem AuditOnly.readBytes_eq {s t : State} (h : AuditOnly s t) : t.readBytes = s.readBytes := by rw [h.1]
theorem AuditOnly.latches_eq {s t : State} (h : AuditOnly s t) : t.latches = s.latches := by rw [h.1]
theorem AuditOnly.staging_eq {s t : State} (h : AuditOnly s t) : t.staging = s.staging := by rw [h.1]
theorem AuditOnly.mem_eq {s t : State} (h : AuditOnly s t) : t.mem = s.mem := by rw [h.1]
theorem AuditOnly.badWords_eq {s t : State} (h : AuditOnly s t) : t.badWords = s.badWords := by rw [h.1]
theorem AuditOnly.host_eq {s t : State} (h : AuditOnly s t) : t.host = s.host := by rw [h.1]
theorem AuditOnly.tick_eq {s t : State} (h : AuditOnly s t) : t.tick = s.tick := by rw [h.1]
theorem AuditOnly.binding_eq {s t : State} (h : AuditOnly s t) : t.binding = s.binding := by rw [h.1]
theorem AuditOnly.engines_eq {s t : State} (h : AuditOnly s t) : t.engines = s.engines := by rw [h.1]
theorem AuditOnly.cores_eq {s t : State} (h : AuditOnly s t) : t.cores = s.cores := by rw [h.1]
theorem AuditOnly.tokenQ_eq {s t : State} (h : AuditOnly s t) : t.tokenQ = s.tokenQ := by rw [h.1]
theorem AuditOnly.tokenLast_eq {s t : State} (h : AuditOnly s t) : t.tokenLast = s.tokenLast := by rw [h.1]
theorem AuditOnly.vecs_eq {s t : State} (h : AuditOnly s t) : t.vecs = s.vecs := by rw [h.1]
theorem AuditOnly.yoyos_eq {s t : State} (h : AuditOnly s t) : t.yoyos = s.yoyos := by rw [h.1]
theorem AuditOnly.kvTable_eq {s t : State} (h : AuditOnly s t) : t.kvTable = s.kvTable := by rw [h.1]
theorem AuditOnly.kv_eq {s t : State} (h : AuditOnly s t) : t.kv = s.kv := by rw [h.1]
theorem AuditOnly.att_eq {s t : State} (h : AuditOnly s t) : t.att = s.att := by rw [h.1]
theorem AuditOnly.bushels_eq {s t : State} (h : AuditOnly s t) : t.bushels = s.bushels := by rw [h.1]
theorem AuditOnly.rauQ_eq {s t : State} (h : AuditOnly s t) : t.rauQ = s.rauQ := by rw [h.1]
theorem AuditOnly.rauSeq_eq {s t : State} (h : AuditOnly s t) : t.rauSeq = s.rauSeq := by rw [h.1]
theorem AuditOnly.ends_eq {s t : State} (h : AuditOnly s t) : t.ends = s.ends := by rw [h.1]
theorem AuditOnly.verdict_eq {s t : State} (h : AuditOnly s t) : t.verdict = s.verdict := by rw [h.1]
theorem AuditOnly.upd_eq {s t : State} (h : AuditOnly s t) : t.upd = s.upd := by rw [h.1]
theorem AuditOnly.rules_eq {s t : State} (h : AuditOnly s t) : t.rules = s.rules := by rw [h.1]
theorem AuditOnly.ports_eq {s t : State} (h : AuditOnly s t) : t.ports = s.ports := by rw [h.1]
theorem AuditOnly.localQ_eq {s t : State} (h : AuditOnly s t) : t.localQ = s.localQ := by rw [h.1]
theorem AuditOnly.snap_eq {s t : State} (h : AuditOnly s t) : t.snap = s.snap := by rw [h.1]
theorem AuditOnly.tel_eq {s t : State} (h : AuditOnly s t) : t.tel = s.tel := by rw [h.1]
theorem AuditOnly.clk_eq {s t : State} (h : AuditOnly s t) : t.clk = s.clk := by rw [h.1]
theorem AuditOnly.budget_eq {s t : State} (h : AuditOnly s t) : t.budget = s.budget := by rw [h.1]
theorem AuditOnly.mon_eq {s t : State} (h : AuditOnly s t) : t.mon = s.mon := by rw [h.1]
theorem AuditOnly.halt_eq {s t : State} (h : AuditOnly s t) : t.halt = s.halt := by rw [h.1]
theorem AuditOnly.inst_eq {s t : State} (h : AuditOnly s t) : t.inst = s.inst := by rw [h.1]
theorem AuditOnly.nvm_eq {s t : State} (h : AuditOnly s t) : t.nvm = s.nvm := by rw [h.1]
theorem AuditOnly.fw_eq {s t : State} (h : AuditOnly s t) : t.fw = s.fw := by rw [h.1]
theorem AuditOnly.spdm_eq {s t : State} (h : AuditOnly s t) : t.spdm = s.spdm := by rw [h.1]
theorem AuditOnly.i3c_eq {s t : State} (h : AuditOnly s t) : t.i3c = s.i3c := by rw [h.1]
theorem AuditOnly.pcie_eq {s t : State} (h : AuditOnly s t) : t.pcie = s.pcie := by rw [h.1]
theorem AuditOnly.maint_eq {s t : State} (h : AuditOnly s t) : t.maint = s.maint := by rw [h.1]
theorem AuditOnly.dieReset_eq {s t : State} (h : AuditOnly s t) : t.dieReset = s.dieReset := by rw [h.1]
theorem AuditOnly.resetReq_eq {s t : State} (h : AuditOnly s t) : t.resetReq = s.resetReq := by rw [h.1]
theorem AuditOnly.stackFail_eq {s t : State} (h : AuditOnly s t) : t.stackFail = s.stackFail := by rw [h.1]
@[simp] theorem State.audit_pending (s : State) (k st ro w : Nat) (d : List Byte) : (s.audit k st ro w d).pending = s.pending :=
  (AuditOnly.audit s k st ro w d).pending_eq
@[simp] theorem State.audit_readData (s : State) (k st ro w : Nat) (d : List Byte) : (s.audit k st ro w d).readData = s.readData :=
  (AuditOnly.audit s k st ro w d).readData_eq
@[simp] theorem State.audit_readBytes (s : State) (k st ro w : Nat) (d : List Byte) : (s.audit k st ro w d).readBytes = s.readBytes :=
  (AuditOnly.audit s k st ro w d).readBytes_eq
@[simp] theorem State.audit_latches (s : State) (k st ro w : Nat) (d : List Byte) : (s.audit k st ro w d).latches = s.latches :=
  (AuditOnly.audit s k st ro w d).latches_eq
@[simp] theorem State.audit_staging (s : State) (k st ro w : Nat) (d : List Byte) : (s.audit k st ro w d).staging = s.staging :=
  (AuditOnly.audit s k st ro w d).staging_eq
@[simp] theorem State.audit_mem (s : State) (k st ro w : Nat) (d : List Byte) : (s.audit k st ro w d).mem = s.mem :=
  (AuditOnly.audit s k st ro w d).mem_eq
@[simp] theorem State.audit_badWords (s : State) (k st ro w : Nat) (d : List Byte) : (s.audit k st ro w d).badWords = s.badWords :=
  (AuditOnly.audit s k st ro w d).badWords_eq
@[simp] theorem State.audit_host (s : State) (k st ro w : Nat) (d : List Byte) : (s.audit k st ro w d).host = s.host :=
  (AuditOnly.audit s k st ro w d).host_eq
@[simp] theorem State.audit_tick (s : State) (k st ro w : Nat) (d : List Byte) : (s.audit k st ro w d).tick = s.tick :=
  (AuditOnly.audit s k st ro w d).tick_eq
@[simp] theorem State.audit_binding (s : State) (k st ro w : Nat) (d : List Byte) : (s.audit k st ro w d).binding = s.binding :=
  (AuditOnly.audit s k st ro w d).binding_eq
@[simp] theorem State.audit_engines (s : State) (k st ro w : Nat) (d : List Byte) : (s.audit k st ro w d).engines = s.engines :=
  (AuditOnly.audit s k st ro w d).engines_eq
@[simp] theorem State.audit_cores (s : State) (k st ro w : Nat) (d : List Byte) : (s.audit k st ro w d).cores = s.cores :=
  (AuditOnly.audit s k st ro w d).cores_eq
@[simp] theorem State.audit_tokenQ (s : State) (k st ro w : Nat) (d : List Byte) : (s.audit k st ro w d).tokenQ = s.tokenQ :=
  (AuditOnly.audit s k st ro w d).tokenQ_eq
@[simp] theorem State.audit_tokenLast (s : State) (k st ro w : Nat) (d : List Byte) : (s.audit k st ro w d).tokenLast = s.tokenLast :=
  (AuditOnly.audit s k st ro w d).tokenLast_eq
@[simp] theorem State.audit_vecs (s : State) (k st ro w : Nat) (d : List Byte) : (s.audit k st ro w d).vecs = s.vecs :=
  (AuditOnly.audit s k st ro w d).vecs_eq
@[simp] theorem State.audit_yoyos (s : State) (k st ro w : Nat) (d : List Byte) : (s.audit k st ro w d).yoyos = s.yoyos :=
  (AuditOnly.audit s k st ro w d).yoyos_eq
@[simp] theorem State.audit_kvTable (s : State) (k st ro w : Nat) (d : List Byte) : (s.audit k st ro w d).kvTable = s.kvTable :=
  (AuditOnly.audit s k st ro w d).kvTable_eq
@[simp] theorem State.audit_kv (s : State) (k st ro w : Nat) (d : List Byte) : (s.audit k st ro w d).kv = s.kv :=
  (AuditOnly.audit s k st ro w d).kv_eq
@[simp] theorem State.audit_att (s : State) (k st ro w : Nat) (d : List Byte) : (s.audit k st ro w d).att = s.att :=
  (AuditOnly.audit s k st ro w d).att_eq
@[simp] theorem State.audit_bushels (s : State) (k st ro w : Nat) (d : List Byte) : (s.audit k st ro w d).bushels = s.bushels :=
  (AuditOnly.audit s k st ro w d).bushels_eq
@[simp] theorem State.audit_rauQ (s : State) (k st ro w : Nat) (d : List Byte) : (s.audit k st ro w d).rauQ = s.rauQ :=
  (AuditOnly.audit s k st ro w d).rauQ_eq
@[simp] theorem State.audit_rauSeq (s : State) (k st ro w : Nat) (d : List Byte) : (s.audit k st ro w d).rauSeq = s.rauSeq :=
  (AuditOnly.audit s k st ro w d).rauSeq_eq
@[simp] theorem State.audit_ends (s : State) (k st ro w : Nat) (d : List Byte) : (s.audit k st ro w d).ends = s.ends :=
  (AuditOnly.audit s k st ro w d).ends_eq
@[simp] theorem State.audit_verdict (s : State) (k st ro w : Nat) (d : List Byte) : (s.audit k st ro w d).verdict = s.verdict :=
  (AuditOnly.audit s k st ro w d).verdict_eq
@[simp] theorem State.audit_upd (s : State) (k st ro w : Nat) (d : List Byte) : (s.audit k st ro w d).upd = s.upd :=
  (AuditOnly.audit s k st ro w d).upd_eq
@[simp] theorem State.audit_rules (s : State) (k st ro w : Nat) (d : List Byte) : (s.audit k st ro w d).rules = s.rules :=
  (AuditOnly.audit s k st ro w d).rules_eq
@[simp] theorem State.audit_ports (s : State) (k st ro w : Nat) (d : List Byte) : (s.audit k st ro w d).ports = s.ports :=
  (AuditOnly.audit s k st ro w d).ports_eq
@[simp] theorem State.audit_localQ (s : State) (k st ro w : Nat) (d : List Byte) : (s.audit k st ro w d).localQ = s.localQ :=
  (AuditOnly.audit s k st ro w d).localQ_eq
@[simp] theorem State.audit_snap (s : State) (k st ro w : Nat) (d : List Byte) : (s.audit k st ro w d).snap = s.snap :=
  (AuditOnly.audit s k st ro w d).snap_eq
@[simp] theorem State.audit_tel (s : State) (k st ro w : Nat) (d : List Byte) : (s.audit k st ro w d).tel = s.tel :=
  (AuditOnly.audit s k st ro w d).tel_eq
@[simp] theorem State.audit_clk (s : State) (k st ro w : Nat) (d : List Byte) : (s.audit k st ro w d).clk = s.clk :=
  (AuditOnly.audit s k st ro w d).clk_eq
@[simp] theorem State.audit_budget (s : State) (k st ro w : Nat) (d : List Byte) : (s.audit k st ro w d).budget = s.budget :=
  (AuditOnly.audit s k st ro w d).budget_eq
@[simp] theorem State.audit_mon (s : State) (k st ro w : Nat) (d : List Byte) : (s.audit k st ro w d).mon = s.mon :=
  (AuditOnly.audit s k st ro w d).mon_eq
@[simp] theorem State.audit_halt (s : State) (k st ro w : Nat) (d : List Byte) : (s.audit k st ro w d).halt = s.halt :=
  (AuditOnly.audit s k st ro w d).halt_eq
@[simp] theorem State.audit_inst (s : State) (k st ro w : Nat) (d : List Byte) : (s.audit k st ro w d).inst = s.inst :=
  (AuditOnly.audit s k st ro w d).inst_eq
@[simp] theorem State.audit_nvm (s : State) (k st ro w : Nat) (d : List Byte) : (s.audit k st ro w d).nvm = s.nvm :=
  (AuditOnly.audit s k st ro w d).nvm_eq
@[simp] theorem State.audit_fw (s : State) (k st ro w : Nat) (d : List Byte) : (s.audit k st ro w d).fw = s.fw :=
  (AuditOnly.audit s k st ro w d).fw_eq
@[simp] theorem State.audit_spdm (s : State) (k st ro w : Nat) (d : List Byte) : (s.audit k st ro w d).spdm = s.spdm :=
  (AuditOnly.audit s k st ro w d).spdm_eq
@[simp] theorem State.audit_i3c (s : State) (k st ro w : Nat) (d : List Byte) : (s.audit k st ro w d).i3c = s.i3c :=
  (AuditOnly.audit s k st ro w d).i3c_eq
@[simp] theorem State.audit_pcie (s : State) (k st ro w : Nat) (d : List Byte) : (s.audit k st ro w d).pcie = s.pcie :=
  (AuditOnly.audit s k st ro w d).pcie_eq
@[simp] theorem State.audit_maint (s : State) (k st ro w : Nat) (d : List Byte) : (s.audit k st ro w d).maint = s.maint :=
  (AuditOnly.audit s k st ro w d).maint_eq
@[simp] theorem State.audit_dieReset (s : State) (k st ro w : Nat) (d : List Byte) : (s.audit k st ro w d).dieReset = s.dieReset :=
  (AuditOnly.audit s k st ro w d).dieReset_eq
@[simp] theorem State.audit_resetReq (s : State) (k st ro w : Nat) (d : List Byte) : (s.audit k st ro w d).resetReq = s.resetReq :=
  (AuditOnly.audit s k st ro w d).resetReq_eq
@[simp] theorem State.audit_stackFail (s : State) (k st ro w : Nat) (d : List Byte) : (s.audit k st ro w d).stackFail = s.stackFail :=
  (AuditOnly.audit s k st ro w d).stackFail_eq
@[simp] theorem State.audit_sec_strapLow (s : State) (k st ro w : Nat) (d : List Byte) : (s.audit k st ro w d).sec.strapLow = s.sec.strapLow := by
  rw [(AuditOnly.audit s k st ro w d).2.1]
@[simp] theorem State.audit_sec_pressed (s : State) (k st ro w : Nat) (d : List Byte) : (s.audit k st ro w d).sec.pressed = s.sec.pressed := by
  rw [(AuditOnly.audit s k st ro w d).2.1]
@[simp] theorem State.audit_sec_window (s : State) (k st ro w : Nat) (d : List Byte) : (s.audit k st ro w d).sec.window = s.sec.window := by
  rw [(AuditOnly.audit s k st ro w d).2.1]
@[simp] theorem State.audit_sec_windowLeft (s : State) (k st ro w : Nat) (d : List Byte) : (s.audit k st ro w d).sec.windowLeft = s.sec.windowLeft := by
  rw [(AuditOnly.audit s k st ro w d).2.1]

end Sys2Proof.Machine
end

