-- ==== Sys2Proof/Laws/Secured.lean ====
section
/-!
SUPPORT. Laws/Secured.lean: what answering over the DOE mailbox can change.
-/

namespace Sys2Proof.Machine

/-- An answer empties the mailbox of the request, shows the reply and the object that carries it, and at most numbers one more
record of the responder; nothing else changes. -/
theorem State.doeSay_frame (s : State) (secured : Bool) (bs : List Byte) :
    ∃ w n, s.doeSay secured bs =
      { s with pcie := { s.pcie with doe := [], doeReply := bs, doeWire := w }, spdm := { s.spdm with rspSeq := n } } ∧
      (n = s.spdm.rspSeq ∧ w = bs ∨ n = s.spdm.rspSeq + 1 ∧ w = s.spdm.sealRecord s.spdmV bs) := by
  unfold State.doeSay
  split
  · exact ⟨_, _, rfl, .inr ⟨rfl, rfl⟩⟩
  · exact ⟨_, _, rfl, .inl ⟨rfl, rfl⟩⟩

/-- A request of R411 is taken in hand; any other is answered. -/
theorem State.doeTake_cases (s : State) (type : Nat) (q : List Byte) :
    (fieldAt q 1 1 ∈ spdmRequests ∧
      s.doeTake type q = { s with pcie := { s.pcie with doe := q, doeType := type, doeReply := [], doeWire := [] } }) ∨
    (fieldAt q 1 1 ∉ spdmRequests ∧ s.doeTake type q = s.doeSay (type == 2) (q.take 1 ++ [0x7F#8, 7#8, 0#8])) := by
  unfold State.doeTake
  by_cases h : fieldAt q 1 1 ∈ spdmRequests
  · exact .inl ⟨h, by simp [h]⟩
  · exact .inr ⟨h, by simp [h]⟩

end Sys2Proof.Machine
end

