-- ==== Sys2Proof/Tests/Slice0.lean ====
section
/-!
SUPPORT. Tests/Slice0.lean: an ill-formed term for each check of WellFormed; for each statement a state and operands that
meet its hypotheses, clause by clause; and small tests of single steps against values worked out from the spec. A theorem
named `meets_X` shows that the hypotheses of the statement `X`, or of the part `Says.X` of a statement, can be met.
-/

namespace Sys2Proof.Tests

set_option maxRecDepth 8000
set_option Elab.async false

open Sys2Proof Sys2Proof.Machine

/-- The module powered, running and READY (R394). -/
def up : State := { State.reset with halt := { powerGood := true } }.setReg rHubReady 6

/-- Running, in a stage of the hold-up sequence with a cause (R299). -/
def halted (stage cause : Nat) : State := { up with halt := { powerGood := true, stage := stage, cause := cause } }

/-! ### A plan image in memory -/

/-- The listed cells of bytes at an address: those that are not 0. -/
def cells (a : Nat) : List Byte → Mem
  | [] => []
  | b :: bs => if b = 0#8 then cells (a + 1) bs else (a, b) :: cells (a + 1) bs

/-- A section of the image: type, entry bytes, entries, target, offset, and its bytes. -/
structure Sec where
  type : Nat
  entry : Nat
  count : Nat
  target : Nat
  off : Nat
  bytes : List Byte

/-- Where the image stands. -/
def img : Nat := 0x10000

/-- The cells of an image (R41 to R43): the fields of the header that the engines read, the section table at 0x40, and the
sections in order of their offsets. -/
def image (secs : List Sec) : Mem :=
  cells (img + 0x0A) (leBytes 2 secs.length ++ leBytes 4 0x40) ++
  cells (img + 0x40) (secs.flatMap (fun s => leBytes 2 s.type ++ leBytes 2 s.entry ++ leBytes 4 s.count ++ leBytes 8 s.off ++
    leBytes 8 s.bytes.length ++ leBytes 4 s.target ++ leBytes 4 0)) ++
  secs.flatMap (fun s => cells (img + s.off) s.bytes)

/-- A window from offset 0 to offset 5. -/
def windows : Sec := ⟨1, 16, 1, 0, 0x400, leBytes 4 0 ++ leBytes 4 5 ++ leBytes 4 1000 ++ leBytes 4 0⟩

/-- A packet of static shapes in window 0 (R46). -/
def packet (pid kind : Nat) (body : List Byte) : List Byte :=
  leBytes 4 pid ++ leBytes 4 0 ++ leBytes 2 kind ++ leBytes 2 0 ++ leBytes 4 body.length ++ leBytes 2 0xFFFF ++
    List.replicate 46 0#8 ++ body

/-- The work list of an engine: one packet of a kind, number 7. -/
def work (e kind : Nat) (body : List Byte) : Sec := ⟨2, 0, 1, e, 0x800, packet 7 kind body⟩

/-- Where that packet's body stands. -/
def bodyAt : Nat := img + 0x800 + 64

def theBind : Bind := { addr := img, planId := 1, period := 10 }

/-- Bound to a plan of these sections, in tick 0, its first step; engine `e` serves it. -/
def bound (e : Nat) (secs : List Sec) : State :=
  { up with mem := image secs, binding := { active := some theBind }, tick := { taken := true },
            engines := [(e, { binds := [{ bind := theBind }] })] }

/-- Bound, with the one packet of `e` next. -/
def planned (e kind : Nat) (body : List Byte) (more : List Sec) : State := bound e ([windows, work e kind body] ++ more)

/-- Whether the packet of a kind starts, in a state and with a run of which `p` holds. -/
def starts (s : State) (e kind : Nat) (p : State → Run → Bool) : Bool :=
  (s.run e).isNone && s.nextIs e kind (fun _ => true) && (match (s.startPacket e kind).run e with
    | some r => r.kind == kind && !r.stopped && p (s.startPacket e kind) r
    | none => false)

theorem starts_of {s : State} {e kind : Nat} {p : State → Run → Bool} (h : starts s e kind p = true) :
    ∃ u r, Starts s e kind u r ∧ p u r = true := by
  simp only [starts, Bool.and_eq_true, Option.isNone_iff_eq_none] at h
  obtain ⟨⟨h1, h2⟩, h3⟩ := h
  split at h3
  · rename_i r hr
    simp only [Bool.and_eq_true, beq_iff_eq, Bool.not_eq_true'] at h3
    exact ⟨_, r, ⟨h1, h2, rfl, hr, h3.1.1, h3.1.2⟩, h3.2⟩
  · cases h3

theorem startsP {s : State} {e kind : Nat} {P : State → Run → Prop} [hd : ∀ u r, Decidable (P u r)]
    (h : starts s e kind (fun u r => decide (P u r)) = true) : ∃ u r, Starts s e kind u r ∧ P u r := by
  obtain ⟨u, r, h1, h2⟩ := starts_of h
  exact ⟨u, r, h1, of_decide_eq_true h2⟩

/-- Whether a read gives bytes. -/
def okRd : Rd → Bool
  | .ok _ => true
  | .fault _ => false

theorem okRd_iff {r : Rd} (h : okRd r = true) : ∃ bs, r = .ok bs := by
  cases r with
  | ok bs => exact ⟨bs, rfl⟩
  | fault c => cases h

/-! ## Well-formedness: for each check of a row an ill-formed term, refused -/

/-- Ill-formed commands, part 1: one operand of each out of its range. -/
theorem test_wf_refuses1 :
    ([.tickOrderedSet 4 (List.replicate 64 0#8) 0, .tickOrderedSet 0 (List.replicate 63 0#8) 0, .tickPortTimeout 4 0, .windowEnd ⟨0x1000040, 0⟩,
    .packetComplete 0x1000040 0, .matrixSequence 2 0 0, .matrixSequence 0 64 0, .matrixSequence 0 0 2, .tileClaim 2 0 0, .tileClaim 0 64 0,
    .tileClaim 0 0 2, .itemBegin 2 0 0, .itemBegin 0 64 0, .itemBegin 0 0 2, .loadA 2 0 0, .loadA 0 64 0, .loadA 0 0 2, .loadB 2 0 0,
    .loadB 0 64 0, .loadB 0 0 2, .loadWritten 2 0 0 false 0, .loadWritten 0 64 0 false 0, .loadWritten 0 0 2 false 0, .mma 2 0 0 0,
    .mma 0 64 0 0, .mma 0 0 2 0, .repeatN 2 0 0, .repeatN 0 64 0, .repeatN 0 0 2, .tileExchange 2 0 0 0, .tileExchange 0 64 0 0,
    .tileExchange 0 0 2 0, .tbufLoadStart 2 0, .tbufLoadStart 0 64, .arbitrationPoint 2 0 0, .arbitrationPoint 0 64 0, .rampStepEnd 2 0,
    .rampStepEnd 0 64, .feederHoldEnd 2 0, .feederHoldEnd 0 64, .rampTokenGrant 2 0, .rampTokenReturn 2 0 0, .rampTokenReturn 0 64 0,
    .tileDrain 2 0 false, .tileDrain 0 64 false, .drainStallResume 2 0 0, .drainStallResume 0 64 0, .attentionForward 2 0 0,
    .attentionForward 0 64 0, .attentionForward 0 0 2, .attentionBackward 2 0 0, .attentionBackward 0 64 0, .attentionBackward 0 0 2,
    .kvAppend 2 0, .kvAppend 0 4, .kvEvict 2 0 0, .kvEvict 0 4 0, .convForward 2 0 0, .convForward 0 64 0, .convForward 0 0 2] : List Instr).all (fun c => c.wf == false) = true := by
  decide +kernel

/-- Ill-formed commands, part 2: one operand of each out of its range. -/
theorem test_wf_refuses2 :
    ([.convInputGradient 2 0 0, .convInputGradient 0 64 0, .convInputGradient 0 0 2, .convWeightGradient 2 0 0, .convWeightGradient 0 64 0,
    .convWeightGradient 0 0 2, .input 2 0, .input 0 8, .weight 2 0, .weight 0 8, .output 2 0, .output 0 8, .copy 2 0, .copy 0 16, .gather 2 0,
    .gather 0 16, .s2d 2 0, .s2d 0 16, .d2s 2 0, .d2s 0 16, .padFold 2 0, .padFold 0 16, .poolMax 2 0, .poolMax 0 16, .poolAvg 2 0,
    .poolAvg 0 16, .poolMaxBwd 2 0, .poolMaxBwd 0 16, .poolAvgBwd 2 0, .poolAvgBwd 0 16, .vectorProgram 2 0, .vectorProgram 0 32, .fma 2 0,
    .fma 0 32, .add 2 0, .add 0 32, .mul 2 0, .mul 0 32, .max 2 0, .max 0 32, .min 2 0, .min 0 32, .func 2 0, .func 0 32, .vectorAct 2 0,
    .vectorAct 0 32, .cmp 2 0, .cmp 0 32, .sel 2 0, .sel 0 32, .red 2 0, .red 0 32, .bcast 2 0, .bcast 0 32, .ld 2 0, .ld 0 32, .st 2 0,
    .st 0 32, .ldb 2 0, .ldb 0 32] : List Instr).all (fun c => c.wf == false) = true := by
  decide +kernel

/-- Ill-formed commands, part 3: one operand of each out of its range. -/
theorem test_wf_refuses3 :
    ([.stb 2 0, .stb 0 32, .stacc 2 0, .stacc 0 32, .rng 2 0, .rng 0 32, .xadd 2 0, .xadd 0 32, .xshl 2 0, .xshl 0 32, .xld 2 0, .xld 0 32,
    .loopOp 2 0, .loopOp 0 32, .programEnd 2 0, .programEnd 0 32, .chol 2 0, .chol 0 32, .trinv 2 0, .trinv 0 32, .grainTap ⟨2, 0⟩, .storeBegin 2,
    .codecDispatch 2, .poolRequest 2 0, .storeComplete (2 ^ 20), .restoreTick 2, .restoreBegin 2, .restoreComplete (2 ^ 20) 0,
    .restoreFailure (2 ^ 20) 0, .dueTickRelease (2 ^ 20), .replayStart 2 ⟨0, 0⟩, .replayStart 0 ⟨64, 0⟩, .replayEnd 2 0 0, .replayEnd 0 64 0,
    .adopt ⟨2, 0⟩, .restore 2, .release 2, .demote 2, .hold 2, .unhold 2, .encode 2 0, .encode 0 4, .decode 2 0, .decode 0 4, .yoyoCtrlSnap 2 false,
    .update 2 0, .update 0 32, .segment 4 (List.replicate 64 0#8) ⟨0, 0⟩, .segment 0 (List.replicate 63 0#8) ⟨0, 0⟩, .rauAdd 12 0, .rauAdd 0 32,
    .endPacket 4 (List.replicate 64 0#8) ⟨0, 0⟩, .endPacket 0 (List.replicate 63 0#8) ⟨0, 0⟩, .result 4 (List.replicate 64 0#8) ⟨0, 0⟩,
    .result 0 (List.replicate 63 0#8) ⟨0, 0⟩, .verdictRecord 4 (List.replicate 64 0#8) ⟨0, 0⟩, .verdictRecord 0 (List.replicate 63 0#8) ⟨0, 0⟩,
    .mirror 4 (List.replicate 64 0#8) ⟨0, 0⟩, .mirror 0 (List.replicate 63 0#8) ⟨0, 0⟩, .promoteNotice 4 (List.replicate 64 0#8) ⟨0, 0⟩] : List Instr).all (fun c => c.wf == false) = true := by
  decide +kernel

/-- Ill-formed commands, part 4: one operand of each out of its range. -/
theorem test_wf_refuses4 :
    ([.promoteNotice 0 (List.replicate 63 0#8) ⟨0, 0⟩, .exportPacket 4 (List.replicate 64 0#8) ⟨0, 0⟩, .exportPacket 0 (List.replicate 63 0#8) ⟨0, 0⟩,
    .idle 4 (List.replicate 64 0#8) ⟨0, 0⟩, .idle 0 (List.replicate 63 0#8) ⟨0, 0⟩, .linkInit 4 (List.replicate 64 0#8),
    .linkInit 0 (List.replicate 63 0#8), .egressSelect 4 0, .retryTimeout 4, .laneFault 4 0, .laneFault 0 4, .trainingEnd 4 0 0 false,
    .trainingEnd 0 16 0 false, .trainingEnd 0 0 16 false, .retrainEnd 4 0, .retrainEnd 0 16, .portRetryTimer 4, .lockWaitTimeout 4 0,
    .bar0BadAccess ⟨true, true⟩ 0, .doeObject 3 (List.replicate 64 0#8), .planBind 4 false, .planUnbind 4 false, .planCancel 4 false,
    .kvTableSet 4 false, .kvCreate 4 false, .kvDestroy 4 false, .tickCfg 4 false, .yoyoTableSet 4 false, .poolAdd 4 false, .poolRemove 4 false,
    .poolList 4 false, .jobTableSet 4 false, .ownerMapRead 4 false, .ruleWrite 4 false, .ruleRead 4 false, .ruleCopy 4 false, .snapCfg 4 false,
    .snapNow 4 false, .snapRestore 4 false, .snapExport 4 false, .exportWindowOpen 4 false, .exportWindowClose 4 false, .mirrorPromote 4 false,
    .genList 4 false, .telRingSet 4 false, .telSelect 4 false, .telAlarmClear 4 false, .coreFence 4 false, .fenceBegin 2 0, .fenceBegin 0 64,
    .coreUnfence 4 false, .coreSpareRow 4 false, .coreSubstitute 4 false, .coreTest 4 false [], .coreTest 0 false [130], .laneRecal 4 false 0,
    .laneRecal 0 false 16, .pllRelock 4, .relockEnd 9 false, .rowRepair 4 false] : List Instr).all (fun c => c.wf == false) = true := by
  decide +kernel

/-- Ill-formed commands, part 5: one operand of each out of its range. -/
theorem test_wf_refuses5 :
    ([.flashRetire 4 false, .fwStage 4 false, .fwActivate 4 false, .fwSwitch 10, .cfgArm 4 false 0, .cfgDisarm 4 false, .cfgCopy 4 false,
    .cfgValidate 4 false 0, .roleCfg 4 false, .auditRead 4 false, .makerFuse 4 false, .makerCal 4 false, .bootWrite 4 false, .svnAdvance 4 false,
    .rootRotate 4 false, .certWrite 4 false, .pwrCap 4 false, .pwrRange 4 false, .clkSource 4 false, .ringEnable 4 0 false,
    .ringEnable 0 (2 ^ 32) false, .ringDisable 4 0 false, .ringDisable 0 (2 ^ 32) false, .readIndexWrite (2 ^ 64) false,
    .srcSelWrite (2 ^ 32) false, .registerWrite 0x4000000 0 ⟨false, false⟩, .registerWrite 0 (2 ^ 64) ⟨false, false⟩,
    .lowHalfRead 0x4000000 false false, .highHalfRead 0x4000000 false, .lowHalfWrite 0x4000000 0 false, .lowHalfWrite 0 (2 ^ 32) false,
    .highHalfWrite 0x4000000 0 false, .highHalfWrite 0 (2 ^ 32) false, .moduleReset 4096 [], .moduleReset 0 [(256, [])],
    .moduleReset 0 [(0, [130])], .dieReset 2, .dieResetEnd 2 [], .dieResetEnd 0 [(256, [])], .dieResetEnd 0 [(0, [130])], .resetN 4096 [],
    .resetN 0 [(256, [])], .resetN 0 [(0, [130])], .powerGood false 4096 [], .powerGood false 0 [(256, [])], .powerGood false 0 [(0, [130])],
    .inputReturn 4096 [], .inputReturn 0 [(256, [])], .inputReturn 0 [(0, [130])],
    .budgetMark 0 0 0 (List.replicate 15 0) (List.replicate 16 0) (List.replicate 12 0) (List.replicate 4 0) 0 0 0 0 0 ⟨0, 0, []⟩,
    .budgetMark 0 0 0 (List.replicate 16 0) (List.replicate 15 0) (List.replicate 12 0) (List.replicate 4 0) 0 0 0 0 0 ⟨0, 0, []⟩,
    .budgetMark 0 0 0 (List.replicate 16 0) (List.replicate 16 0) (List.replicate 11 0) (List.replicate 4 0) 0 0 0 0 0 ⟨0, 0, []⟩,
    .budgetMark 0 0 0 (List.replicate 16 0) (List.replicate 16 0) (List.replicate 12 0) (List.replicate 3 0) 0 0 0 0 0 ⟨0, 0, []⟩,
    .coolantCondition 4 false, .railFault 16, .referenceLoss 9, .i3cOffsetWrite (List.replicate 2 0#8), .setdasa 128 0, .setdasa 0 128,
    .entdaa 128] : List Instr).all (fun c => c.wf == false) = true := by
  decide +kernel

/-- Ill-formed commands, part 6: one operand of each out of its range. -/
theorem test_wf_refuses6 :
    ([.configurationRequest 3 0 false 0, .configurationRequest 0 4096 false 0, .configurationRequest 0 0 false (2 ^ 32),
    .pcieLinkTrained (7 + 1) 1, .pcieLinkTrained 0 1, .pcieLinkTrained 1 3] : List Instr).all (fun c => c.wf == false) = true := by
  decide +kernel

/-- The same commands with every operand in its range, part 1. -/
theorem test_wf_accepts1 :
    ([.tickOrderedSet 0 (List.replicate 64 0#8) 0, .tickPortTimeout 0 0, .windowEnd ⟨0x1000000, 0⟩, .packetComplete 0x1000000 0,
    .matrixSequence 0 0 0, .tileClaim 0 0 0, .itemBegin 0 0 0, .loadA 0 0 0, .loadB 0 0 0, .loadWritten 0 0 0 false 0, .mma 0 0 0 0,
    .repeatN 0 0 0, .tileExchange 0 0 0 0, .tbufLoadStart 0 0, .arbitrationPoint 0 0 0, .rampStepEnd 0 0, .feederHoldEnd 0 0,
    .rampTokenGrant 0 0, .rampTokenReturn 0 0 0, .tileDrain 0 0 false, .drainStallResume 0 0 0, .attentionForward 0 0 0,
    .attentionBackward 0 0 0, .kvAppend 0 0, .kvEvict 0 0 0, .convForward 0 0 0, .convInputGradient 0 0 0, .convWeightGradient 0 0 0, .input 0 0,
    .weight 0 0, .output 0 0, .copy 0 0, .gather 0 0, .s2d 0 0, .d2s 0 0, .padFold 0 0, .poolMax 0 0, .poolAvg 0 0, .poolMaxBwd 0 0,
    .poolAvgBwd 0 0, .vectorProgram 0 0, .fma 0 0, .add 0 0, .mul 0 0, .max 0 0, .min 0 0, .func 0 0, .vectorAct 0 0, .cmp 0 0, .sel 0 0,
    .red 0 0, .bcast 0 0, .ld 0 0, .st 0 0, .ldb 0 0, .stb 0 0, .stacc 0 0, .rng 0 0, .xadd 0 0, .xshl 0 0] : List Instr).all (fun c => c.wf == true) = true := by
  decide +kernel

/-- The same commands with every operand in its range, part 2. -/
theorem test_wf_accepts2 :
    ([.xld 0 0, .loopOp 0 0, .programEnd 0 0, .chol 0 0, .trinv 0 0, .grainTap ⟨0, 0⟩, .storeBegin 0, .codecDispatch 0, .poolRequest 0 0,
    .storeComplete 0, .restoreTick 0, .restoreBegin 0, .restoreComplete 0 0, .restoreFailure 0 0, .dueTickRelease 0, .replayStart 0 ⟨0, 0⟩,
    .replayEnd 0 0 0, .adopt ⟨0, 0⟩, .restore 0, .release 0, .demote 0, .hold 0, .unhold 0, .encode 0 0, .decode 0 0, .yoyoCtrlSnap 0 false,
    .update 0 0, .segment 0 (List.replicate 64 0#8) ⟨0, 0⟩, .rauAdd 0 0, .endPacket 0 (List.replicate 64 0#8) ⟨0, 0⟩,
    .result 0 (List.replicate 64 0#8) ⟨0, 0⟩, .verdictRecord 0 (List.replicate 64 0#8) ⟨0, 0⟩, .mirror 0 (List.replicate 64 0#8) ⟨0, 0⟩,
    .promoteNotice 0 (List.replicate 64 0#8) ⟨0, 0⟩, .exportPacket 0 (List.replicate 64 0#8) ⟨0, 0⟩, .idle 0 (List.replicate 64 0#8) ⟨0, 0⟩,
    .linkInit 0 (List.replicate 64 0#8), .egressSelect 0 0, .retryTimeout 0, .laneFault 0 0, .trainingEnd 0 0 0 false, .retrainEnd 0 0,
    .portRetryTimer 0, .lockWaitTimeout 0 0, .bar0BadAccess ⟨false, false⟩ 0, .doeObject 0 (List.replicate 64 0#8), .planBind 0 false,
    .planUnbind 0 false, .planCancel 0 false, .kvTableSet 0 false, .kvCreate 0 false, .kvDestroy 0 false, .tickCfg 0 false,
    .yoyoTableSet 0 false, .poolAdd 0 false, .poolRemove 0 false, .poolList 0 false, .jobTableSet 0 false, .ownerMapRead 0 false,
    .ruleWrite 0 false] : List Instr).all (fun c => c.wf == true) = true := by
  decide +kernel

/-- The same commands with every operand in its range, part 3. -/
theorem test_wf_accepts3 :
    ([.ruleRead 0 false, .ruleCopy 0 false, .snapCfg 0 false, .snapNow 0 false, .snapRestore 0 false, .snapExport 0 false,
    .exportWindowOpen 0 false, .exportWindowClose 0 false, .mirrorPromote 0 false, .genList 0 false, .telRingSet 0 false, .telSelect 0 false,
    .telAlarmClear 0 false, .coreFence 0 false, .fenceBegin 0 0, .coreUnfence 0 false, .coreSpareRow 0 false, .coreSubstitute 0 false,
    .coreTest 0 false [], .laneRecal 0 false 0, .pllRelock 0, .relockEnd 0 false, .rowRepair 0 false, .flashRetire 0 false, .fwStage 0 false,
    .fwActivate 0 false, .fwSwitch 0, .cfgArm 0 false 0, .cfgDisarm 0 false, .cfgCopy 0 false, .cfgValidate 0 false 0, .roleCfg 0 false,
    .auditRead 0 false, .makerFuse 0 false, .makerCal 0 false, .bootWrite 0 false, .svnAdvance 0 false, .rootRotate 0 false, .certWrite 0 false,
    .pwrCap 0 false, .pwrRange 0 false, .clkSource 0 false, .ringEnable 0 0 false, .ringDisable 0 0 false, .readIndexWrite 0 false,
    .srcSelWrite 0 false, .registerWrite 0 0 ⟨false, false⟩, .lowHalfRead 0 false false, .highHalfRead 0 false, .lowHalfWrite 0 0 false,
    .highHalfWrite 0 0 false, .moduleReset 0 [], .dieReset 0, .dieResetEnd 0 [], .resetN 0 [], .powerGood false 0 [], .inputReturn 0 [],
    .budgetMark 0 0 0 (List.replicate 16 0) (List.replicate 16 0) (List.replicate 12 0) (List.replicate 4 0) 0 0 0 0 0 ⟨0, 0, []⟩,
    .coolantCondition 0 false, .railFault 0] : List Instr).all (fun c => c.wf == true) = true := by
  decide +kernel

/-- The same commands with every operand in its range, part 4. -/
theorem test_wf_accepts4 :
    ([.referenceLoss 0, .i3cOffsetWrite (List.replicate 3 0#8), .setdasa 0 0, .entdaa 0, .configurationRequest 0 0 false 0, .pcieLinkTrained 1 1] : List Instr).all (fun c => c.wf == true) = true := by
  decide +kernel

/-! ## Witnesses: the queue, power, resets -/

theorem meets_EmptyQueueIdles : State.reset.pending = [] := by decide

theorem meets_QueueKept : ∃ t, exec .inputSag up = .next t := ⟨_, rfl⟩

theorem meets_InputEventsReported : up.running = true ∧ (5600 ≤ 5999 ∧ 5999 ≤ 8000) ∧ (5600 ≤ 6000 ∧ 6000 ≤ 8000) := by
  decide +kernel

theorem meets_HoldupSequence :
    up.running = true ∧ ((80 : Int) < 81 ∧ (81 : Int) ≤ 100) ∧ (halted 1 1).halt.stage = 1 ∧ (halted 2 1).halt.stage = 2 ∧
    (halted 3 1).halt.stage = 3 ∧ (halted 4 1).halt.stage = 4 ∧ (halted 5 1).halt.stage = 5 ∧ (halted 6 1).halt.stage = 6 := by
  decide +kernel

/-- A reset that HUB.RESET or a halt has made due. -/
def resetDue : State := { up with resetReq := 1 }

theorem meets_ModuleResetsRestart :
    State.reset.halt.powerGood = false ∧ (∃ c, resetDue.resetDue = some c) ∧
    (up.halt.powerGood = true ∧ up.halt.stage = 0) ∧ ((halted 6 2).halt.powerGood = true ∧ (halted 6 2).halt.stage = 6) ∧
    ((halted 6 2).halt.cause = 2 ∧ (halted 6 1).halt.cause = 1) ∧
    ((halted 3 1).halt.cause = 1 ∧ (halted 3 1).halt.stage ≠ 0 ∧ (halted 3 1).halt.stage ≠ 6) := by
  refine ⟨by decide +kernel, ⟨_, rfl⟩, by decide +kernel, by decide +kernel, by decide +kernel, by decide +kernel⟩

/-- A die's reset, or an engine's, that an accepted write of HUB.RESET has asked for. -/
def asked (bits : Nat) (e : Nat) : State := { up with resetReq := bits }.setReg rHubResetEngine e

theorem meets_DieResets :
    (1 < 2 ∧ (asked 4 0).halt.stage = 0 ∧ bitOf (asked 4 0).resetReq 0 = false ∧ bitOf (asked 4 0).resetReq (1 + 1) = true ∧
      (asked 4 0).binding.active = none ∧ (asked 4 0).binding.armed = none) ∧
    (let s : State := { asked 4 0 with binding := { armed := some {} } }
     s.halt.stage = 0 ∧ bitOf s.resetReq 0 = false ∧ bitOf s.resetReq (1 + 1) = true ∧ s.binding.armed.isSome = true) ∧
    (let s : State := { up with dieReset := [false, true] }
     listGet false s.dieReset 1 = true) := by
  decide +kernel

theorem meets_EngineResets :
    (let s := asked 8 (engineId 2 1 63)
     s.halt.stage = 0 ∧ bitOf s.resetReq 0 = false ∧ bitOf s.resetReq 3 = true ∧ isEngine (s.reg rHubResetEngine) = true ∧
     engClass (s.reg rHubResetEngine) = 2) ∧
    isEngine ((asked 8 (engineId 2 1 64)).reg rHubResetEngine) = false ∧
    engClass ((asked 8 (engineId 8 1 0)).reg rHubResetEngine) = 8 ∧
    engClass ((asked 8 (engineId 9 255 0)).reg rHubResetEngine) = 9 := by
  decide +kernel

theorem meets_ReferencesLost : 8 < 9 ∧ 7 < 9 ∧ up.coasting 8 = false ∧ up.coasting 7 = false := by decide +kernel

/-- A PLL that is being re-locked by a swap. -/
def relocking (again : Bool) : State := { up with clk := { relocks := [{ pll := 8, again := again }] } }

theorem meets_RelockEnds :
    (relocking false).clk.running.find? (fun r => r.pll == 8) = some { pll := 8 } ∧
    (relocking true).clk.running.find? (fun r => r.pll == 8) = some { pll := 8, again := true } := by decide +kernel

theorem meets_RailsAndHeat : up.running = true ∧ 14 < 15 ∧ 1 < 2 ∧ 63 < 64 ∧ 3 < 4 := by decide +kernel

/-- The power manager 100 marks after both dies came to hold one token, with P above the cap. -/
def overCap : State := { up with mon := { overMarks := 101, above := true }, budget := { held0 := 1, held1 := 1, withdrawals := 14 } }

theorem meets_CapUnreachable : overCap.running = true ∧ overCap.mon.overMarks = 101 ∧ overCap.mon.above = true ∧
    Instr.movesTokens .inputSag = false ∧ ∃ t, exec .inputSag up = .next t := by
  refine ⟨by decide +kernel, by decide, by decide, by decide, ⟨_, rfl⟩⟩

/-- Sensors that all read 40 °C. -/
def cool (n : Nat) : List Int := List.replicate n 640

/-- A module with its cap at 100 W, shedding at level 1. -/
def capped (held low : Nat) : State :=
  { up with budget := { held0 := held, held1 := held }, mon := { lowMarks := low }, tel := { level := 1 } }.setReg (rPwrCap + 0x8000) 100

theorem meets_BudgetMarkMovesTokens :
    (∀ s ∈ [capped 2 0, capped 1 8, capped 7 9], s.running = true ∧ s.mon.dieOpen = [false, false] ∧ s.mon.coolOpen = false ∧
      s.field rPwrStatus 11 9 = 0) ∧
    someOpen 16 (cool 16) = false ∧ someOpen 2 [640, 640] = false ∧
    ((capped 2 0).tel.level ≠ 0 ∧ (stackEnd - 32) % 32 = 0 ∧ inMem (stackEnd - 32) 32 = true) ∧
    (1000 * (capped 2 0).act rPwrCap < 100001 ∧ 1 < (capped 2 0).budget.held0 ∧ 1 < (capped 2 0).budget.held1) ∧
    ((capped 1 8).budget.held0 = 1 ∧ 100000 ≤ 1000 * (capped 1 8).act rPwrCap ∧ (capped 1 8).mon.lowMarks < 9) ∧
    ((capped 7 9).budget.held0 < 8 ∧ 97999 * 100 < 1000 * (capped 7 9).act rPwrCap * 98 ∧ 9 ≤ (capped 7 9).mon.lowMarks ∧
      hotterThan 1519 (hottest ((cool 16).take 16 ++ answering 6 ((cool 12).take 6))) = false ∧
      hotterThan 1519 (hottest ((cool 16).take 16 ++ answering 6 (((cool 12).drop 6).take 6))) = false) := by
  decide +kernel

theorem meets_PresenceEvents :
    up.halt.powerGood = true ∧ up.sec.strapLow ≠ true ∧ up.sec.pressed = false ∧
    (let s : State := { up with sec := { pressed := true } }
     s.halt.powerGood = true ∧ s.sec.pressed = true) ∧
    (let s : State := { up with sec := { window := true, windowLeft := 1 } }
     s.halt.powerGood = true ∧ s.sec.window = true) ∧ up.nvm.sealFuse = false := by decide +kernel

theorem meets_I3cTarget :
    up.i3cOn = true ∧ up.i3c.dyn = none ∧ i3cAddress 0x7D = true ∧ i3cAddress 8 = true ∧
    (let s : State := { up with i3c := { dyn := some 8, offset := 0xFFF8 } }
     s.i3cOn = true ∧ s.i3c.dyn.isSome = true ∧ i3cServed s.i3c.offset = true) ∧ i3cServed 0x10000 = false ∧
    ([1#8, 2#8, 3#8] : List Byte).length = 3 := by decide +kernel

/-! ## Witnesses: the endpoint, registers, rings -/

/-- With the endpoint out of reset. -/
def linked : State := { up with pcie := { perst := false, training := true } }

theorem meets_EndpointLink : up.pcie.perst = true ∧ linked.pcie.training = true ∧ linked.coasting 8 = false ∧
    linked.halt.stage < 2 ∧ 1 ≤ 7 ∧ 16 ∈ [1, 2, 4, 8, 16] := by decide +kernel

theorem meets_ConfigurationRequests : linked.pcie.perst = false ∧ linked.configReady = true ∧ 30 ≤ 41 ∧
    14 ∈ [0, 1, 2, 5, 6, 9, 10, 13, 14] ∧
    (let s : State := { State.reset with pcie := { perst := false } }
     s.pcie.perst = false ∧ s.configReady = false) := by decide +kernel

/-- BAR2 placed so that its last bytes are the last of the stacks, or the first past them. -/
def atEnd (past : Nat) : State := up.setReg rPcieBar2Base (stackEnd - 2 ^ 30 + past)

theorem meets_Bar2Reads : 1 ≤ 1 ∧ 2 ^ 30 - 1 + 1 ≤ 2 ^ up.pcie.bar2Log2 ∧
    inMem ((atEnd 0).reg rPcieBar2Base + (2 ^ 30 - 1)) 1 = true ∧ (atEnd 0).badRange ((atEnd 0).reg rPcieBar2Base + (2 ^ 30 - 1)) 1 = false ∧
    inMem ((atEnd 1).reg rPcieBar2Base + (2 ^ 30 - 1)) 1 = false ∧
    (let s : State := { up with badWords := [64] }
     inMem (s.reg rPcieBar2Base + 95) 1 = true ∧ s.badRange (s.reg rPcieBar2Base + 95) 1 = true ∧
     s.badRange (s.reg rPcieBar2Base + 96) 1 = false) := by decide +kernel

/-- An export of 4,096 bytes at 4,096 in a phase (R298). -/
def shipment (phase : Nat) : ExportJob := ⟨[⟨4096, 4096⟩], 0, 0, false, 0, 0, 0x10000, 4096, 0, phase, 0, 0, 0, 0, 0⟩

theorem meets_Bar2Writes : [7#8] ≠ ([] : List Byte) ∧ 2 ^ 30 - 1 + [7#8].length ≤ 2 ^ up.pcie.bar2Log2 ∧
    (let a := (atEnd 0).reg rPcieBar2Base + (2 ^ 30 - 1)
     inMem a 1 = true ∧ (atEnd 0).partialBad a 1 = [] ∧ (atEnd 0).heldAt a 1 = false ∧ (atEnd 0).stackDead (stackOf a).1 = false) ∧
    inMem ((atEnd 1).reg rPcieBar2Base + (2 ^ 30 - 1)) 1 = false ∧
    (let s : State := { up with snap := { shipping := some (shipment 1) } }
     inMem (s.reg rPcieBar2Base + 8191) 1 = true ∧ s.partialBad (s.reg rPcieBar2Base + 8191) 1 = [] ∧
     s.heldAt (s.reg rPcieBar2Base + 8191) 1 = true ∧ s.heldAt (s.reg rPcieBar2Base + 8192) 1 = false) ∧
    (let s : State := { up with badWords := [64] }
     inMem (s.reg rPcieBar2Base + 95) 1 = true ∧ s.partialBad (s.reg rPcieBar2Base + 95) 1 ≠ []) := by decide +kernel

theorem meets_Bar2KeepsMemoryForm : Memory.wf up.mem = true ∧ ∃ t, exec (.bar2Write 0 [7#8] false) up = .next t :=
  ⟨by decide, _, rfl⟩

/-- A session under way, both directions under one secret, and a record in it. -/
def inRecords : Spdm :=
  { version := some 0x13, algs := true, session := some 7, finished := true, reqKey := List.replicate 32 1#8, rspKey := List.replicate 32 1#8 }
def recorded (code : Byte) : List Byte := inRecords.sealRecord 0x13 [0x13#8, code, 0#8, 0#8]

theorem meets_DoeObjects : linked.configReady = true ∧ linked.pcie.doe = [] ∧ ([0x10#8, 0x84#8] : List Byte).length ≤ 65536 ∧
    fieldAt [0x10#8, 0x84#8] 1 1 ∈ spdmRequests ∧ fieldAt [0x10#8, 0xFE#8] 1 1 ∉ spdmRequests ∧
    (let s := { linked with spdm := inRecords }
     s.spdm.session.isSome = true ∧ (recorded 0xE8).length ≤ 65536 ∧
     s.spdm.openRecord s.spdmV (recorded 0xE8) = some [0x13#8, 0xE8#8, 0#8, 0#8] ∧
     s.spdm.openRecord s.spdmV (recorded 0xFE) = some [0x13#8, 0xFE#8, 0#8, 0#8] ∧
     s.spdm.openRecord s.spdmV [0x13#8, 0xE8#8, 0#8, 0#8] = none) ∧ linked.spdm.session = none ∧
    65536 < (List.replicate 65537 0#8).length := by
  refine ⟨by decide +kernel, by decide, by decide, by decide +kernel, by decide +kernel, by decide +kernel, by decide,
    by rw [List.length_replicate]; decide⟩

theorem meets_RegisterWriteApplies : rPcieBar2Base % 8 = 0 ∧ rPcieBar2Base ≠ rPcieCtrRXBYTES ∧ wideAt rPcieBar2Base = true ∧
    ∃ r, PlainReg up rPcieBar2Base r ∧ r.rw ≠ 0 :=
  ⟨by decide, by decide, by decide +kernel, (findReg rPcieBar2Base).get (by decide +kernel),
    ⟨by simp, by decide +kernel, by decide +kernel, by decide +kernel, by decide, by decide⟩, by decide +kernel⟩

theorem meets_RegisterWriteIgnored : rPwrCap % 8 = 0 ∧ rPwrRange % 8 = 0 ∧
    ((findReg rPwrRange).map (fun r => r.inst) = some true ∧ up.served rPwrRange = true ∧ up.presence = false) ∧
    ((findReg rPwrCap).map (fun r => (r.inst, r.cset)) = some (false, some 5) ∧
      (up.setReg rHubCfgStatus 32).served rPwrCap = true ∧ (up.setReg rHubCfgStatus 32).setArmed 5 = true) := by
  decide +kernel

theorem meets_HalfAccesses : rPcieBar2Base % 8 = 0 ∧ wideAt rPcieBar2Base = true ∧
    (let s : State := { up with latches := [(rPcieBar2Base, 9#32)], staging := [(rPcieBar2Base, 9#32)] }
     s.latches.find? (fun l => l.1 == rPcieBar2Base) = some (rPcieBar2Base, 9#32) ∧
     s.staging.find? (fun l => l.1 == rPcieBar2Base) = some (rPcieBar2Base, 9#32)) ∧
    up.latches.find? (fun l => l.1 == rPcieBar2Base) = none := by decide +kernel

theorem meets_RingEnabling : 3 < 4 ∧ up.served (rCmdCFG 3) = true ∧ up.ringFixed 3 = false ∧
    (∀ v ∈ [0x11, 0x41], bitOf v 1 = false ∧ 4 ≤ bitsOf v 6 2 ∧ bitsOf v 6 2 ≤ 16 ∧ v < 2 ^ 32) ∧
    up.reg (rCmdSTATUSBASE 3) % 64 = 0 ∧ up.reg (rCmdBASE 3) % 4096 = 0 ∧ up.reg (rCmdHEADADDR 3) % 8 = 0 ∧
    bitsOf 0xD 6 2 < 4 ∧ 16 < bitsOf 0x45 6 2 ∧ bitOf 0x45 1 = false ∧
    (up.setReg (rCmdCFG 3) 0x11).flag (rCmdCFG 3) 0 = true := by decide +kernel

theorem meets_CollectorRegisters : up.field rHubReady 3 0 ≠ 7 ∧
    (let s := (up.setReg rTelWriteIndex 5).setReg rTelReadIndex 3
     s.reg rTelReadIndex ≤ 5 ∧ 5 ≤ s.reg rTelWriteIndex ∧ s.reg rTelReadIndex ≤ 3 ∧ 2 < s.reg rTelReadIndex ∧
     s.reg rTelWriteIndex < 6) ∧ 1 < 2 ∧ up.served (rYoyoCtrl 1) = true := by decide +kernel

/-! ## Witnesses: the collector, ticks, ports -/

/-- With a record of a class in the collector's queue, at a level. -/
def record (cls : Nat) : TelRec := ⟨1, 0, srcPwr, cls, 1, 1, []⟩
def queued (cls level : Nat) : State := { up with tel := { queue := [record cls], level := level } }

theorem meets_CollectorPlacesRecords :
    (∀ s ∈ [queued 1 3, queued 4 3, queued 2 1, queued 3 0], 0 < s.ringFree ∧ s.reg rTelReadIndex ≤ s.reg rTelWriteIndex ∧
      s.reg rTelWriteIndex + 2 < 2 ^ 64 ∧ s.badWords = [] ∧ s.heldAt s.nextSlot 64 = false ∧
      s.stackDead (stackOf s.nextSlot).1 = false) ∧
    (queued 3 1).tel.queue = [record 3] ∧ (queued 3 1).tel.level ≠ 0 ∧ (queued 2 2).tel.level = 2 ∧
    (queued 2 3).tel.level = 3 := by decide +kernel

/-- Logs of a source held back since tick 0, at a level, in tick 1. -/
def heldBack (level : Nat) : State :=
  { up with tick := { now := 1#64 }, tel := { level := level, srcs := [(srcPwr, { sumCount := 2 })] } }

theorem meets_SheddingEnds : (heldBack 1).levelNow < (heldBack 1).tel.level ∧
    ((heldBack 2).src srcPwr).sumCount ≠ 0 ∧ ((heldBack 2).src srcPwr).sumAt < (heldBack 2).now ∧ (heldBack 2).tel.level < 3 ∧
    bitOf (heldBack 2).tel.logSel 1 = true ∧ 3 ≤ (heldBack 3).tel.level ∧
    bitOf { heldBack 2 with tel := { (heldBack 2).tel with logSel := 1 } }.tel.logSel 1 = false := by decide +kernel

theorem meets_SelectionGatesEmission : bitOf up.tel.traceSel (engClass (engineId 3 0 0)) = false ∧
    bitOf { up with tel := { logSel := 7 } }.tel.logSel (4 - 1) = false := by decide +kernel

/-- A TICK ordered-set (R315). -/
def tickSet (period n : Nat) : List Byte :=
  let b := leBytes 4 0x4B544E48 ++ leBytes 4 0 ++ leBytes 8 n ++ leBytes 4 period ++ List.replicate 40 0#8
  b ++ leBytes 4 (crc32c b)

/-- Following port 3 in tick 41, with its last ordered-set at TCLK cycle 1000. -/
def following : State :=
  { up with tick := { now := 41#64, taken := true, source := 2, port := 3, mode := .fabric,
                      ports := [{}, {}, {}, { runLen := 9, lastNum := 41, lastAt := 1000, good := true }] } }

/-- Port 3 with three ordered-sets in a row, of which the last carried 41. -/
def almostGood : State :=
  { up with tick := { mode := .fabric, ports := [{}, {}, {}, { runLen := 3, lastNum := 41, lastAt := 1000 }] } }

theorem meets_OrderedSetsAccepted : 3 < 4 ∧ up.tickOsBad (tickSet 1001 7) = true ∧ up.tickOsBad (tickSet 1000 7) = false ∧
    ((following.tickPort 3).good = true ∧ 75999 < (following.tickPort 3).lastAt + 75 * following.tick.period ∧
      following.tickOsBad (tickSet 1000 42) = false ∧ (following.tickPort 3).rejoin = false ∧ following.tick.mode = .fabric ∧
      following.tick.source = 2 ∧ following.tick.port = 3 ∧ following.tick.held = none ∧ following.tick.cause = none ∧
      osTick (tickSet 1000 42) = following.now + 1) ∧
    ((almostGood.tickPort 3).good = false ∧ 3 ≤ (almostGood.tickPort 3).runLen ∧
      osTick (tickSet 1000 42) = (almostGood.tickPort 3).lastNum + 1 ∧
      100 * apart 51500 ((almostGood.tickPort 3).lastAt + 50 * almostGood.tick.period) ≤ 50 * almostGood.tick.period) := by
  decide +kernel

theorem meets_TickPortsTimeOut : (following.tickPort 3).good = true ∧
    (following.tickPort 3).lastAt + 75 * following.tick.period ≤ 76000 ∧ following.follows 3 = true ∧
    (∀ q, q < 4 → q ≠ 3 → (following.tickPort q).good = false) := by decide +kernel

theorem meets_TickEdges :
    { up with tick := { first := true } }.tick.first = true ∧
    (let s : State := { following with tick := { following.tick with cause := some 42 } }
     s.tick.first = false ∧ s.tick.cause = some 42 ∧ 42 < 2 ^ 64) ∧
    (let s : State := { up with tick := { taken := true, source := 3, now := BitVec.ofNat 64 (2 ^ 64 - 2) } }
     s.tick.first = false ∧ s.tick.cause = none ∧ s.tick.held = none ∧ s.tick.source = 3 ∧ s.now + 1 < 2 ^ 64) ∧
    (following.tick.first = false ∧ following.tick.cause = none ∧ following.tick.source = 2) := by decide +kernel

theorem meets_TickNeverDecreases :
    (let s : State := { following with pending := [.tickEdge], tick := { following.tick with cause := some 42 } }
     TickOk s ∧ ∃ t, step s = .next t) ∧ Instr.restarts .tickEdge = false :=
  ⟨⟨⟨fun n h => by cases h; decide, by decide, fun h => by cases h⟩, _, rfl⟩, rfl⟩

/-- With port 1 as given. -/
def withPort (q : Port) : State := up.setPort 1 q

/-- An INIT block (R310) that advertises 7 credits of each VC, after packet 5. -/
def initBlock : List Byte :=
  let b := leBytes 4 0x544E4E48 ++ leBytes 4 1 ++ leBytes 2 7 ++ leBytes 2 7 ++ leBytes 2 7 ++ leBytes 2 7 ++ leBytes 2 5 ++
    List.replicate 42 0#8
  b ++ leBytes 4 (crc32c b)

theorem meets_PortStates : 1 < 4 ∧
    (let s := withPort { state := 1, lastWidth := 3 }
     (s.port 1).state = 1 ∧ (s.port 1).trained = false ∧ s.wideEnough 1 (widthOf (laneFlags 3)) = true ∧
     widthOf (laneFlags 3) < (s.port 1).lastWidth ∧ s.wideEnough 1 (widthOf (laneFlags 0)) = false) ∧
    (let s := withPort { state := 3, width := 1, lastWidth := 3 }
     let w := capAt (s.port 1).width (widthOf (laneFlags 15))
     (s.port 1).state = 3 ∧ (s.port 1).trained = false ∧ (s.port 1).mayWiden = false ∧ w < widthOf (laneFlags 15) ∧
     s.wideEnough 1 w = true ∧ w < (s.port 1).lastWidth) ∧
    (let s := withPort { state := 3, width := 1, mayWiden := true }
     (s.port 1).state = 3 ∧ (s.port 1).trained = false ∧ (s.port 1).mayWiden = true ∧
     s.wideEnough 1 (widthOf (laneFlags 15)) = true ∧ s.wideEnough 1 (widthOf (laneFlags 0)) = false) ∧
    (let s := withPort { state := 2, width := 3, lanes := [true, true, true, true] }
     3 < 4 ∧ listGet false (s.port 1).lanes 3 = true ∧ (s.port 1).state = 2 ∧ 3 ∈ lanesUsed (s.port 1).lanes (s.port 1).width ∧
     s.wideEnough 1 (capAt (s.port 1).width (widthOf (listPut false 4 (s.port 1).lanes 3 false))) = true) ∧
    (let s := withPort { state := 2, width := 1, lanes := [true, false, false, false] }
     listGet false (s.port 1).lanes 0 = true ∧ 0 ∈ lanesUsed (s.port 1).lanes (s.port 1).width ∧
     s.wideEnough 1 (capAt (s.port 1).width (widthOf (listPut false 4 (s.port 1).lanes 0 false))) = false) ∧
    (let s := withPort { state := 1, trained := true, width := 3, lanes := [true, true, true, true] }
     (s.port 1).state = 1 ∧ (s.port 1).trained = true ∧ 0 ∈ lanesUsed (s.port 1).lanes (s.port 1).width ∧
     listGet false (s.port 1).lanes 0 = true ∧
     s.wideEnough 1 (widthOf (listPut false 4 (s.port 1).lanes 0 false)) = true) ∧
    (let s := ((withPort {}).setReg (rFabCtrl 1 + 0x8000) 1).setReg (rHubFabricId + 0x8000) 5
     (s.port 1).state = 0 ∧ s.portMayTrain 1 = true) := by decide +kernel

theorem meets_LinksComeUp : initOk initBlock ∧
    (let s := withPort { state := 1, trained := true }
     (s.port 1).trained = true ∧ (s.port 1).state = 1) ∧
    (∀ fresh, let s := withPort { state := 3, trained := true, fresh := fresh }
     (s.port 1).trained = true ∧ (s.port 1).state = 3 ∧ (s.port 1).fresh = fresh) := by
  refine ⟨⟨by decide +kernel, by decide +kernel, by decide +kernel⟩, by decide +kernel, by decide +kernel⟩

/-- A packet to module 5 on VC 1. -/
def toFive : TxPkt := { dst := 5, vc := 1, ptype := 1, payload := [1#8] }

theorem meets_PortsSend :
    (let s := withPort { state := 2, resend := [6], retry := [(6, toFive, [])] }
     (s.port 1).state = 2 ∧ (s.port 1).resend = [6] ∧ (s.port 1).retry.find? (fun r => r.1 == 6) = some (6, toFive, [])) ∧
    (let s := withPort { state := 2, queues := [[], [toFive], [], []], credits := [0, 99, 0, 0] }
     (s.port 1).state = 2 ∧ (s.port 1).resend = [] ∧ (s.port 1).pick = some 1 ∧ listGet [] (s.port 1).queues 1 = [toFive]) ∧
    (∀ owed ∈ [[], [0, 2]], let s := withPort { state := 2, owed := owed }
     (s.port 1).resend = [] ∧ (s.port 1).pick = none ∧ (s.port 1).owes = decide (owed ≠ [])) ∧
    (let pkt : List Byte := List.replicate 12 0#8 ++ [1#8] ++ List.replicate 51 0#8
     pkt.length = 64 ∧ fieldAt pkt 5 1 = 0 ∧ bitOf (fieldAt pkt 0x0C 1) 0 = true ∧ bitOf (fieldAt pkt 0x0C 1) 1 = false ∧
     crcRight pkt = false ∧ (7 : Nat) ≠ 0) := by
  decide +kernel

/-! ## Witnesses: reductions, verdicts, updates -/

/-- An entry of the bushel table (R247): open at 0, deadline at 5, result at 8. -/
def bushelRow (id kd ro cl ol segs k src peck buf side : Nat) : List Byte :=
  leBytes 2 id ++ leBytes 1 kd ++ leBytes 1 ro ++ leBytes 2 cl ++ leBytes 2 ol ++ leBytes 4 segs ++ leBytes 4 k ++
    leBytes 6 src ++ leBytes 2 peck ++ leBytes 6 buf ++ leBytes 2 0 ++ leBytes 6 side ++ leBytes 2 0 ++ leBytes 4 0 ++
    leBytes 4 5 ++ leBytes 4 8 ++ leBytes 6 0 ++ leBytes 6 0

/-- An ordinary FP32 bushel whose peck 1 this module owns, a replicated one it receives, the verdict bushel, and a broadcast
that it sends. -/
def bushels : Sec := ⟨4, 64, 4, 0, 0x1000,
  bushelRow 5 0 3 0 1 4 2 0x800000 1 0x100000 0x200000 ++ bushelRow 6 1 4 0 1 4 2 0 0xFFFF 0x300000 0x400000 ++
  bushelRow 7 2 7 0 1 1 1 0 0 0x500000 0x600000 ++ bushelRow 8 3 3 0 1 1 1 0x800000 0 0x700000 0x780000⟩

def job : JobTable := { bytes := List.replicate 0x28 0#8 ++ leBytes 2 0xFFFF ++ leBytes 2 0xFFFF ++ List.replicate 20 0#8,
                        lists := [[7, 9], [7, 9]] }

/-- Module 9 of the job, bound, with every role of step 0 open. -/
def reducing : State :=
  let s := bound hubEngine [bushels]
  { s with binding := { s.binding with activeJob := some job },
           bushels := [(0, { opened := true }), (3, { opened := true }), (4, { opened := true }), (5, { opened := true })] }.setReg
    (rHubFabricId + 0x8000) 9

def local_ (p : TxPkt) : State := { reducing with localQ := [p] }

/-- Whether an arriving packet has a target of which `p` holds. -/
def judged (s : State) (port : Nat) (pkt : List Byte) (p : State → List Byte → Nat → BushelEnt → Nat → Bool) : Bool :=
  match s.received port pkt 2 with
  | none => false
  | some (u, b) => match u.redTarget b with
    | none => false
    | some (k, e, i) => p u b k e i

theorem judged_of {s : State} {port : Nat} {pkt : List Byte} {p : State → List Byte → Nat → BushelEnt → Nat → Bool}
    (h : judged s port pkt p = true) : ∃ u b k e i, s.received port pkt 2 = some (u, b) ∧ u.redTarget b = some (k, e, i) ∧
      p u b k e i = true := by
  unfold judged at h
  split at h
  · cases h
  · rename_i u b hr
    split at h
    · cases h
    · rename_i k e i ht
      exact ⟨u, b, k, e, i, hr, ht, h⟩

/-- The packet names an open role of the step in force. -/
def namedB (u : State) (b : List Byte) (k : Nat) : Bool :=
  (u.bushel k).opened && (u.bushel k).step == u.stepNow && fieldAt b 0x18 2 == u.stepNow % 65536

theorem named_of {u : State} {b : List Byte} {k i : Nat} {e : BushelEnt} (ht : u.redTarget b = some (k, e, i))
    (h : namedB u b k = true) : Named u b k e i := by
  simp only [namedB, Bool.and_eq_true, beq_iff_eq] at h
  exact ⟨ht, h.1.1, h.1.2, h.2⟩

/-- Beside that it is in time. -/
def timelyB (u : State) (b : List Byte) (k : Nat) (e : BushelEnt) : Bool :=
  namedB u b k && decide (u.now < u.lateFrom e (k % 2) u.stepNow) && (u.bushel k).cause == 0

theorem timely_of {u : State} {b : List Byte} {k i : Nat} {e : BushelEnt} (ht : u.redTarget b = some (k, e, i))
    (h : timelyB u b k e = true) : Timely u b k e i := by
  simp only [timelyB, Bool.and_eq_true, beq_iff_eq, decide_eq_true_eq] at h
  exact ⟨named_of ht h.1.1, h.1.2, h.2⟩

/-- A timely packet of a type, with room in its RAU. -/
theorem roomFor {s : State} {port ty : Nat} {pkt : List Byte}
    (h : judged s port pkt (fun u b k e i => timelyB u b k e && decide ((u.rauAt (rauOf e i)).length < 64) &&
      fieldAt b 5 1 == ty) = true) :
    ∃ u b k e i, s.received port pkt 2 = some (u, b) ∧ Timely u b k e i ∧ (u.rauAt (rauOf e i)).length < 64 ∧
      fieldAt b 5 1 = ty := by
  obtain ⟨u, b, k, e, i, hr, ht, hp⟩ := judged_of h
  simp only [Bool.and_eq_true, beq_iff_eq, decide_eq_true_eq] at hp
  exact ⟨u, b, k, e, i, hr, timely_of ht hp.1.1, hp.1.2, hp.2⟩

/-- A contribution to segment 3 of bushel 5, the last that its owner holds; a result; a verdict record; an END of peck 1. -/
def aSegment : TxPkt := { dst := 9, vc := 0, ptype := 1, bushel := 5, index := 3, aux := 1, payload := List.replicate 4096 1#8 }
def aResult : TxPkt := { dst := 9, vc := 1, ptype := 3, bushel := 6, index := 3, payload := List.replicate 4096 1#8 }
def aVerdict : TxPkt := { dst := 9, vc := 2, ptype := 4, bushel := 7, index := 0, payload := List.replicate 4096 1#8 }
def anEnd : TxPkt := { dst := 9, vc := 0, ptype := 2, bushel := 5, index := 1, aux := 2 }

/-- The END as module 7 sends it over a port, first in its sequence. -/
def endBytes : List Byte := anEnd.bytes 7 (leBytes 2 1 ++ List.replicate 14 0#8)

theorem meets_ReductionPackets :
    (∃ u b k e i, (local_ aSegment).received 4 [] 2 = some (u, b) ∧ Timely u b k e i ∧ (u.rauAt (rauOf e i)).length < 64 ∧
      fieldAt b 5 1 = 1) ∧
    (∃ u b k e i, (local_ aResult).received 4 [] 2 = some (u, b) ∧ Timely u b k e i ∧ (u.rauAt (rauOf e i)).length < 64 ∧
      fieldAt b 5 1 = 3) ∧
    (∃ u b k e i, (local_ aVerdict).received 4 [] 2 = some (u, b) ∧ Timely u b k e i ∧ (u.rauAt (rauOf e i)).length < 64 ∧
      fieldAt b 5 1 = 4) ∧
    (∃ u b k e i, { local_ aSegment with bushels := [(0, { opened := true, cause := 1 })] }.received 4 [] 2 = some (u, b) ∧
      Named u b k e i ∧ (u.bushel k).cause ≠ 0 ∧ fieldAt b 5 1 = 1) ∧
    (∃ u b k e i, { local_ aSegment with bushels := [] }.received 4 [] 2 = some (u, b) ∧ u.redTarget b = some (k, e, i) ∧
      (u.bushel k).opened = false ∧ fieldAt b 0x18 2 = u.stepNow % 65536 ∧ fieldAt b 5 1 = 1) := by
  refine ⟨roomFor (by decide +kernel), roomFor (by decide +kernel), roomFor (by decide +kernel), ?_, ?_⟩
  · obtain ⟨u, b, k, e, i, hr, ht, hp⟩ := judged_of (s := { local_ aSegment with bushels := [(0, { opened := true, cause := 1 })] })
      (port := 4) (pkt := []) (p := fun u b k _ _ => namedB u b k && (u.bushel k).cause != 0 && fieldAt b 5 1 == 1)
      (by decide +kernel)
    simp only [Bool.and_eq_true, beq_iff_eq, bne_iff_ne] at hp
    exact ⟨u, b, k, e, i, hr, named_of ht hp.1.1, hp.1.2, hp.2⟩
  · obtain ⟨u, b, k, e, i, hr, ht, hp⟩ := judged_of (s := { local_ aSegment with bushels := [] }) (port := 4) (pkt := [])
      (p := fun u b k _ _ => !(u.bushel k).opened && fieldAt b 0x18 2 == u.stepNow % 65536 && fieldAt b 5 1 == 1)
      (by decide +kernel)
    simp only [Bool.and_eq_true, beq_iff_eq, Bool.not_eq_true'] at hp
    exact ⟨u, b, k, e, i, hr, ht, hp.1.1, hp.1.2, hp.2⟩

/-- The END as port 1 brings it, to an owner that has the given senders' ENDs. -/
def endIn (ends : List Nat) : State :=
  { reducing.setPort 1 { state := 2 } with bushels := [(0, { opened := true, ends := ends })] }

theorem meets_EndPackets : ∀ ends ∈ [[], [0]],
    ∃ u b k e i n, (endIn ends).received 1 endBytes 2 = some (u, b) ∧ Timely u b k e i ∧ fieldAt b 5 1 = 2 ∧ fieldAt b 0x1A 2 ≠ 0xFFFF ∧
      u.ends = [] ∧ (∀ q ∈ u.rauQ, ∀ r ∈ q.2, r.path ≠ 1) ∧
      findN (u.jobList e.senders).length (fun m => (u.jobList e.senders)[m]? == some (fieldAt b 2 2)) = some n ∧
      (n ∈ (u.bushel k).ends ↔ ends ≠ []) := by
  intro ends he
  obtain ⟨u, b, k, e, i, hr, ht, hp⟩ := judged_of (s := endIn ends) (port := 1) (pkt := endBytes)
    (p := fun u b k e _ => timelyB u b k e && fieldAt b 5 1 == 2 && fieldAt b 0x1A 2 != 0xFFFF && decide (u.ends = []) &&
      decide (u.rauQ = []) && decide (0 ∈ (u.bushel k).ends ↔ ends ≠ []) &&
      findN (u.jobList e.senders).length (fun m => (u.jobList e.senders)[m]? == some (fieldAt b 2 2)) == some 0)
    (by rcases List.mem_cons.1 he with rfl | he
        · decide +kernel
        · rcases List.mem_singleton.1 he with rfl
          decide +kernel)
  simp only [Bool.and_eq_true, beq_iff_eq, bne_iff_ne, decide_eq_true_eq] at hp
  obtain ⟨⟨⟨⟨⟨⟨h1, h2⟩, h3⟩, h4⟩, h5⟩, h6⟩, h7⟩ := hp
  exact ⟨u, b, k, e, i, 0, hr, timely_of ht h1, h2, h3, h4, by simp [h5], h7, h6⟩

/-- Whether an arriving packet leaves a state and bytes of which `p` holds. -/
def gotten (s : State) (port : Nat) (pkt : List Byte) (p : State → List Byte → Bool) : Bool :=
  match s.received port pkt 2 with
  | none => false
  | some (u, b) => p u b

theorem gotten_of {s : State} {port : Nat} {pkt : List Byte} {p : State → List Byte → Bool} (h : gotten s port pkt p = true) :
    ∃ u b, s.received port pkt 2 = some (u, b) ∧ p u b = true := by
  unfold gotten at h
  split at h
  · cases h
  · rename_i u b hr
    exact ⟨u, b, hr, h⟩

/-- The bytes at `a` can be written plainly. -/
def clearB (s : State) (a n : Nat) : Bool :=
  s.badWords.isEmpty && !s.heldAt a n && (!decide (a < stackEnd) || !s.stackDead (stackOf a).1)

theorem clear_of {s : State} {a n : Nat} (h : clearB s a n = true) : Clear s a n := by
  simp only [clearB, Bool.and_eq_true, List.isEmpty_iff, Bool.not_eq_true', Bool.or_eq_true, decide_eq_false_iff_not] at h
  exact ⟨h.1.1, h.1.2, fun hl => h.2.resolve_left (fun hn => hn hl)⟩

/-- The job of a module with a mirror, which mirrors a module: flags, base of its image, its list of inert entries. -/
def mirrorJob (mirror mirrored flags base list : Nat) : JobTable :=
  { bytes := List.replicate 0x28 0#8 ++ leBytes 2 mirror ++ leBytes 2 mirrored ++ leBytes 2 0 ++ leBytes 2 flags ++
      leBytes 8 base ++ leBytes 8 list, lists := [[7, 9], [7, 9]] }

/-- Module 9, whose packets by the local path come from the module it mirrors; the mirrored slot has two segments. -/
def mirroring : State :=
  { reducing with mem := image [bushels] ++ [(0x900000, 2#8)],
                  binding := { reducing.binding with activeJob := some (mirrorJob 3 9 1 0x700000 0x900000) } }

def aMirror : TxPkt := { dst := 9, vc := 1, ptype := 5, index := 1, payload := List.replicate 4096 1#8 }
def aNotice (old : Nat) : TxPkt := { dst := 9, vc := 2, ptype := 6, aux := old + 65536 * 4 }
def anExport (win first off : Nat) : TxPkt :=
  { dst := 9, vc := 3, ptype := 7, aux := win + 65536 * first, ext := off, payload := List.replicate 64 1#8 }

/-- A window of 64 bytes for module 7. -/
def theWindow : ExportWin := { window := 2, source := 7, base := 0xA00000, bytes := 64 }
def windowed : State := { reducing.setPort 1 { state := 2 } with snap := { windows := [theWindow] } }

/-- A header that names no bytes, or some. -/
def aHeader (n : Nat) : TxPkt := { anExport 2 1 0 with payload := List.replicate 0x38 1#8 ++ leBytes 8 n }

theorem meets_OtherPackets :
    (∃ u b, { mirroring with localQ := [aMirror] }.received 4 [] 2 = some (u, b) ∧ fieldAt b 5 1 = 5 ∧ u.mirrorLate b = false ∧
      u.snap.copying = false ∧ Clear u (u.mirrorBase + 4096 * fieldAt b 0x1C 4) (b.drop 64).length) ∧
    (∃ u b, windowed.received 1 ((aNotice 7).bytes 7 (leBytes 2 1 ++ List.replicate 14 0#8)) 2 = some (u, b) ∧ fieldAt b 5 1 = 6 ∧
      fieldAt b 0x20 2 ≠ u.ownId ∧ u.snap.ownerMap.length < 64) ∧
    (∃ u b, windowed.received 1 ((aNotice 9).bytes 7 (leBytes 2 1 ++ List.replicate 14 0#8)) 2 = some (u, b) ∧ fieldAt b 5 1 = 6 ∧
      fieldAt b 0x20 2 = u.ownId) ∧
    (∃ u b, windowed.received 1 ((anExport 2 0 63).bytes 7 (leBytes 2 1 ++ List.replicate 14 0#8)) 2 = some (u, b) ∧
      fieldAt b 5 1 = 7 ∧
      u.snap.windows.find? (fun w => w.window == fieldAt b 0x20 4 % 65536 && w.source == fieldAt b 2 2) = some theWindow ∧
      bitOf (fieldAt b 0x20 4) 16 = false ∧ theWindow.header = none ∧ fieldAt b 0x24 8 < theWindow.bytes ∧
      Clear u (theWindow.base + fieldAt b 0x24 8) ((b.drop 64).take (theWindow.bytes - fieldAt b 0x24 8)).length) ∧
    (∀ n ∈ [0, 1], ∃ u b, windowed.received 1 ((aHeader n).bytes 7 (leBytes 2 1 ++ List.replicate 14 0#8)) 2 = some (u, b) ∧
      fieldAt b 5 1 = 7 ∧
      u.snap.windows.find? (fun w => w.window == fieldAt b 0x20 4 % 65536 && w.source == fieldAt b 2 2) = some theWindow ∧
      bitOf (fieldAt b 0x20 4) 16 = true ∧ fieldAt (b.drop 64) 0x38 8 = n ∧ theWindow.got = 0 ∧ 0 < theWindow.bytes ∧
      Clear u theWindow.base ((b.drop 64).take theWindow.bytes).length) := by
  refine ⟨?_, ?_, ?_, ?_, ?_⟩
  · obtain ⟨u, b, h, hp⟩ := gotten_of (s := { mirroring with localQ := [aMirror] }) (port := 4) (pkt := [])
      (p := fun u b => fieldAt b 5 1 == 5 && !u.mirrorLate b && !u.snap.copying &&
        clearB u (u.mirrorBase + 4096 * fieldAt b 0x1C 4) (b.drop 64).length) (by decide +kernel)
    simp only [Bool.and_eq_true, beq_iff_eq, Bool.not_eq_true'] at hp
    exact ⟨u, b, h, hp.1.1.1, hp.1.1.2, hp.1.2, clear_of hp.2⟩
  · obtain ⟨u, b, h, hp⟩ := gotten_of (s := windowed) (port := 1) (pkt := (aNotice 7).bytes 7 (leBytes 2 1 ++ List.replicate 14 0#8))
      (p := fun u b => fieldAt b 5 1 == 6 && fieldAt b 0x20 2 != u.ownId && decide (u.snap.ownerMap.length < 64)) (by decide +kernel)
    simp only [Bool.and_eq_true, beq_iff_eq, bne_iff_ne, decide_eq_true_eq] at hp
    exact ⟨u, b, h, hp.1.1, hp.1.2, hp.2⟩
  · obtain ⟨u, b, h, hp⟩ := gotten_of (s := windowed) (port := 1) (pkt := (aNotice 9).bytes 7 (leBytes 2 1 ++ List.replicate 14 0#8))
      (p := fun u b => fieldAt b 5 1 == 6 && fieldAt b 0x20 2 == u.ownId) (by decide +kernel)
    simp only [Bool.and_eq_true, beq_iff_eq] at hp
    exact ⟨u, b, h, hp.1, hp.2⟩
  · obtain ⟨u, b, h, hp⟩ := gotten_of (s := windowed) (port := 1) (pkt := (anExport 2 0 63).bytes 7 (leBytes 2 1 ++ List.replicate 14 0#8))
      (p := fun u b => fieldAt b 5 1 == 7 && u.snap.windows == [theWindow] && fieldAt b 0x20 4 % 65536 == 2 && fieldAt b 2 2 == 7 &&
        !bitOf (fieldAt b 0x20 4) 16 && decide (fieldAt b 0x24 8 < 64) &&
        clearB u (0xA00000 + fieldAt b 0x24 8) ((b.drop 64).take (64 - fieldAt b 0x24 8)).length) (by decide +kernel)
    simp only [Bool.and_eq_true, beq_iff_eq, Bool.not_eq_true', decide_eq_true_eq] at hp
    obtain ⟨⟨⟨⟨⟨⟨h1, h2⟩, h3⟩, h4⟩, h5⟩, h6⟩, h7⟩ := hp
    exact ⟨u, b, h, h1, by simp [h2, h3, h4, theWindow], h5, rfl, h6, clear_of h7⟩
  · intro n hn
    obtain ⟨u, b, h, hp⟩ := gotten_of (s := windowed) (port := 1) (pkt := (aHeader n).bytes 7 (leBytes 2 1 ++ List.replicate 14 0#8))
      (p := fun u b => fieldAt b 5 1 == 7 && u.snap.windows == [theWindow] && fieldAt b 0x20 4 % 65536 == 2 && fieldAt b 2 2 == 7 &&
        bitOf (fieldAt b 0x20 4) 16 && fieldAt (b.drop 64) 0x38 8 == n && clearB u 0xA00000 ((b.drop 64).take 64).length)
      (by rcases List.mem_cons.1 hn with rfl | hn
          · decide +kernel
          · rcases List.mem_singleton.1 hn with rfl
            decide +kernel)
    simp only [Bool.and_eq_true, beq_iff_eq] at hp
    obtain ⟨⟨⟨⟨⟨⟨h1, h2⟩, h3⟩, h4⟩, h5⟩, h6⟩, h7⟩ := hp
    exact ⟨u, b, h, h1, by simp [h2, h3, h4, theWindow], h5, h6, rfl, by decide, clear_of h7⟩

/-- A contribution to segment 0 of the own peck in its RAU's queue. -/
def adding : State :=
  { reducing with rauQ := [(32 * (stackOf 0x100000).1 + (stackOf 0x100000).2.1,
      [{ entry := 0, ptype := 1, seg := 0, weight := 1, payload := List.replicate 4096 1#8 }])] }

/-- The same in BF16, of half the payload (R251). -/
def addingHalf : State :=
  { adding with mem := image [{ bushels with bytes := bushelRow 5 0x10 3 0 1 4 2 0x800000 1 0x100000 0x200000 }],
                rauQ := [(32 * (stackOf 0x100000).1 + (stackOf 0x100000).2.1,
                  [{ entry := 0, ptype := 1, seg := 0, weight := 1, payload := List.replicate 2048 1#8 }])] }

/-- The entry of bushel 5. -/
def entFive : BushelEnt := reducing.bushelAt (img + 0x1000)

theorem meets_RauAdds :
    (∃ r, adding.rauAt (32 * (stackOf 0x100000).1 + (stackOf 0x100000).2.1) = [r] ∧ adding.bushelEnt (r.entry / 2) = some entFive ∧
      r.entry % 2 = 0 ∧ 0x100000 = entFive.buf + 4096 * r.seg ∧ entFive.bf16 = false ∧ r.payload.length = 4096 ∧ sideAddr entFive.side r.seg = 0x200000) ∧
    (let w := adding.ld 8 0x200000
     bitOf w 16 = false ∧ w % 65536 < 65535 ∧ w % 65536 + 1 ≠ adding.expected entFive) ∧
    adding.stackDead (stackOf 0x100000).1 = false ∧ (∀ p, p < 4 → (adding.port p).rxBuf = []) ∧ Clear adding 0x100000 4096 ∧
    Clear adding 0x200000 8 ∧
    (combineSeg entFive (adding.peek 0x100000 4096) (List.replicate 4096 1#8)).length = 4096 ∧ 0x100000 + 4096 ≤ 0x200000 ∧
    (addingHalf.bushelEnt 0).map (fun e => (e.bf16, e.buf, e.side)) = some (true, 0x100000, 0x200000) ∧
    ((chunksOf 2 2049 (List.replicate 2048 1#8)).flatMap (fun c => [0#8, 0#8] ++ c)).length = 4096 := by
  refine ⟨⟨_, rfl, by decide +kernel, by decide +kernel, by decide +kernel, by decide +kernel, ?_, by decide +kernel⟩,
    by decide +kernel, by decide +kernel, by decide +kernel, clear_of (by decide +kernel), clear_of (by decide +kernel), ?_, by decide,
    by decide +kernel, by decide +kernel⟩
  · exact List.length_replicate
  · decide +kernel

/-- A landing whose copy runs. -/
def copying : State := { mirroring with snap := { copying := true, landingStep := 0, landingDone := true } }

theorem meets_LandingsCopied : copying.snap.copying = true ∧ (∀ p, p < 4 → (copying.port p).rxBuf = []) ∧
    copying.slotSegs = 2 ∧ Clear copying (copying.mirrorBase + 4096 * copying.slotSegs) (4096 * copying.slotSegs) :=
  ⟨by decide +kernel, by decide +kernel, by decide +kernel, clear_of (by decide +kernel)⟩

/-- In tick `n` of step 0, with bushel state `g` at a key. -/
def atTick (n k : Nat) (g : Bushel) : State :=
  { reducing with tick := { now := BitVec.ofNat 64 n, taken := true }, bushels := [(k, g)] }

theorem meets_BushelsOpenAndClose :
    (let s : State := { reducing with bushels := [] }
     s.bushelEnt 0 = some entFive ∧ s.tick.taken = true ∧ s.standby 1 0 = false ∧ s.stepTick s.stepNow entFive.openOff ≤ s.now ∧
     (s.bushel 0).opened = false ∧ (s.bushel 1).opened = false ∧ entFive.tracked 0 = true) ∧
    (let s := atTick 5 0 { opened := true }
     s.bushelEnt 0 = some entFive ∧ (s.bushel 0).opened = true ∧ (s.bushel 0).cause = 0 ∧
     s.lateFrom entFive 0 (s.bushel 0).step ≤ s.now ∧ s.redPending 0 = false) ∧
    (let s := atTick 8 3 { opened := true }
     ∃ e, s.bushelEnt 1 = some e ∧ (s.bushel 3).opened = true ∧ (s.bushel 3).cause = 0 ∧
     s.lateFrom e 1 (s.bushel 3).step ≤ s.now ∧ s.redPending 3 = false) ∧
    (∀ cause ∈ [1, 3], let s := atTick 8 1 { opened := true, cause := cause }
     (s.bushel (0 + b2n true)).opened = true ∧ (s.bushel (0 + b2n true)).cause ≠ 0 ∧ (s.bushel (0 + b2n true)).written = false) := by
  exact ⟨by decide +kernel, by decide +kernel, ⟨reducing.bushelAt (img + 0x1040), by decide +kernel⟩, by decide +kernel⟩

/-- A plan whose one bushel is the verdict's, with cells of its record at `o`, and bushel state `g` at a key, in tick 8. -/
def withVerdict (k : Nat) (g : Bushel) (o : Nat) (bs : List Byte) : State :=
  let s := bound hubEngine [⟨4, 64, 1, 0, 0x1000, bushelRow 7 2 7 0 1 1 1 0 0 0x500000 0x600000⟩]
  { s with mem := s.mem ++ cells (0x500000 + o) bs, binding := { s.binding with activeJob := some job }, bushels := [(k, g)],
           tick := { now := 8#64, taken := true } }

/-- Its entry. -/
def entSeven : BushelEnt := (withVerdict 0 {} 0 []).bushelAt (img + 0x1000)

/-- The coordinator when the verdict bushel has closed, with a byte of the non-finite bitmap. -/
def judging (bit : Byte) : State :=
  (withVerdict 0 { opened := true, cause := 1, written := true } 1024 [bit]).setReg (rHubVerdictCtrl + 0x8000) 2

theorem meets_VerdictsFormed :
    (∀ b ∈ [0#8, 1#8], (judging b).bushelEnt 0 = some entSeven ∧ entSeven.kind = kindVerdict ∧
      ((judging b).bushel 0).written = true ∧ (judging b).verdict.lastStep ≠ some ((judging b).bushel 0).step) ∧
    ((judging 0#8).judgeVerdict (wordsOf (((judging 0#8).peek entSeven.buf 4096).take 1024))
      ((((judging 0#8).peek entSeven.buf 4096).drop 1024).take 32)).1 = true ∧
    (judging 0#8).verdict.clean + 1 < (judging 0#8).act rHubVerdictCtrl % 65536 ∧
    (∃ b ∈ (((judging 1#8).peek entSeven.buf 4096).drop 1024).take 32, b ≠ 0#8) ∧
    ((judging 1#8).judgeVerdict (wordsOf (((judging 1#8).peek entSeven.buf 4096).take 1024))
      ((((judging 1#8).peek entSeven.buf 4096).drop 1024).take 32)).1 = false := by
  decide +kernel

/-- At the result tick of the verdict bushel, with a record or none, its APPLY flag, and bits of UPD_STATUS. -/
def resolving (closed apply status : Nat) : State :=
  (withVerdict 1 { opened := true, closedSegs := closed } 6 (leBytes 2 apply ++ leBytes 8 0 ++ leBytes 8 1)).setReg rHubUpdStatus status

theorem meets_VerdictsResolved :
    entSeven.kind = kindVerdict ∧ entSeven.receive = true ∧
    (∀ s ∈ [resolving 1 0 0, resolving 1 1 0, resolving 0 0 0, resolving 0 0 (2 ^ updPending), resolving 1 0 (2 ^ updStale)],
      s.bushelEnt 0 = some entSeven ∧ (s.bushel 1).opened = true ∧ s.upd.resolved ≠ some (s.bushel 1).step ∧
      s.stepTick (s.bushel 1).step entSeven.resultOff ≤ s.now ∧ s.redPending 1 = false) ∧
    (resolving 1 0 (2 ^ updStale)).updBit updStale = true ∧
    (∀ a ∈ [0, 1], (resolving 1 a 0).updBit updStale = false ∧ (resolving 1 a 0).updBit updPending = false ∧
      0 < ((resolving 1 a 0).bushel 1).closedSegs ∧
      bitOf (fieldAt ((resolving 1 a 0).peek entSeven.buf 4096) 6 2) 0 = decide (a = 1)) ∧
    ((resolving 0 0 0).updBit updPending = false ∧ ((resolving 0 0 0).bushel 1).closedSegs = 0) ∧
    ((resolving 0 0 (2 ^ updPending)).updBit updStale = false ∧ (resolving 0 0 (2 ^ updPending)).updBit updPending = true) := by
  decide +kernel

/-- The update packet of a vector engine next: one entry of bushel 5 under rule group 0, with no place to hold means. -/
def updating : State :=
  { planned (engineId 3 1 31) 0x0B
      (leBytes 4 1 ++ List.replicate 28 0#8 ++ leBytes 4 0 ++ leBytes 4 0 ++ leBytes 4 0 ++ leBytes 4 64 ++ leBytes 8 0x110000 ++
        List.replicate 16 0#8 ++ leBytes 8 0x120000 ++ List.replicate 16 0#8)
      [⟨4, 64, 1, 0, 0x1000, bushelRow 5 0 3 0 1 4 2 0x800000 1 0x100000 0x200000⟩] with
    upd := { resolved := some 0 } }

/-- That with one step to be applied, its rule frozen. -/
def frozen : State :=
  { updating with upd := { resolved := some 0, work := [⟨0, false, 1, 0#32, []⟩] }, rules := { active := [(0, 3#8)] } }

/-- That of a module that mirrors another, with packet 7 in its list of inert entries. -/
def inert : State :=
  { updating with mem := updating.mem ++ cells 0x900004 (leBytes 4 1 ++ List.replicate 8 0#8 ++ leBytes 4 2 ++ leBytes 4 7),
                  binding := { updating.binding with activeJob := some (mirrorJob 3 9 1 0x700000 0x900000) } }

/-- A packet started before, with the facts of its run that `f` sets. -/
def midway (s : State) (e kind : Nat) (f : Run → Run) : State := (s.startPacket e kind).modRun e f

theorem goes_of {s : State} {e kind : Nat} {f : Run → Run} {p : State → Run → Bool}
    (h : (match (midway s e kind f).run e with
      | some r => (midway s e kind f).goes e kind && p (midway s e kind f) r
      | none => false) = true) :
    ∃ r, Goes (midway s e kind f) e kind (midway s e kind f) r ∧ (midway s e kind f).run e = some r ∧ p (midway s e kind f) r = true := by
  split at h
  · rename_i r hr
    simp only [Bool.and_eq_true] at h
    exact ⟨r, .inr ⟨hr, h.1, rfl⟩, hr, h.2⟩
  · cases h

/-- The entry that an update packet takes next is one of a frozen group, with no fault. -/
def entryOf (u : State) (r : Run) (work : List UpdStep) : Bool :=
  match work[r.prog / (u.updEnts r.body).length]?, (u.updEnts r.body)[r.prog % (u.updEnts r.body).length]? with
  | some w, some x => decide (w.catchUp = false ∧ (u.bushelIn r.bind.addr x.bushel).isSome = true ∧
      u.updFault (u.ruleFor r.began x.group w.tUse).1 x = 0 ∧ (u.ruleFor r.began x.group w.tUse).1.freeze = true)
  | _, _ => false

theorem entryOf_iff {u : State} {r : Run} {work : List UpdStep} (h : entryOf u r work = true) :
    ∃ w x, work[r.prog / (u.updEnts r.body).length]? = some w ∧
      (u.updEnts r.body)[r.prog % (u.updEnts r.body).length]? = some x ∧ w.catchUp = false ∧
      (u.bushelIn r.bind.addr x.bushel).isSome = true ∧ u.updFault (u.ruleFor r.began x.group w.tUse).1 x = 0 ∧
      (u.ruleFor r.began x.group w.tUse).1.freeze = true := by
  unfold entryOf at h
  split at h
  · rename_i w x hw hx
    exact ⟨w, x, hw, hx, of_decide_eq_true h⟩
  · cases h

/-- An update that starts in a state with these facts. -/
theorem updates {s : State} (p : State → Run → Bool) (h : starts s (engineId 3 1 31) 0x0B p = true)
    (g : s.updReady (engineId 3 1 31) = true) :
    ∃ u r, Starts s (engineId 3 1 31) 0x0B u r ∧ s.updReady (engineId 3 1 31) = true ∧ p u r = true := by
  obtain ⟨u, r, hs, hp⟩ := starts_of h
  exact ⟨u, r, hs, g, hp⟩

theorem meets_UpdatePackets :
    (∃ u r, Starts inert (engineId 3 1 31) 0x0B u r ∧ inert.updReady (engineId 3 1 31) = true ∧ u.standby 2 r.pid = true) ∧
    (∃ s u r, Starts s (engineId 3 1 31) 0x0B u r ∧ s.updReady (engineId 3 1 31) = true ∧ u.standby 2 r.pid = false ∧
      u.updBit updStale = true) ∧
    (∃ s u r, Starts s (engineId 3 1 31) 0x0B u r ∧ s.updReady (engineId 3 1 31) = true ∧ u.standby 2 r.pid = false ∧
      u.updBit updStale = false ∧ u.upd.missed = true ∧ u.ld 8 (r.body + 8) = 0) ∧
    (∃ u r, Starts updating (engineId 3 1 31) 0x0B u r ∧ updating.updReady (engineId 3 1 31) = true ∧ u.standby 2 r.pid = false ∧
      u.updBit updStale = false ∧ u.upd.missed = false ∧ u.upd.work = []) ∧
    (∃ u r, Goes frozen (engineId 3 1 31) 0x0B u r ∧ frozen.updReady (engineId 3 1 31) = true ∧ r.prog = 0 ∧
      u.standby 2 r.pid = false ∧ u.updBit updStale = false ∧ u.upd.missed = false ∧ r.holding = false ∧
      ∃ w x, u.upd.work[r.prog / (u.updEnts r.body).length]? = some w ∧
        (u.updEnts r.body)[r.prog % (u.updEnts r.body).length]? = some x ∧ w.catchUp = false ∧
        (u.bushelIn r.bind.addr x.bushel).isSome = true ∧ u.updFault (u.ruleFor r.began x.group w.tUse).1 x = 0 ∧
        (u.ruleFor r.began x.group w.tUse).1.freeze = true) ∧
    (∃ r, let s := midway frozen (engineId 3 1 31) 0x0B (fun r => { r with prog := 1, work := [⟨0, false, 1, 0#32, []⟩, ⟨1, false, 1, 0#32, []⟩] })
      Goes s (engineId 3 1 31) 0x0B s r ∧ s.run (engineId 3 1 31) ≠ none ∧ r.prog = 1 ∧ r.holding = false ∧
      ∃ w x, r.work[r.prog / (s.updEnts r.body).length]? = some w ∧
        (s.updEnts r.body)[r.prog % (s.updEnts r.body).length]? = some x ∧ w.catchUp = false ∧
        (s.bushelIn r.bind.addr x.bushel).isSome = true ∧ s.updFault (s.ruleFor r.began x.group w.tUse).1 x = 0 ∧
        (s.ruleFor r.began x.group w.tUse).1.freeze = true) := by
  refine ⟨?_, ⟨updating.setReg rHubUpdStatus (2 ^ updStale), ?_⟩, ⟨{ updating with upd := { resolved := some 0, missed := true } }, ?_⟩,
    ?_, ?_, ?_⟩
  · exact updates (fun u r => u.standby 2 r.pid) (by decide +kernel) (by decide +kernel)
  · simpa using updates (s := updating.setReg rHubUpdStatus (2 ^ updStale))
      (fun u r => decide (u.standby 2 r.pid = false ∧ u.updBit updStale = true)) (by decide +kernel) (by decide +kernel)
  · simpa using updates (s := { updating with upd := { resolved := some 0, missed := true } })
      (fun u r => decide (u.standby 2 r.pid = false ∧ u.updBit updStale = false ∧ u.upd.missed = true ∧ u.ld 8 (r.body + 8) = 0))
      (by decide +kernel) (by decide +kernel)
  · simpa using updates (s := updating)
      (fun u r => decide (u.standby 2 r.pid = false ∧ u.updBit updStale = false ∧ u.upd.missed = false ∧ u.upd.work = []))
      (by decide +kernel) (by decide +kernel)
  · obtain ⟨u, r, h, g, hp⟩ := updates (s := frozen)
      (fun u r => decide (r.prog = 0 ∧ u.standby 2 r.pid = false ∧ u.updBit updStale = false ∧ u.upd.missed = false ∧
        r.holding = false) && entryOf u r u.upd.work) (by decide +kernel) (by decide +kernel)
    simp only [Bool.and_eq_true, decide_eq_true_eq] at hp
    exact ⟨u, r, .inl h, g, hp.1.1, hp.1.2.1, hp.1.2.2.1, hp.1.2.2.2.1, hp.1.2.2.2.2, entryOf_iff hp.2⟩
  · obtain ⟨r, h, hr, hp⟩ := goes_of (s := frozen) (e := engineId 3 1 31) (kind := 0x0B)
      (f := fun r => { r with prog := 1, work := [⟨0, false, 1, 0#32, []⟩, ⟨1, false, 1, 0#32, []⟩] })
      (p := fun u r => decide (r.prog = 1 ∧ r.holding = false) && entryOf u r r.work) (by decide +kernel)
    simp only [Bool.and_eq_true, decide_eq_true_eq] at hp
    exact ⟨r, h, by simp [hr], hp.1.1, hp.1.2, entryOf_iff hp.2⟩

/-- A packet of the hub transfer engine next, whose body names the one entry of the bushel table. -/
def sending (kind : Nat) (row : List Byte) : State :=
  let s := planned hubEngine kind (leBytes 4 1 ++ leBytes 4 0 ++ leBytes 8 0x900000 ++ leBytes 4 0 ++ leBytes 4 0)
    [⟨4, 64, 1, 0, 0x1000, row⟩]
  { s with binding := { s.binding with activeJob := some job } }

/-- A mirror send of two segments, in a plan bound with a job table. -/
def mirrorSending (job : JobTable) : State :=
  let s := planned hubEngine 0x0C (leBytes 4 1 ++ List.replicate 12 0#8 ++ leBytes 8 0x800000 ++ leBytes 4 2 ++ leBytes 4 0) []
  { s with binding := { s.binding with active := some { theBind with job := job }, activeJob := some job },
           engines := [(hubEngine, { binds := [{ bind := { theBind with job := job } }] })] }

/-- Every segment that the entry at hand of a send names can be read. -/
def readable (u : State) (r : Run) (n : BushelEnt → Nat) : Bool :=
  match u.bushelIn r.bind.addr (u.ld 4 (r.body + 16 + 8 * r.prog)) with
  | none => false
  | some e => (List.range (n e)).all (fun i => okRd (u.load (e.src + 4096 * i) 4096))

theorem readable_of {u : State} {r : Run} {n : BushelEnt → Nat} (h : readable u r n = true) :
    ∃ e, u.bushelIn r.bind.addr (u.ld 4 (r.body + 16 + 8 * r.prog)) = some e ∧
      ∀ i, i < n e → ∃ bs, u.load (e.src + 4096 * i) 4096 = .ok bs := by
  unfold readable at h
  split at h
  · cases h
  · rename_i e he
    exact ⟨e, he, fun i hi => okRd_iff (List.all_eq_true.1 h i (List.mem_range.2 hi))⟩

/-- Every segment of the entry at hand of a mirror send can be read; behind the last there is none. -/
def mirrorReadable (u : State) (r : Run) : Bool :=
  decide (u.ld 4 r.body ≤ r.prog) || (List.range (u.ld 4 (r.body + 24 + 16 * r.prog))).all (fun j =>
    okRd (u.load (u.ld 6 (r.body + 16 + 16 * r.prog) + 4096 * j) 4096))

theorem mirrorReadable_of {u : State} {r : Run} (h : mirrorReadable u r = true) :
    r.prog < u.ld 4 r.body → ∀ j, j < u.ld 4 (r.body + 24 + 16 * r.prog) →
      ∃ bs, u.load (u.ld 6 (r.body + 16 + 16 * r.prog) + 4096 * j) 4096 = .ok bs := by
  intro hl j hj
  simp only [mirrorReadable, Bool.or_eq_true, decide_eq_true_eq] at h
  exact okRd_iff (List.all_eq_true.1 (h.resolve_left (Nat.not_le.2 hl)) j (List.mem_range.2 hj))

theorem meets_SendsRetire :
    (∃ s u r e, Goes s hubEngine 0x0A u r ∧ r.prog < u.ld 4 r.body ∧ (∃ w, u.load (u.ld 8 (r.body + 8)) 2 = .ok w) ∧
      u.bushelIn r.bind.addr (u.ld 4 (r.body + 16 + 8 * r.prog)) = some e ∧
      ∀ i, i < e.segs → ∃ bs, u.load (e.src + 4096 * i) 4096 = .ok bs) ∧
    (∃ s u r e, Goes s hubEngine 0x0D u r ∧ r.prog < u.ld 4 r.body ∧
      u.bushelIn r.bind.addr (u.ld 4 (r.body + 16 + 8 * r.prog)) = some e ∧
      ∀ j, j < (e.held 0).2 → ∃ bs, u.load (e.src + 4096 * j) 4096 = .ok bs) ∧
    (∀ k ∈ [0, 1], ∃ s u r, Goes s hubEngine 0x0C u r ∧ r.prog = k ∧ u.ld 4 r.body = 1 ∧ r.bind.job.bytes ≠ [] ∧
      r.bind.job.field 0x28 2 ≠ 0xFFFF ∧ u.snapBit snapDeposed = false ∧
      (r.prog < u.ld 4 r.body → ∀ j, j < u.ld 4 (r.body + 24 + 16 * r.prog) →
        ∃ bs, u.load (u.ld 6 (r.body + 16 + 16 * r.prog) + 4096 * j) 4096 = .ok bs)) ∧
    (∃ s u r, Goes s hubEngine 0x0C u r ∧ r.prog = 0 ∧ r.bind.job.field 0x28 2 = 0xFFFF) := by
  refine ⟨⟨sending 0x0A (bushelRow 5 0 3 0 1 4 2 0x800000 1 0x100000 0x200000), ?_⟩,
    ⟨sending 0x0D (bushelRow 8 3 3 0 1 1 1 0x800000 0 0x700000 0x780000), ?_⟩, ?_, ⟨mirrorSending job, ?_⟩⟩
  · obtain ⟨u, r, h, hp⟩ := starts_of (s := sending 0x0A (bushelRow 5 0 3 0 1 4 2 0x800000 1 0x100000 0x200000)) (e := hubEngine)
      (kind := 0x0A) (p := fun u r => decide (r.prog < u.ld 4 r.body) && okRd (u.load (u.ld 8 (r.body + 8)) 2) &&
        readable u r (fun e => e.segs)) (by decide +kernel)
    simp only [Bool.and_eq_true, decide_eq_true_eq] at hp
    obtain ⟨e, he, hs⟩ := readable_of hp.2
    exact ⟨u, r, e, .inl h, hp.1.1, okRd_iff hp.1.2, he, hs⟩
  · obtain ⟨u, r, h, hp⟩ := starts_of (s := sending 0x0D (bushelRow 8 3 3 0 1 1 1 0x800000 0 0x700000 0x780000)) (e := hubEngine)
      (kind := 0x0D) (p := fun u r => decide (r.prog < u.ld 4 r.body) && readable u r (fun e => (e.held 0).2)) (by decide +kernel)
    simp only [Bool.and_eq_true, decide_eq_true_eq] at hp
    obtain ⟨e, he, hs⟩ := readable_of hp.2
    exact ⟨u, r, e, .inl h, hp.1, he, hs⟩
  · intro k hk
    obtain ⟨r, h, -, hp⟩ := goes_of (s := mirrorSending (mirrorJob 3 9 1 0x700000 0x900000)) (e := hubEngine) (kind := 0x0C)
      (f := fun r => { r with prog := k }) (p := fun u r => decide (r.prog = k ∧ u.ld 4 r.body = 1 ∧ r.bind.job.bytes ≠ [] ∧
        r.bind.job.field 0x28 2 ≠ 0xFFFF ∧ u.snapBit snapDeposed = false) && mirrorReadable u r)
      (by rcases List.mem_cons.1 hk with rfl | hk
          · decide +kernel
          · rcases List.mem_singleton.1 hk with rfl
            decide +kernel)
    simp only [Bool.and_eq_true, decide_eq_true_eq] at hp
    exact ⟨_, _, r, h, hp.1.1, hp.1.2.1, hp.1.2.2.1, hp.1.2.2.2.1, hp.1.2.2.2.2, mirrorReadable_of hp.2⟩
  · obtain ⟨u, r, h, hp⟩ := starts_of (s := mirrorSending job) (e := hubEngine) (kind := 0x0C)
      (p := fun _ r => decide (r.prog = 0 ∧ r.bind.job.field 0x28 2 = 0xFFFF)) (by decide +kernel)
    simp only [decide_eq_true_eq] at hp
    exact ⟨u, r, .inl h, hp.1, hp.2⟩

/-- A mirror of module 7 in tick `n`, with its landing state. -/
def landing (n : Nat) (x : Snap) : State :=
  let s := bound hubEngine []
  { s with binding := { s.binding with activeJob := some (mirrorJob 3 7 1 0x700000 0x900000) },
           tick := { now := BitVec.ofNat 64 n, taken := true }, snap := x }

theorem meets_LandingsAndPromotion :
    (∀ s ∈ [landing 10 { landingDone := true }, landing 10 { everLanded := true }, landing 10 {}],
      s.binding.active.isSome = true ∧ s.stepNow ≠ 0 ∧ s.snap.checkedStep ≠ some s.stepNow ∧ s.mirroredId ≠ 0xFFFF ∧
      bitOf (s.job.field 0x2E 2) 0 = true) ∧
    (landing 10 { landingDone := true }).snap.landingStep = (landing 10 { landingDone := true }).stepNow - 1 ∧
    (∀ may, let s := landing 10 { everLanded := may, promoteAt := some 10 }
     s.snap.landingDone = false ∧ s.snap.promoteAt = some 10 ∧ 10 ≤ s.now ∧ s.mayPromote = may) := by decide +kernel

def genJob : GenJob := { gen := 3, slot := 1, step := 0, tick := 0, t := 0, planId := 1, rngBase := 0, jobId := 0, ownId := 0,
                         regions := [⟨0x100000, 4096⟩], stagingBase := 0x800000, cursorLen := 0 }

/-- Bound, with a configuration that takes every boundary. -/
def snapping (x : Snap) : State := { bound hubEngine [] with snap := x }
def given : Snap := { cfgGiven := true, cfg := { enable := true } }

/-- In step 1, where an update packet of step 0 still runs, or none. -/
def behind (busy : Bool) (x : Snap) : State :=
  { snapping x with tick := { now := 10#64, taken := true },
                    engines := [(engineId 3 0 0, { run := if busy then some { kind := 0x0B } else none })] }

theorem meets_GenerationsHeld :
    (∀ s ∈ [behind false given, behind true given, snapping { given with drain := some genJob },
        snapping { given with shipping := some (shipment 1) }, (snapping given).setReg rHubUpdStatus (2 ^ updStale)],
      s.snap.cfgNext = none ∧ s.binding.active = some theBind ∧ s.tick.taken = true ∧ theBind.first ≤ s.now ∧ s.halted = false ∧
      s.snap.turn = none ∧ s.snap.considered ≠ some s.stepNow ∧ s.snap.cfgGiven = true ∧ s.snapWanted s.stepNow = true) ∧
    (∀ busy, let s := behind busy given
     s.snap.staging = none ∧ s.snap.drain = none ∧ s.exportStaging = false ∧ s.updBit updPending = false ∧
     s.updBit updStale = false ∧ s.earlierRunning s.stepNow = busy) ∧
    (snapping { given with drain := some genJob }).snap.drain.isSome = true ∧
    (snapping { given with shipping := some (shipment 1) }).exportStaging = true ∧
    ((snapping given).setReg rHubUpdStatus (2 ^ updStale)).updBit updStale = true ∧
    (let s := behind false { given with turn := some 1 }
     s.snap.cfgNext = none ∧ s.binding.active = some theBind ∧ s.halted = false ∧ s.snap.turn = some 1 ∧
     s.earlierRunning 1 = false) ∧
    (let s := snapping { given with staging := some genJob }
     s.halted = false ∧ s.snap.staging = some genJob ∧ genJob.cursorLen = 0 ∧ genJob.failed = false ∧ s.flag rPwrRailOff 14 = false ∧
     (∀ r ∈ genJob.regions, s.badRange r.base r.bytes = false)) ∧
    (let s : State := { snapping { given with drain := some genJob } with halt := { powerGood := true, stage := 3 } }
     s.snap.drain = some genJob ∧ s.halt.stage < 4 ∧ s.flag rPwrRailOff 14 = false) ∧
    (let s := up.setReg rSnapCtrSPARESLEFT 1
     slotBlocks - 1 ∉ s.snap.retired ∧ slotBlocks - 1 < slotBlocks + s.snap.sparesUsed ∧ 0 < s.reg rSnapCtrSPARESLEFT) := by
  decide +kernel

theorem meets_ExportsShip :
    (∀ p ∈ [0, 1, 2], let s := snapping { shipping := some (shipment p) }
      s.snap.shipping = some (shipment p) ∧ s.snap.cfgNext = none ∧ s.halted = false) ∧
    (let s := snapping { shipping := some (shipment 0) }
     (shipment 0).phase = 0 ∧ s.binding.active.isSome = true ∧ (shipment 0).atTick ≤ s.now ∧ s.earlierRunning s.stepNow = false ∧
     s.snap.staging = none ∧ s.snap.turn = none ∧ s.snap.cfgGiven = false ∧ s.updBit updPending = false ∧
     s.updBit updStale = false) ∧
    (let s := snapping { shipping := some (shipment 1) }
     (shipment 1).phase = 1 ∧ (∀ r ∈ (shipment 1).regions, s.badRange r.base r.bytes = false) ∧ s.snap.held = [] ∧
     s.snap.staging = none ∧ s.badWords = [] ∧ s.stackDead (stackOf (shipment 1).stagingBase).1 = false) ∧
    2 ≤ (shipment 2).phase := by decide +kernel

/-- In tick 10 with an unbinding armed; an engine still runs a packet of before the latest swap, or none. -/
def unbinding (busy : Bool) : State :=
  { bound hubEngine [] with
      binding := { active := some theBind, unbindAt := some 10, lastSwap := [1, 0, 0, 0, 0, 0, 0] },
      tick := { now := 10#64, taken := true },
      engines := [(engineId 3 0 0, { run := if busy then some { began := 0 } else none })] }

theorem meets_UnbindingTakesEffect :
    (∀ b ∈ [false, true], (unbinding b).binding.unbindAt = some 10 ∧ (unbinding b).unbindReady = true ∧
      (unbinding b).triedNow 0 = false ∧ (unbinding b).outgoing ((unbinding b).armedFor 10) = b) ∧
    (unbinding true).binding.active = some theBind := by decide +kernel

/-- In tick 10 with one set armed for it. -/
def swapping (k : Nat) (busy : Bool) : State :=
  ({ bound hubEngine [] with
      binding := { active := some theBind, armed := if k = 0 then some { theBind with planId := 2 } else none, armedTick := 10,
                   lastSwap := [1, 1, 1, 1, 1, 1, 1] },
      tick := { now := 10#64, taken := true },
      engines := [(engineId 3 0 0, { run := if busy then some { began := 0 } else none })] }.setReg rHubCfgStatus (2 ^ k)).setReg
    (rHubCfgTick k) 10

theorem meets_SwapsTakeEffect :
    (∀ k ∈ [0, 1, 2, 3, 4, 5, 6], ∀ b ∈ [false, true], let s := swapping k b
      k < 7 ∧ (List.range 7).filter (fun i => s.swapReady i && !s.triedNow i) = [k] ∧ s.armedFor (s.swapTick k) = [k] ∧
      s.unbindReady = false ∧ s.outgoing [k] = b ∧ s.binding.active = some theBind) ∧
    (swapping 0 false).binding.armed = some { theBind with planId := 2 } := by decide +kernel

/-! ## Witnesses: the SPDM responder -/

/-- A request in hand, plain or secured, with the responder's state. -/
def asking (q : List Byte) (ty : Nat) (x : Spdm) : State :=
  { up with pcie := { perst := false, doe := q, doeType := ty }, spdm := x }

/-- A connection of version 1.3. -/
def agreed : Spdm := { version := some 0x13, algs := true, vca := [1#8] }

theorem connected (q : List Byte) (code : Nat) (h : 4 ≤ q.length) (h1 : fieldAt q 1 1 = code) (h2 : fieldAt q 0 1 = 0x13) :
    Connected (asking q 1 agreed) q code 0x13 := ⟨rfl, h, h1, rfl, rfl, h2, rfl⟩

def request (code p1 p2 : Byte) : List Byte := [0x13#8, code, p1, p2]

theorem meets_SpdmConnection :
    ((asking (request 0x84 0 0) 1 {}).pcie.doe = request 0x84 0 0 ∧ fieldAt (request 0x84 0 0) 1 1 = 0x84) ∧
    (∀ v ∈ [0x12#8, 0x13#8], fieldAt [v, 0xE1#8, 0#8, 0#8] 1 1 = 0xE1 ∧
      (fieldAt [v, 0xE1#8, 0#8, 0#8] 0 1 = 0x12 ∨ fieldAt [v, 0xE1#8, 0#8, 0#8] 0 1 = 0x13)) ∧
    ((asking (request 0xE1 0 0) 1 { vca := [1#8] }).spdm.vca ≠ [] ∧ (asking (request 0xE1 0 0) 1 { vca := [1#8] }).spdm.version = none) ∧
    (let q := request 0xE3 0 0 ++ [0#8, 0#8, 0#8, 0#8, 0x10#8, 0#8, 0#8, 0#8, 1#8, 0#8, 0#8, 0#8]
     fieldAt q 1 1 = 0xE3 ∧ fieldAt q 0 1 = 0x13 ∧ fieldAt q 8 4 &&& 0x10 = 0x10 ∧ fieldAt q 12 4 &&& 1 = 1 ∧
     (asking q 1 { version := some 0x13, vca := [1#8] }).spdm.algs = false) ∧
    Connected (asking (request 0x81 0 0) 1 agreed) (request 0x81 0 0) 0x81 0x13 ∧
    (let q := request 0x82 0 0 ++ [0#8, 0#8, 16#8, 0#8]
     Connected (asking q 1 agreed) q 0x82 0x13 ∧ fieldAt q 2 1 % 16 = 0 ∧ fieldAt q 4 2 < (asking q 1 agreed).spdmChain.length) ∧
    (let q := request 0x83 0 0 ++ List.replicate 32 7#8
     Connected (asking q 1 agreed) q 0x83 0x13 ∧ fieldAt q 2 1 = 0 ∧ 36 ≤ q.length) ∧
    (∀ n ∈ [0#8, 1#8], Connected (asking (request 0xE0 0 n) 1 agreed) (request 0xE0 0 n) 0xE0 0x13 ∧
      bitOf (fieldAt (request 0xE0 0 n) 2 1) 0 = false) ∧
    (fieldAt (request 0xE0 0 0) 3 1 = 0 ∧ fieldAt (request 0xE0 0 1) 3 1 ≠ 0 ∧ fieldAt (request 0xE0 0 1) 3 1 ≠ 0xFF ∧
      fieldAt (request 0xE0 0 1) 3 1 ∈ (asking (request 0xE0 0 1) 1 agreed).blocks) := by
  refine ⟨by decide +kernel, by decide +kernel, by decide +kernel, by decide +kernel,
    connected _ _ (by decide) (by decide +kernel) (by decide +kernel),
    ⟨connected _ _ (by decide) (by decide +kernel) (by decide +kernel), by decide +kernel, by decide +kernel⟩,
    ⟨connected _ _ (by decide) (by decide +kernel) (by decide +kernel), by decide +kernel, by decide +kernel⟩, ?_, by decide +kernel⟩
  intro n hn
  rcases List.mem_cons.1 hn with rfl | hn
  · exact ⟨connected _ _ (by decide) (by decide +kernel) (by decide +kernel), by decide +kernel⟩
  · rcases List.mem_singleton.1 hn with rfl
    exact ⟨connected _ _ (by decide) (by decide +kernel) (by decide +kernel), by decide +kernel⟩

/-- A session, finished or not. -/
def session (done : Bool) : Spdm := { agreed with session := some 1, finished := done, secret := List.replicate 32 5#8,
                                                   keys := List.replicate 64 6#8 }

theorem inSession (q : List Byte) (code : Nat) (done : Bool) (h : 4 ≤ q.length) (h1 : fieldAt q 1 1 = code)
    (h2 : fieldAt q 0 1 = 0x13) : InSession (asking q 2 (session done)) q code 0x13 :=
  ⟨rfl, h, h1, rfl, rfl, rfl, h2, rfl, by rw [show (asking q 2 (session done)).field rHubReady 3 0 = up.field rHubReady 3 0 from rfl]; decide +kernel⟩

/-- The verify data of FINISH in that session. -/
def verifyData : List Byte :=
  let s := asking [] 2 (session false)
  hmac256 (s.spdm.finishKey 0x13 "req hs data" (s.sessionHash (s.spdm.keys.take (s.spdm.keys.length - 32))))
    (s.sessionHash (s.spdm.keys ++ request 0xE5 0 0))

theorem meets_SpdmSessions :
    (let q := request 0xE4 0 0 ++ List.replicate 36 0#8 ++ beBytes 32 p256Gx ++ beBytes 32 p256Gy ++ [0#8, 0#8]
     Connected (asking q 1 agreed) q 0xE4 0x13 ∧ (asking q 1 agreed).field rHubReady 3 0 ≠ 7 ∧
     (asking q 1 agreed).spdm.session = none ∧ fieldAt q 3 1 = 0 ∧ 106 ≤ q.length ∧
     p256OnCurve (beNat ((q.drop 40).take 32)) (beNat ((q.drop 72).take 32)) = true) ∧
    (let s := (asking (request 0xE4 0 0) 1 agreed).setReg rHubReady 7
     Connected s (request 0xE4 0 0) 0xE4 0x13 ∧ s.field rHubReady 3 0 = 7) ∧
    (let q := request 0xE5 0 0 ++ verifyData
     let s := asking q 2 (session false)
     InSession s q 0xE5 0x13 ∧ s.spdm.finished = false ∧
     q.drop 4 = hmac256 (s.spdm.finishKey 0x13 "req hs data" (s.sessionHash (s.spdm.keys.take (s.spdm.keys.length - 32))))
          (s.sessionHash (s.spdm.keys ++ q.take 4))) ∧
    (let q := request 0xE5 0 0
     let s := asking q 2 (session false)
     InSession s q 0xE5 0x13 ∧
     q.drop 4 ≠ hmac256 (s.spdm.finishKey 0x13 "req hs data" (s.sessionHash (s.spdm.keys.take (s.spdm.keys.length - 32))))
          (s.sessionHash (s.spdm.keys ++ q.take 4))) ∧
    InSession (asking (request 0xE8 0 0) 2 (session true)) (request 0xE8 0 0) 0xE8 0x13 ∧
    (∀ k ∈ [1#8, 3#8], InSession (asking (request 0xE9 k 0) 2 (session true)) (request 0xE9 k 0) 0xE9 0x13 ∧
      1 ≤ fieldAt (request 0xE9 k 0) 2 1 ∧ fieldAt (request 0xE9 k 0) 2 1 ≤ 3) ∧
    InSession (asking (request 0xEC 0 0) 2 (session true)) (request 0xEC 0 0) 0xEC 0x13 ∧ (session true).finished = true := by
  refine ⟨⟨connected _ _ (by decide +kernel) (by decide +kernel) (by decide +kernel), by decide +kernel, rfl, by decide +kernel,
      by decide +kernel, by decide +kernel⟩,
    ⟨⟨rfl, by decide, by decide +kernel, rfl, rfl, by decide +kernel, rfl⟩, by decide +kernel⟩,
    ⟨inSession _ _ _ (by decide +kernel) (by decide +kernel) (by decide +kernel), rfl, by decide +kernel⟩,
    ⟨inSession _ _ _ (by decide) (by decide +kernel) (by decide +kernel), by decide +kernel⟩,
    inSession _ _ _ (by decide) (by decide +kernel) (by decide +kernel), ?_,
    inSession _ _ _ (by decide) (by decide +kernel) (by decide +kernel), rfl⟩
  intro k hk
  rcases List.mem_cons.1 hk with rfl | hk
  · exact ⟨inSession _ _ _ (by decide) (by decide +kernel) (by decide +kernel), by decide +kernel, by decide +kernel⟩
  · rcases List.mem_singleton.1 hk with rfl
    exact ⟨inSession _ _ _ (by decide) (by decide +kernel) (by decide +kernel), by decide +kernel, by decide +kernel⟩

/-! ## Witnesses: the command rings -/

/-- Host reads in flight for ring 3's head, which the host has moved to `head`, for a slot of it, and for an extent of the pool. -/
def reading (head : Nat) : State :=
  let h : Mem := cells 0x100000 (leBytes 2 0x0101) ++ cells 0x200000 (leBytes 4 head)
  (({ up with host := { mem := h, reads := [.ring 3, .slots 3, .pool 1 2 3] } }.setReg (rCmdBASE 3) 0x100000).setReg
    (rCmdHEADADDR 3) 0x200000).setReg (rCmdCFG 3) 0x11

theorem meets_RingsFetch : 3 < 4 ∧
    (∀ c ∈ [0x11, 0x43], let s := up.setReg (rCmdCFG 3) c
      (∀ q, q < 4 → q ≠ 3 → s.ringRuns q = false ∧ (s.ring q).stopping = false) ∧ s.ringRuns 3 = true ∧ s.fetching = true ∧
      (s.ring 3).stopping = false) ∧
    ((up.setReg (rCmdCFG 3) 0x11).windowRing 3 = false ∧ HostRead.ring 3 ∉ (up.setReg (rCmdCFG 3) 0x11).host.reads ∧
      HostRead.slots 3 ∉ (up.setReg (rCmdCFG 3) 0x11).host.reads) ∧
    (let s := ((up.setReg (rCmdCFG 3) 0x11).setReg (rCmdHEAD 3) 1).setRing 3 { slotRetry := true }
     s.windowRing 3 = false ∧ (s.ring 3).slotRetry = true ∧ s.behind 3 ≠ 0) ∧
    (let s := (({ up with host := { bar4 := cells 0xC00000 (leBytes 2 0x0101) } }.setReg (rCmdCFG 3) 0x43).setReg
        (rCmdTAIL 3) (2 ^ 32 - 1024)).setReg (rCmdHEAD 3) (2 ^ 32 - 1023)
     s.windowRing 3 = true ∧ (s.ring 3).fetched = [] ∧ s.reg (rCmdTAIL 3) < 2 ^ 32 ∧
     s.reg (rCmdHEAD 3) = (s.reg (rCmdTAIL 3) + 1) % 2 ^ 32 ∧
     (roleOf (fieldAt (s.ringSlot 3 (4096 * (s.reg (rCmdTAIL 3) % 1024)) 64) 0 2)).isSome = true) ∧
    ((up.setRing 3 { stopping := true }).ring 3).stopping = true ∧
    (∀ head ∈ [0, 16, 17], let s := reading head
     s.host.reads[0]? = some (.ring 3) ∧ s.windowRing 3 = false ∧ leNat (s.hostPeek (s.reg (rCmdHEADADDR 3)) 4) = head ∧
     (head + 2 ^ 32 - s.reg (rCmdTAIL 3)) % 2 ^ 32 = head ∧ s.ringSlots 3 = 16 ∧ s.fetching = true ∧ s.ringRuns 3 = true ∧
     (s.ring 3).stopping = false) ∧
    (let s := (reading 1).setReg (rCmdHEAD 3) 1
     s.host.reads[1]? = some (.slots 3) ∧ (s.ring 3).fetched = [] ∧ s.reg (rCmdTAIL 3) < 2 ^ 32 ∧
     s.reg (rCmdHEAD 3) = (s.reg (rCmdTAIL 3) + 1) % 2 ^ 32 ∧
     (roleOf (fieldAt (s.ringSlot 3 (4096 * (s.reg (rCmdTAIL 3) % s.ringSlots 3)) 64) 0 2)).isSome = true ∧
     (s.ring 3).fetchFail = 0 ∧ ((s.setRing 3 { fetchFail := 1 }).ring 3).fetchFail ≠ 0 ∧
     s.host.reads[2]? = some (.pool 1 2 3)) := by decide +kernel

/-- A command as ring 3 has fetched it (R329), with the role it needs: its opcode, parameter words and payload. -/
def cmd (op : Nat) (ps : List Nat) (pay : List Byte) : Cmd :=
  { index := 1, status := 0x1000, payload := pay,
    header := leBytes 2 op ++ leBytes 1 ((roleOf op).getD 0) ++ leBytes 1 0 ++ leBytes 4 9 ++ leBytes 2 pay.length ++
      List.replicate 6 0#8 ++ ps.flatMap (fun p => leBytes 8 p) }

/-- A module with presence and a broken seal (R402, R405), whose root key has the private key 1. -/
def served : State := { up with sec := { strapLow := true }, nvm := { sealFuse := true, roots := [ecdsaPublic 1, [], [], []] } }

/-- With a command at the front of ring 3. -/
def at3 (s : State) (d : Cmd) : State := s.setRing 3 { fetched := [d] }

def runs (s : State) (d : Cmd) (p : State → Bool) : Bool :=
  s.field rHubReady 3 0 != 7 && !s.halted && (s.ring 3).waitFrom.isNone && decide ((s.ring 3).fetched = [d]) && !(s.ring 3).holding &&
    (s.cmdChecks d).isNone && (match s.takeLocks 3 d.locks.length with
      | (u, all) => all && !u.targetBusy 3 d && p u)

/-- A command runs (its checks pass and it takes its locks) in a state of which `P` holds. -/
def Does (s : State) (d : Cmd) (P : State → Cmd → Prop) : Prop := ∃ u, Runs (at3 s d) 3 d false u ∧ P u d

theorem atFront_of {s : State} {d : Cmd} (h1 : s.field rHubReady 3 0 ≠ 7) (hh : s.halted = false)
    (h2 : (s.ring 3).waitFrom = none) (h3 : (s.ring 3).fetched = [d]) : AtFront s 3 d :=
  ⟨by decide, h1, by simp [State.frontCmd, h3], h2, hh, fun d hd => by simp [h3] at hd⟩

theorem does_of {s : State} {d : Cmd} {P : State → Cmd → Prop} [hd : ∀ u, Decidable (P u d)]
    (h : runs (at3 s d) d (fun u => decide (P u d)) = true) : Does s d P := by
  unfold runs at h
  generalize hk : (at3 s d).takeLocks 3 d.locks.length = k at h
  obtain ⟨u, all⟩ := k
  simp only [Bool.and_eq_true, bne_iff_ne, Option.isNone_iff_eq_none, decide_eq_true_eq, Bool.not_eq_true'] at h
  obtain ⟨⟨⟨⟨⟨⟨h1, hh⟩, h2⟩, h3⟩, h4⟩, h5⟩, ⟨h6, h7⟩, h8⟩ := h
  exact ⟨u, ⟨atFront_of h1 hh h2 h3, .inr ⟨h4, rfl, h5, by rw [hk, h6], h7⟩⟩, h8⟩

theorem meets_RingsFetch_internal : (∀ q, q < 4 → (at3 up (cmd 0x0103 [] [])).quiet q) ∧
    (at3 up (cmd 0x0103 [] [])).halted = false ∧ (at3 up (cmd 0x0103 [] [])).frontCmd 3 = some (cmd 0x0103 [] []) ∧
    NextDefined (at3 up (cmd 0x0103 [] [])) 3 :=
  ⟨by unfold State.quiet; decide +kernel, by decide +kernel, by decide +kernel,
    (atFront_of (by decide +kernel) (by decide +kernel) (by decide +kernel) rfl).next⟩

/-- With a command of ring 1 in progress on the core that ring 3's command names. -/
def targeted : State :=
  (at3 served (cmd 0x0801 [0, 0] [])).setRing 1 { fetched := [cmd 0x0802 [0, 0] []], holding := true }

theorem meets_CommandProtocol :
    Instr.row (.planCancel 3 false) = some ⟨3, fun d => d.op == 0x0103, false, bodyPlanCancel⟩ ∧
    AtFront (at3 up (cmd 0x0103 [] [])) 3 (cmd 0x0103 [] []) ∧ (cmd 0x0103 [] []).op = 0x0103 ∧
    (let s := at3 up (cmd 0x0801 [0, 0] [])
     (s.ring 3).holding = false ∧ (s.cmdChecks (cmd 0x0801 [0, 0] [])).isSome = true) ∧
    (∀ l ∈ [[], [(0, 1)]], let s := at3 { up with host := { locks := l } } (cmd 0x0103 [] [])
     (s.ring 3).holding = false ∧ s.cmdChecks (cmd 0x0103 [] []) = none ∧
     (s.takeLocks 3 (cmd 0x0103 [] []).locks.length).2 = decide (l = [])) ∧
    (cmd 0x0103 [] []).noWait = false ∧ { cmd 0x0103 [] [] with header := leBytes 2 0x0103 ++ [0#8, 1#8] }.noWait = true ∧
    (let s := targeted
     s.cmdChecks (cmd 0x0801 [0, 0] []) = none ∧ (s.takeLocks 3 (cmd 0x0801 [0, 0] []).locks.length).2 = true ∧
     (s.takeLocks 3 (cmd 0x0801 [0, 0] []).locks.length).1.targetBusy 3 (cmd 0x0801 [0, 0] []) = true) ∧
    Does up (cmd 0x0103 [] []) (fun u d => (bodyPlanCancel 3 d u).2.code = 1) ∧
    Instr.row (.planCancel 3 true) = some ⟨3, fun d => d.op == 0x0103, true, bodyPlanCancel⟩ := by
  exact ⟨rfl, atFront_of (by decide +kernel) (by decide +kernel) (by decide +kernel) rfl, by decide +kernel, by decide +kernel, by decide +kernel,
    by decide +kernel, by decide +kernel, by decide +kernel, does_of (by decide +kernel), rfl⟩

/-- Ring 3's command waits for a lock, which is free again. -/
def waiting : State := up.setRing 3 { fetched := [cmd 0x0103 [] []], waitFrom := some 0 }

theorem meets_LocksPassOn :
    waiting.frontCmd 3 = some (cmd 0x0103 [] []) ∧ waiting.oldestWaiter = some 3 ∧ 7 ≤ waiting.field rCmdCtrl 15 8 * 100000 ∧
    (let v := (waiting.count rCmdLockWaitUs 7).setRing 3 { waiting.ring 3 with waited := true, waitFrom := none }
     (v.takeLocks 3 (cmd 0x0103 [] []).locks.length).2 = true ∧
     (v.takeLocks 3 (cmd 0x0103 [] []).locks.length).1.targetBusy 3 (cmd 0x0103 [] []) = false ∧
     ((bodyOf 0 (cmd 0x0103 [] []) 3 (cmd 0x0103 [] []) (v.takeLocks 3 (cmd 0x0103 [] []).locks.length).1).1.ring 3).fetched.length = 1) ∧
    (waiting.ring 3).waitFrom.isSome = true ∧
    waiting.field rCmdCtrl 15 8 * 100000 < waiting.field rCmdCtrl 15 8 * 100000 + 1 ∧ NextDefined waiting 3 := by
  refine ⟨by decide +kernel, by decide +kernel, by decide +kernel, by decide +kernel, by decide +kernel, by decide +kernel, ?_⟩
  intro d hd
  have h : (waiting.ring 3).fetched[1]? = none := by decide +kernel
  rw [h] at hd
  cases hd

/-! ## Witnesses: plan, KV regions, tick, residency, jobs -/

/-- A job table in hand that names this module as itself (R249). -/
def ownJob : JobTable := { bytes := List.replicate 6 0#8 ++ leBytes 2 (up.act rHubFabricId % 65536) ++ List.replicate 56 0#8, lists := [] }

/-- The header of a plan image of 4096 bytes up to its digest, and its section table (one window, and the empty work list
of a vector engine) with the window behind it. -/
def planHead : List Byte := leBytes 4 0x4C504E48 ++ leBytes 2 1 ++ leBytes 2 0 ++ leBytes 2 256 ++ leBytes 2 2 ++ leBytes 4 0x100 ++
  leBytes 8 4096 ++ leBytes 4 1000 ++ leBytes 4 10 ++ leBytes 8 0 ++ leBytes 8 64
def planTable : List Byte := leBytes 2 1 ++ leBytes 2 16 ++ leBytes 4 1 ++ leBytes 8 0x140 ++ leBytes 8 16 ++ leBytes 8 0 ++
  leBytes 2 2 ++ leBytes 2 0 ++ leBytes 4 0 ++ leBytes 8 0x180 ++ leBytes 8 0 ++ leBytes 8 0x04000000 ++
  leBytes 4 0 ++ leBytes 4 5 ++ leBytes 4 1000

/-- That image. Its digest is SHA-256 of the image with the digest zero, worked out outside the model. -/
def wholePlan : Mem :=
  cells img planHead ++ cells (img + 0x30) (beBytes 32 0x8be37824c0a8c5749135f3b1d5c6e43ff10019036e91cebe421e0ca9f4c05b66) ++ cells (img + 0x100) planTable

def readyToBind : State := { up with mem := wholePlan, binding := { registered := some ownJob } }

/-- The command, and the state it executes in. -/
def bindCmd : Cmd := cmd 0x0101 [img, 5, 77] []
def binding0 : State := ((at3 readyToBind bindCmd).takeLocks 3 bindCmd.locks.length).1

/-- Memory that lists nothing in a range below the claims reads as zeros there. -/
theorem getMany_zeros (m : Mem) (n : Nat) : ∀ a, a + n ≤ 2 ^ 32 →
    m.all (fun c => decide (c.1 < a) || decide (a + n ≤ c.1)) = true →
    Tbl.getMany memDefault m a n = List.replicate n 0#8 := by
  induction n with
  | zero => intro a _ _; rfl
  | succ n ih =>
    intro a ha h
    have hd : memDefault a = 0#8 := by
      have h0 : 2 ^ 32 ≤ claimBase 0 := by decide +kernel
      have h1 : 2 ^ 32 ≤ claimBase 1 := by decide +kernel
      unfold memDefault
      rw [if_neg]
      omega
    have hg : ∀ m : Mem, m.all (fun c => decide (c.1 < a) || decide (a + (n + 1) ≤ c.1)) = true → Tbl.get memDefault m a = 0#8 := by
      intro m
      induction m with
      | nil => intro _; exact hd
      | cons c m ihm =>
        intro h
        simp only [List.all_cons, Bool.and_eq_true, Bool.or_eq_true, decide_eq_true_eq] at h
        have : c.1 ≠ a := by omega
        simp only [Tbl.get, if_neg this]
        exact ihm h.2
    simp only [Tbl.getMany, List.replicate_succ, hg m h]
    congr 1
    refine ih (a + 1) (by omega) ?_
    simp only [List.all_eq_true, Bool.or_eq_true, decide_eq_true_eq] at h ⊢
    intro c hc
    have := h c hc
    omega

theorem getMany_append (m : Mem) (k n : Nat) : ∀ a,
    Tbl.getMany memDefault m a (n + k) = Tbl.getMany memDefault m a n ++ Tbl.getMany memDefault m (a + n) k := by
  induction n with
  | zero => intro a; simp [Tbl.getMany]
  | succ n ih =>
    intro a
    rw [Nat.add_right_comm]
    simp only [Tbl.getMany, List.cons_append, ih (a + 1)]
    congr 3
    omega

theorem plan_tail : binding0.peek (img + 0x50) (4096 - 0x50) =
    List.replicate 0xB0 0#8 ++ (binding0.peek (img + 0x100) 0x4C ++ List.replicate 0xEB4 0#8) := by
  have h : binding0.peek (img + 0x50) 0xB0 = List.replicate 0xB0 0#8 := getMany_zeros _ _ _ (by decide) (by decide +kernel)
  have h' : binding0.peek (img + 0x14C) 0xEB4 = List.replicate 0xEB4 0#8 := getMany_zeros _ _ _ (by decide) (by decide +kernel)
  rw [← h, ← h']
  exact (getMany_append _ 0xF00 0xB0 _).trans (congrArg _ (getMany_append _ 0xEB4 0x4C _))

theorem plan_digest :
    sha256 (binding0.peek img 0x30 ++ List.replicate 32 0#8 ++ binding0.peek (img + 0x50) (4096 - 0x50)) =
      binding0.peek (img + 0x30) 32 := by
  have h1 : binding0.peek img 0x30 = [72, 78, 80, 76, 1, 0, 0, 0, 0, 1, 2, 0, 0, 1, 0, 0, 0, 16, 0, 0, 0, 0, 0, 0, 232, 3, 0, 0, 10, 0, 0, 0, 0, 0, 0, 0, 0, 0, 0, 0, 64, 0, 0, 0, 0, 0, 0, 0] := by decide +kernel
  have h2 : binding0.peek (img + 0x100) 0x4C = [1, 0, 16, 0, 1, 0, 0, 0, 64, 1, 0, 0, 0, 0, 0, 0, 16, 0, 0, 0, 0, 0, 0, 0, 0, 0, 0, 0, 0, 0, 0, 0, 2, 0, 0, 0, 0, 0, 0, 0, 128, 1, 0, 0, 0, 0, 0, 0, 0, 0, 0, 0, 0, 0, 0, 0, 0, 0, 0, 4, 0, 0, 0, 0, 0, 0, 0, 0, 5, 0, 0, 0, 232, 3, 0, 0] := by decide +kernel
  have h3 : binding0.peek (img + 0x30) 32 = [139, 227, 120, 36, 192, 168, 197, 116, 145, 53, 243, 177, 213, 198, 228, 63, 241, 0, 25, 3, 110, 145, 206, 190, 66, 30, 12, 169, 244, 192, 91, 102] := by decide +kernel
  rw [plan_tail, h1, h2, h3]
  decide +kernel

theorem plan_passes : (binding0.checkPlan img 5 ownJob).2 = none := by
  have h : binding0.imageBad img 5 ownJob = none := by
    have hs : binding0.ld 8 (img + 0x10) = 4096 := by decide +kernel
    unfold State.imageBad
    dsimp only
    rw [hs, plan_digest]
    decide +kernel
  have h1 : inStack img 256 = true := by decide +kernel
  have h2 : binding0.badRange img 256 = false := by decide +kernel
  simp only [State.checkPlan, h1, h2, h, Bool.not_true, Bool.false_eq_true, if_false]

theorem bind_runs : Runs (at3 readyToBind bindCmd) 3 bindCmd false binding0 := by
  refine ⟨atFront_of (by decide +kernel) (by decide +kernel) (by decide +kernel) rfl,
    .inr ⟨by decide +kernel, rfl, by decide +kernel, ?_, by decide +kernel⟩⟩
  have h : ((at3 readyToBind bindCmd).takeLocks 3 bindCmd.locks.length).2 = true := by decide +kernel
  unfold binding0
  rw [← h]

/-- Bound, with nothing armed. -/
def atWork : State := { up with binding := { active := some theBind }, tick := { taken := true } }

theorem meets_PlanCommands :
    (∃ u, Runs (at3 readyToBind bindCmd) 3 bindCmd false u ∧ bindCmd.op = 0x0101 ∧ bindCmd.reserved 3 false = none ∧
      u.bindBad (bindCmd.p 0) (bindCmd.p 1) = none ∧
      (u.checkPlan (bindCmd.p 0) (bindCmd.p 1) (u.binding.registered.getD {})).2 = none) ∧
    (∀ x ∈ [0, 20], Does atWork (cmd 0x0102 [x] []) (fun u d => d.op = 0x0102 ∧ d.reserved 1 false = none ∧
      u.binding.active = some theBind ∧ u.binding.armed = none ∧ u.binding.unbindAt = none ∧ theBind.period ≠ 0 ∧
      (d.p 0 = 0 ∨ u.now < d.p 0 ∧ theBind.boundary (d.p 0) = true))) ∧
    Does { up with binding := { armed := some theBind, armedTick := 3 } } (cmd 0x0103 [] []) (fun u d => d.op = 0x0103 ∧
      d.reserved 0 false = none ∧ u.binding.armed.isSome = true ∧ u.tooLate 0 = false) ∧
    Does up (cmd 0x0103 [] []) (fun u d => d.op = 0x0103 ∧ d.reserved 0 false = none ∧ u.binding.armed = none ∧
      u.binding.unbindAt = none) := by
  refine ⟨⟨binding0, bind_runs, by decide +kernel, by decide +kernel, by decide +kernel, ?_⟩, ?_, ?_, ?_⟩
  · exact plan_passes
  · intro x hx
    simp only [List.mem_cons, List.not_mem_nil, or_false] at hx
    rcases hx with rfl | rfl
    · exact does_of (by decide +kernel)
    · exact does_of (by decide +kernel)
  · exact does_of (by decide +kernel)
  · exact does_of (by decide +kernel)

/-- A KV region descriptor (R157): d 64, 4 slots, one head, BF16 keys and values, 1 sink, a recent window of 1. -/
def region (flags cap sinks recent tpf : Nat) : List Byte :=
  leBytes 6 0x200000 ++ leBytes 1 flags ++ leBytes 1 2 ++ leBytes 4 cap ++ leBytes 2 1 ++ leBytes 1 0x11 ++ leBytes 1 0 ++ leBytes 4 sinks ++
    leBytes 4 recent ++ leBytes 4 tpf ++ leBytes 2 1 ++ leBytes 2 0 ++ leBytes 4 0x461C4000 ++ leBytes 4 0 ++ List.replicate 24 0#8

/-- With the region table in place. -/
def tabled : State := { up with kvTable := some 0x100000 }

theorem meets_KvCommands :
    Does up (cmd 0x0110 [0x100000] []) (fun u d => d.op = 0x0110 ∧ d.reserved 1 false = none ∧
      u.kv.any (fun x => x.2.present) = false ∧ d.p 0 % 64 = 0 ∧ inStack (d.p 0) (16384 * 64) = true) ∧
    Does tabled (cmd 0x0111 [16383] (region 0 4 1 1 1)) (fun u d => d.op = 0x0111 ∧ d.reserved 1 true = none ∧
      u.kvTable = some 0x100000 ∧ d.p 0 < 16384 ∧ (u.kvUse (d.p 0)).present = false ∧ d.len = 64 ∧ d.payload.length = 64 ∧
      kvDescBad d.payload = none ∧
      inStack (kvDescOf d.payload).base ((kvDescOf d.payload).slotSize * (kvDescOf d.payload).capacity +
        16 * ceilDiv (kvDescOf d.payload).capacity 128) = true ∧
      Clear u (0x100000 + 64 * d.p 0) 64 ∧
      0x100000 + 64 * d.p 0 + 64 ≤ (kvDescOf d.payload).base) ∧
    Does { tabled with kv := [(5, { present := true })] } (cmd 0x0112 [5] []) (fun u d => d.op = 0x0112 ∧
      d.reserved 1 false = none ∧ u.kvExists (d.p 0) = true ∧ (u.kvUse (d.p 0)).lock = none ∧ (u.kvUse (d.p 0)).waiters = [] ∧
      (u.kvUse (d.p 0)).readers = []) ∧
    Does tabled (cmd 0x0112 [5] []) (fun u d => d.op = 0x0112 ∧ d.reserved 1 false = none ∧ u.kvExists (d.p 0) = false) :=
  ⟨does_of (by decide +kernel), does_of (hd := fun u => by unfold Clear; infer_instance) (by decide +kernel),
    does_of (by decide +kernel), does_of (by decide +kernel)⟩

theorem meets_KvCreateCapacity :
    Does tabled (cmd 0x0111 [0] (region 0 4 2 2 1)) (fun u d => d.op = 0x0111 ∧ d.reserved 1 true = none ∧ u.kvTable.isSome = true ∧
      d.p 0 < 16384 ∧ (u.kvUse (d.p 0)).present = false ∧ d.len = 64 ∧
      (kvDescOf d.payload).capacity ≤ (kvDescOf d.payload).sinks + (kvDescOf d.payload).recent) ∧
    Does tabled (cmd 0x0111 [0] (region 1 8 1 1 4)) (fun u d => d.op = 0x0111 ∧ d.reserved 1 true = none ∧ u.kvTable.isSome = true ∧
      d.p 0 < 16384 ∧ (u.kvUse (d.p 0)).present = false ∧ d.len = 64 ∧ bitOf (kvDescOf d.payload).flags 0 = true ∧
      (kvDescOf d.payload).capacity < (kvDescOf d.payload).tpf * (ceilDiv (kvDescOf d.payload).sinks (kvDescOf d.payload).tpf +
        ceilDiv (kvDescOf d.payload).recent (kvDescOf d.payload).tpf + 1)) :=
  ⟨does_of (by decide +kernel), does_of (by decide +kernel)⟩

theorem meets_TickCfgWritesShadow :
    (∀ x ∈ [100, 2000000], Does up (cmd 0x0201 [1, x] []) (fun u d => d.op = 0x0201 ∧ d.reserved 2 false = none ∧ d.p 0 < 2 ∧
      u.setArmed 2 = false ∧ 100 ≤ d.p 1 ∧ d.p 1 ≤ 2000000)) ∧
    Does (up.setReg rHubCfgStatus 4) (cmd 0x0201 [0, 99] []) (fun u d => d.op = 0x0201 ∧ d.reserved 2 false = none ∧ d.p 0 < 2 ∧
      u.setArmed 2 = true) ∧
    (∀ x ∈ [99, 2000001], Does up (cmd 0x0201 [1, x] []) (fun u d => d.op = 0x0201 ∧ d.reserved 2 false = none ∧ d.p 0 < 2 ∧
      u.setArmed 2 = false ∧ (d.p 1 < 100 ∨ 2000000 < d.p 1))) := by
  refine ⟨?_, does_of (by decide +kernel), ?_⟩ <;>
  · intro x hx
    simp only [List.mem_cons, List.not_mem_nil, or_false] at hx
    rcases hx with rfl | rfl <;> exact does_of (by decide +kernel)

theorem meets_OwnerMapReadWritesMap :
    Does { up with snap := { ownerMap := [(3, 4), (5, 6)] } } (cmd 0x0402 [0x100000] []) (fun u d => d.op = 0x0402 ∧
      d.reserved 1 false = none ∧ inMem (d.p 0) (4 * u.snap.ownerMap.length) = true ∧
      Clear u (d.p 0) (4 * u.snap.ownerMap.length)) :=
  does_of (hd := fun u => by unfold Clear; infer_instance) (by decide +kernel)

/-- A valid job table at 0x100000, with one list of two modules at 0x101000, for module 9 (R249). -/
def jobTable : Mem :=
  cells 0x100000 (leBytes 4 0x544A4E48 ++ leBytes 2 1 ++ leBytes 2 9 ++ leBytes 8 7 ++ leBytes 8 1 ++
    leBytes 2 1 ++ leBytes 2 0 ++ leBytes 4 1 ++ leBytes 8 0x100040 ++ leBytes 2 0 ++ leBytes 2 0xFFFF ++ leBytes 2 0 ++ leBytes 2 0 ++
    leBytes 8 0 ++ leBytes 8 0) ++
  cells 0x100040 (leBytes 8 0x101000 ++ leBytes 8 2) ++ cells 0x101000 (leBytes 2 1 ++ leBytes 2 2)

/-- With one extent of the host pool. -/
def pooled : State := { up with host := { extents := [{ offset := 0x200000, host := 0, bytes := 0x200000, num := 0 }] } }

theorem meets_PoolAndJobCommands :
    Does up (cmd 0x0301 [1, 0x9000000000] []) (fun u d => d.op = 0x0301 ∧ d.reserved 2 false = none ∧ u.binding.active = none ∧
      u.binding.armed = none ∧ d.p 0 < 2 ∧ d.p 1 % 2 ^ 24 = 0 ∧ inHalf (d.p 0) (d.p 1) (2 ^ 24) = true) ∧
    Does pooled (cmd 0x0310 [0, 0x400000, 0x200000] []) (fun u d => d.op = 0x0310 ∧ d.reserved 3 false = none ∧ d.p 0 % mib2 = 0 ∧
      d.p 1 % mib2 = 0 ∧ d.p 2 % mib2 = 0 ∧ d.p 2 ≠ 0 ∧ d.p 0 + d.p 2 ≤ poolEnd - poolBase ∧
      (∀ x ∈ u.host.extents, meets (d.p 0) (d.p 2) x.offset x.bytes = false) ∧ u.host.extents.length < 4096 ∧
      (u.host.extents.map (fun x => x.bytes)).sum + d.p 2 ≤ poolEnd - poolBase ∧
      findN 4096 (fun i => !u.host.extents.any (fun x => x.num == i)) = some 1) ∧
    Does pooled (cmd 0x0311 [0x200000] []) (fun u d => d.op = 0x0311 ∧ d.reserved 1 false = none ∧
      (∃ x ∈ u.host.extents, u.host.extents.find? (fun x => x.offset == d.p 0) = some x ∧ u.extentUsed x = false) ∧
      u.binding.armed = none ∧ u.setArmed 3 = false) ∧
    (∃ xs, xs = pooled.host.extents ∧ Does pooled (cmd 0x0312 [0x100000] []) (fun u d => d.op = 0x0312 ∧ d.reserved 1 false = none ∧
      xs = u.host.extents.mergeSort (fun a b => decide (a.num ≤ b.num)) ∧ d.p 0 % 16 = 0 ∧
      inMem (d.p 0) (16 * xs.length) = true ∧ Clear u (d.p 0) (16 * xs.length))) ∧
    Does ({ up with mem := jobTable }.setReg (rHubFabricId + 0x8000) 9) (cmd 0x0401 [0x100000] []) (fun u d => d.op = 0x0401 ∧ d.reserved 1 false = none ∧
      inStack (d.p 0) 64 = true ∧ u.badRange (d.p 0) 64 = false ∧ u.jobBad (d.p 0) = none ∧
      u.ld 2 (d.p 0 + 6) = u.act rHubFabricId % 65536 ∧
      ((List.range (u.ld 4 (d.p 0 + 0x1C))).map (fun i => (u.jobDir (u.ld 8 (d.p 0 + 0x20)) i).2.1)).sum ≤ 4194304 ∧
      u.setArmed 4 = false) := by
  refine ⟨does_of (by decide +kernel), does_of (by decide +kernel), does_of (by decide +kernel), ⟨_, rfl, ?_⟩,
    does_of (by decide +kernel)⟩
  exact does_of (hd := fun u => by unfold Clear; infer_instance) (by decide +kernel)

/-! ## Witnesses: rules, telemetry, snapshots -/

theorem meets_RuleAndTelemetryCommands :
    (∀ x ∈ [(0, 1), (255, 1), (253, 3)], ∀ c ∈ [0, 2], Does (up.setReg rHubCfgStatus c)
      (cmd 0x0501 [x.1, x.2] (List.replicate (64 * x.2) 7#8)) (fun u d => d.op = 0x0501 ∧ d.reserved 2 true = none ∧ 1 ≤ d.p 1 ∧
        d.p 1 ≤ 63 ∧ d.p 0 ≤ 255 ∧ d.p 0 + d.p 1 ≤ 256 ∧ d.len = 64 * d.p 1 ∧ d.payload.length = 64 * d.p 1 ∧
        u.setArmed 1 = decide (c = 2))) ∧
    (∀ x ∈ [0, 1, 2], Does up (cmd 0x0502 [x, 0x100000] []) (fun u d => d.op = 0x0502 ∧ d.reserved 2 false = none ∧ d.p 0 ≤ 2 ∧
      d.p 1 % 64 = 0 ∧ inMem (d.p 1) 16384 = true ∧ Clear u (d.p 1) 16384)) ∧
    Does up (cmd 0x0503 [] []) (fun u d => d.op = 0x0503 ∧ d.reserved 0 false = none ∧ u.setArmed 1 = false) ∧
    (∀ x ∈ [0x4000000, 0x100000000], Does up (cmd 0x0701 [0, x] []) (fun _ d => d.op = 0x0701 ∧ d.reserved 2 false = none ∧
      d.p 0 % mib2 = 0 ∧ d.p 1 % mib2 = 0 ∧ 0x4000000 ≤ d.p 1 ∧ d.p 1 ≤ 0x100000000 ∧ inStack (d.p 0) (d.p 1) = true ∧
      inStack (d.p 0) 64 = true)) ∧
    Does up (cmd 0x0702 [traceBits, logBits] []) (fun _ d => d.op = 0x0702 ∧ d.reserved 2 false = none ∧
      d.p 0 &&& traceBits = d.p 0 ∧ d.p 1 &&& logBits = d.p 1) ∧
    Does (up.modSrc srcHub (fun x => { x with codes := 1#64 })) (cmd 0x0703 [srcHub] []) (fun u d => d.op = 0x0703 ∧
      d.reserved 1 false = none ∧ (u.src (d.p 0)).codes ≠ 0#64) ∧
    Does up (cmd 0x0703 [srcHub] []) (fun u d => d.op = 0x0703 ∧ d.reserved 1 false = none ∧ (u.src (d.p 0)).codes = 0#64) := by
  refine ⟨?_, ?_, does_of (by decide +kernel), ?_, does_of (by decide +kernel), does_of (by decide +kernel),
    does_of (by decide +kernel)⟩
  · intro x hx c hc
    simp only [List.mem_cons, List.not_mem_nil, or_false] at hx hc
    rcases hx with rfl | rfl | rfl <;> rcases hc with rfl | rfl <;> exact does_of (by decide +kernel)
  · intro x hx
    simp only [List.mem_cons, List.not_mem_nil, or_false] at hx
    rcases hx with rfl | rfl | rfl <;> exact does_of (hd := fun u => by unfold Clear; infer_instance) (by decide +kernel)
  · intro x hx
    simp only [List.mem_cons, List.not_mem_nil, or_false] at hx
    rcases hx with rfl | rfl <;> exact does_of (by decide +kernel)

/-- A generation of no bytes, for the job and configuration 0, signed by the module's own key (R296). -/
def signed (pre : List Byte) : List Byte := pre ++ ecdsaSign 1 0 (sha256 pre)
def emptyGen : Gen :=
  { slot := 0, gen := 1, blocks := [3],
    commit := signed (leBytes 4 0x43474E48 ++ leBytes 2 1 ++ leBytes 2 0 ++ leBytes 8 0 ++ leBytes 8 1 ++ List.replicate 56 0#8 ++ sha256 [] ++
      List.replicate 80 0#8) }

/-- With that generation in flash, and a record that no key signed. -/
def kept : State := { up with snap := { gens := [emptyGen, { slot := 1, gen := 2, commit := List.replicate 256 0#8 }] },
                              binding := { registered := some { bytes := List.replicate 64 0#8 } } }

/-- A snapshot configuration (R293): one region, two slots. -/
def snapPay : List Byte :=
  leBytes 1 1 ++ leBytes 1 0 ++ leBytes 2 1 ++ leBytes 2 0 ++ leBytes 1 2 ++ leBytes 1 1 ++ leBytes 8 0x4000000 ++ leBytes 8 0x100000 ++
    leBytes 8 0x20000 ++ leBytes 8 0 ++ leBytes 4 0 ++ leBytes 4 0 ++ leBytes 8 0x200000 ++ leBytes 8 4096

/-- An export (R298) of one region as BF16 over the fabric. -/
def exportPay : List Byte :=
  leBytes 8 1 ++ leBytes 8 1 ++ leBytes 8 2 ++ leBytes 8 15 ++ leBytes 8 0x100000 ++ leBytes 8 4096 ++ leBytes 8 1 ++ leBytes 8 0x200000 ++
    leBytes 8 4096

/-- A mirror that has landed at least once. -/
def mirror : State :=
  { up with snap := { everLanded := true }, binding := { activeJob := some { bytes := List.replicate 64 0#8 } } }

theorem meets_SnapshotCommands :
    Does { up with snap := { cfg := { n := 2, slotBytes := 0x4000000 } } } (cmd 0x0601 [] snapPay) (fun u d => d.op = 0x0601 ∧
      d.reserved 0 true = none ∧ d.snapBad = none ∧ d.snapCfg.n = u.takeSnapCfg.snap.cfg.n ∧
      d.snapCfg.slotBytes = u.takeSnapCfg.snap.cfg.slotBytes ∧
      u.binding.active = none) ∧
    Does atWork (cmd 0x0601 [] (3#8 :: snapPay.drop 1)) (fun u d => d.op = 0x0601 ∧ d.reserved 0 true = none ∧ d.snapBad = none ∧
      d.snapCfg.discard = true ∧ u.binding.active = some theBind ∧ theBind.period ≠ 0) ∧
    Does { up with snap := { cfgGiven := true } } (cmd 0x0602 [] []) (fun u d => d.op = 0x0602 ∧ d.reserved 0 false = none ∧
      u.snap.cfgGiven = true ∧ u.snap.now = none) ∧
    (∀ g ∈ [(1, true), (2, false)], Does kept (cmd 0x0603 [g.1] []) (fun u d => d.op = 0x0603 ∧ d.reserved 3 false = none ∧ d.p 1 = 0 ∧
      u.binding.active = none ∧ u.setArmed 1 = false ∧ u.binding.registered = some { bytes := List.replicate 64 0#8 } ∧
      recordValid (u.takeSnapCfg.restoreSrc d).pub (u.takeSnapCfg.restoreSrc d).record = g.2 ∧
      (g.2 = true → fieldAt (u.takeSnapCfg.restoreSrc d).record 0x38 8 ≤ (u.takeSnapCfg.restoreSrc d).bytes.length ∧
        digestMatches (u.takeSnapCfg.restoreSrc d).record (u.takeSnapCfg.restoreSrc d).bytes = true ∧ fieldAt (u.takeSnapCfg.restoreSrc d).record 8 8 = 0 ∧
        leNat ((u.takeSnapCfg.restoreSrc d).state 49240 8) = 0 ∧ (∀ p ∈ (u.takeSnapCfg.restoreSrc d).places, inStack p.1.base p.1.bytes = true)))) ∧
    Does up (cmd 0x0604 [0] exportPay) (fun u d => d.op = 0x0604 ∧ d.reserved 1 true = none ∧ d.dirty 1 3 = false ∧
      d.dirty 5 3 = false ∧ d.regionsDirty 0x38 (d.pay 0x30 8) = none ∧ u.snap.shipping = none ∧
      u.exportBad d = none) ∧
    Does up (cmd 0x0605 [15, 0xFFFE, 0x100000, 4096] []) (fun u d => d.op = 0x0605 ∧ d.reserved 4 false = none ∧
      u.snap.windows.any (fun w => w.window == d.p 0) = false ∧ d.p 0 ≤ 15 ∧ d.p 1 < 0xFFFF ∧ d.p 2 % 64 = 0 ∧ inStack (d.p 2) 1 = true ∧
      inStack (d.p 2) (d.p 3) = true) ∧
    Does { up with snap := { windows := [{ window := 15, source := 3, base := 0, bytes := 64 }] } } (cmd 0x0606 [15] []) (fun u d =>
      d.op = 0x0606 ∧ d.reserved 1 false = none ∧ u.snap.windows.any (fun w => w.window == d.p 0) = true) ∧
    (∀ b ∈ [none, some theBind], Does { mirror with binding := { mirror.binding with active := b } } (cmd 0x0607 [] []) (fun u d =>
      d.op = 0x0607 ∧ d.reserved 0 false = none ∧ u.mayPromote = true ∧ u.binding.active = b)) ∧
    Does kept (cmd 0x0608 [0x100000] []) (fun u d => d.op = 0x0608 ∧ d.reserved 1 false = none ∧ d.p 0 % 64 = 0 ∧
      inMem (d.p 0) (256 * u.takeSnapCfg.validGens.length) = true ∧ (∀ g ∈ u.takeSnapCfg.validGens, g.commit.length = 256) ∧
      Clear u (d.p 0) (256 * u.takeSnapCfg.validGens.length)) := by
  refine ⟨does_of (by decide +kernel), does_of (by decide +kernel), does_of (by decide +kernel), ?_, does_of (by decide +kernel),
    does_of (by decide +kernel), does_of (by decide +kernel), ?_,
    does_of (hd := fun u => by unfold Clear; infer_instance) (by decide +kernel)⟩
  · intro g hg
    simp only [List.mem_cons, List.not_mem_nil, or_false] at hg
    rcases hg with rfl | rfl <;> exact does_of (by decide +kernel)
  · intro b hb
    simp only [List.mem_cons, List.not_mem_nil, or_false] at hb
    rcases hb with rfl | rfl <;> exact does_of (by decide +kernel)

/-! ## Witnesses: maintenance, configuration, security -/

/-- With core 63 of die 1 fenced. -/
def fenced : State := up.setCore (coreKey 1 63) { fenced := true }

theorem meets_CoreCommands :
    Does served (cmd 0x0801 [1, 63] []) (fun u d => d.p 0 ≤ 1 ∧ d.p 1 ≤ 63 ∧ d.op = 0x0801 ∧ d.reserved 2 false = none ∧
      (u.core d.coreKey).fenced = false) ∧
    Does { fenced with sec := served.sec } (cmd 0x0802 [1, 63] []) (fun u d => d.p 0 ≤ 1 ∧ d.p 1 ≤ 63 ∧ d.op = 0x0802 ∧
      d.reserved 2 false = none ∧ (u.core d.coreKey).fenced = true) ∧
    Does { fenced with sec := served.sec } (cmd 0x0803 [1, 63, 0x01810100] []) (fun u d => d.p 0 ≤ 1 ∧ d.p 1 ≤ 63 ∧ d.op = 0x0803 ∧
      d.reserved 3 false = none ∧ (u.core d.coreKey).fenced = true ∧ spareMapBad (d.p 2) = none) ∧
    (∀ p ∈ [64, 67], Does { fenced with sec := served.sec } (cmd 0x0804 [1, 63, p] []) (fun u d => d.p 0 ≤ 1 ∧ d.p 1 ≤ 63 ∧ d.op = 0x0804 ∧
      d.reserved 3 false = none ∧ (u.core d.coreKey).fenced = true ∧ 64 ≤ d.p 2 ∧ d.p 2 ≤ 67 ∧
      (∀ i, i < 64 → u.position (d.p 0) i ≠ d.p 2) ∧ (u.rowFails (d.p 0) (d.p 2)).length < 3)) ∧
    Does { fenced with sec := served.sec } (cmd 0x0805 [1, 63] []) (fun u d => d.p 0 ≤ 1 ∧ d.p 1 ≤ 63 ∧ d.op = 0x0805 ∧
      d.reserved 2 false = none ∧ (u.core d.coreKey).fenced = true ∧
      (rowsInUse (u.reg (rCoreSpareMap (d.p 0) (d.p 1)))).filter (fun r => [5, 7].contains r) = [5, 7]) ∧
    (∀ op ∈ [(0x0803, 3), (0x0805, 2)], Does served (cmd op.1 [1, 63] []) (fun u d => d.p 0 ≤ 1 ∧ d.p 1 ≤ 63 ∧ d.op = op.1 ∧
      d.reserved op.2 false = none ∧ (u.core d.coreKey).fenced = false)) := by
  refine ⟨does_of (by decide +kernel), does_of (by decide +kernel), does_of (by decide +kernel), ?_, does_of (by decide +kernel), ?_⟩
  · intro p hp
    simp only [List.mem_cons, List.not_mem_nil, or_false] at hp
    rcases hp with rfl | rfl <;> exact does_of (by decide +kernel)
  · intro p hp
    simp only [List.mem_cons, List.not_mem_nil, or_false] at hp
    rcases hp with rfl | rfl <;> exact does_of (by decide +kernel)

theorem meets_FencesBegin : let s := up.setCore (coreKey 1 63) { fenceReq := true }
    1 < 2 ∧ 63 < 64 ∧ (s.core (coreKey 1 63)).fenceReq = true ∧ (s.core (coreKey 1 63)).ramp.phase = 0 ∧
    s.run (engineId 1 1 63) = none ∧ s.run (engineId 2 1 63) = none := by decide +kernel

/-- A firmware image of 256 bytes for matrix cores, signed by the maker (R407). -/
def firmware (key : Nat) : List Byte :=
  let pre := leBytes 4 0x57464E48 ++ leBytes 4 0 ++ leBytes 4 0 ++ leBytes 4 256 ++ sha256 [] ++ leBytes 1 1 ++ List.replicate 143 0#8
  pre ++ ecdsaSign key 0 (sha256 pre)

theorem meets_ServiceCommands :
    (∀ id ∈ [0xFFFF, 5], Does ((served.setReg (rFabCtrl 3 + 0x8000) 1).setReg (rHubFabricId + 0x8000) id) (cmd 0x0810 [3, 15] [])
      (fun u d => d.op = 0x0810 ∧ d.reserved 2 false = none ∧ d.p 0 ≤ 3 ∧ d.p 1 ≤ 15 ∧ (u.port (d.p 0)).state = 0 ∧
        u.portMayTrain (d.p 0) = decide (id = 5))) ∧
    (∀ p ∈ [0, 4], let d := cmd 0x0811 [p] []
     AtFront (at3 served d) 3 d ∧ d.op = 0x0811 ∧ ((at3 served d).ring 3).holding = false ∧ (at3 served d).cmdChecks d = none ∧
     d.reserved 1 false = none ∧ d.p 0 ≤ 4 ∧ (at3 served d).targetBusy 3 d = false ∧
     (∀ x ∈ (at3 served d).clk.relocks, x.ring ≠ some 3)) ∧
    Does served (cmd 0x0812 [11, 31, 5] []) (fun u d => d.op = 0x0812 ∧ d.reserved 3 false = none ∧ d.p 0 ≤ 11 ∧ d.p 1 ≤ 31 ∧
      u.rowSpares (32 * d.p 0 + d.p 1) ≠ 0) ∧
    Does (served.setReg rSnapCtrSPARESLEFT 1) (cmd 0x0813 [238417] []) (fun u d => d.op = 0x0813 ∧ d.reserved 1 false = none ∧
      d.p 0 < slotBlocks + u.snap.sparesUsed ∧ d.p 0 ∉ u.snap.retired ∧ u.validGens.getLast? = none ∧
      0 < u.reg rSnapCtrSPARESLEFT) ∧
    (∀ key ∈ [1, 2], Does { served with mem := cells 0x100000 (firmware key) } (cmd 0x0820 [0x100000, 256, 1] []) (fun u d =>
      d.op = 0x0820 ∧ d.reserved 3 false = none ∧ 256 ≤ d.p 1 ∧ d.p 1 ≤ 0x4000000 ∧ inMem (d.p 0) (d.p 1) = true ∧ d.p 2 ≤ 9 ∧
      u.badRange (d.p 0) (d.p 1) = false ∧ fwHeaderBad (u.peek (d.p 0) (d.p 1)) (d.p 1) (d.p 2) = none ∧
      u.imageSigned (u.peek (d.p 0) (d.p 1)) = decide (key = 1) ∧ (u.fwOf (d.p 2)).staged = none)) ∧
    Does (served.setFw 9 { staged := some [] }) (cmd 0x0821 [0, 0, 9] []) (fun u d => d.op = 0x0821 ∧ d.p 0 = 0 ∧ d.p 1 = 0 ∧
      d.reserved 3 false = none ∧ d.p 2 ≤ 9 ∧ (u.fwOf (d.p 2)).staged = some [] ∧ (u.fwOf (d.p 2)).activating = false) ∧
    (∀ k ∈ [(0, srcCmd 3), (8, engineId 8 1 0)], let s := up.setFw k.1 { staged := some [], activating := true, switched := (fwParts k.1).dropLast }
     (s.fwOf k.1).staged = some [] ∧ (s.fwOf k.1).activating = true ∧ (fwParts k.1)[(s.fwOf k.1).switched.length]? = some k.2 ∧
     (k.1 ≠ 0 → s.run k.2 = none) ∧ (k.1 = 0 → (s.ring (engInst k.2)).holding = false) ∧
     (s.fwOf k.1).switched.length + 1 = (fwParts k.1).length) ∧
    (∀ k ∈ [(0, srcCmd 0), (8, engineId 8 0 0)], let s := up.setFw k.1 { staged := some [], activating := true }
     (s.fwOf k.1).staged = some [] ∧ (s.fwOf k.1).activating = true ∧ (fwParts k.1)[(s.fwOf k.1).switched.length]? = some k.2 ∧
     (k.1 ≠ 0 → s.run k.2 = none) ∧ (k.1 = 0 → (s.ring (engInst k.2)).holding = false) ∧
     (s.fwOf k.1).switched.length + 1 ≠ (fwParts k.1).length) := by
  refine ⟨?_, ?_, does_of (by decide +kernel), does_of (by decide +kernel), ?_, does_of (by decide +kernel),
    by decide +kernel, by decide +kernel⟩
  · intro p hp
    simp only [List.mem_cons, List.not_mem_nil, or_false] at hp
    rcases hp with rfl | rfl <;> exact does_of (by decide +kernel)
  · intro p hp
    simp only [List.mem_cons, List.not_mem_nil, or_false] at hp
    rcases hp with rfl | rfl <;>
      exact ⟨atFront_of (by decide +kernel) (by decide +kernel) (by decide +kernel) rfl, by decide +kernel⟩
  · intro p hp
    simp only [List.mem_cons, List.not_mem_nil, or_false] at hp
    rcases hp with rfl | rfl <;> exact does_of (by decide +kernel)

theorem meets_ConfigurationCommands :
    Does up (cmd 0x0901 [0x24, 1] []) (fun u d => d.op = 0x0901 ∧ d.reserved 2 false = none ∧ d.maskBad = none ∧ u.now < d.p 1 ∧
      u.binding.active = none ∧ (∀ i ∈ maskSets (d.p 0), u.setArmed i = false) ∧ u.setsReply (some (d.p 1)) 0 (d.p 0) = none) ∧
    Does ((up.setReg rHubCfgStatus 0x40).setReg (rHubCfgTick 6) 5) (cmd 0x0902 [0x44] []) (fun u d => d.op = 0x0902 ∧ d.reserved 1 false = none ∧ d.maskBad = none ∧
      6 ∈ maskSets (d.p 0) ∧ u.setArmed 6 = true ∧ u.tooLate 6 = false) ∧
    Does up (cmd 0x0903 [0x7E] []) (fun u d => d.op = 0x0903 ∧ d.reserved 1 false = none ∧ d.maskBad = none ∧
      (∀ i ∈ maskSets (d.p 0), u.setArmed i = false)) ∧
    Does up (cmd 0x0904 [4] []) (fun u d => d.op = 0x0904 ∧ d.reserved 1 false = none ∧ d.maskBad = none ∧
      (∀ i ∈ maskSets (d.p 0), u.setArmed i = false) ∧ u.setsReply none 0 (d.p 0) = none) ∧
    Does { up with tick := { shPeriod := 99 } } (cmd 0x0904 [4] []) (fun u d => d.op = 0x0904 ∧ d.reserved 1 false = none ∧
      d.maskBad = none ∧ (∀ i ∈ maskSets (d.p 0), u.setArmed i = false) ∧ u.setsBad none 0 (d.p 0) = some (2, 0x18)) ∧
    (∀ c ∈ [0, 0x20], Does (served.setReg rHubCfgStatus c) (cmd 0x0B01 [3800] []) (fun u d => d.op = 0x0B01 ∧ d.reserved 1 false = none ∧
      u.field rPwrRange 12 0 ≤ d.p 0 ∧ d.p 0 ≤ u.field rPwrRange 28 16 ∧ u.setArmed 5 = decide (c = 0x20))) ∧
    Does served (cmd 0x0B02 [1500, 3800] []) (fun u d => d.op = 0x0B02 ∧ d.reserved 2 false = none ∧ 1500 ≤ d.p 0 ∧ d.p 0 ≤ d.p 1 ∧
      d.p 1 ≤ 3800 ∧ u.setArmed 5 = false ∧ d.p 0 ≤ u.field rPwrCap 12 0 ∧ u.field rPwrCap 12 0 ≤ d.p 1) ∧
    (∀ x ∈ [(0, 1), (7, 0), (8, 2)], Does served (cmd 0x0B03 [x.1, x.2] []) (fun u d => d.op = 0x0B03 ∧ d.reserved 2 false = none ∧ d.p 0 ≤ 8 ∧
      d.p 1 ∈ pllSources (d.p 0) ∧ u.setArmed 6 = false)) := by
  refine ⟨does_of (by decide +kernel), does_of (by decide +kernel), does_of (by decide +kernel), does_of (by decide +kernel),
    does_of (by decide +kernel), ?_, does_of (by decide +kernel), ?_⟩
  · intro p hp
    simp only [List.mem_cons, List.not_mem_nil, or_false] at hp
    rcases hp with rfl | rfl <;> exact does_of (by decide +kernel)
  · intro p hp
    simp only [List.mem_cons, List.not_mem_nil, or_false] at hp
    rcases hp with rfl | rfl | rfl <;> exact does_of (by decide +kernel)

/-- A maker command's payload (R408): the envelope with an inline body, signed with a key. -/
def envelope (key action arg : Nat) (body : List Byte) : List Byte :=
  let pre := leBytes 4 0x4B4D4E48 ++ leBytes 1 action ++ leBytes 1 arg ++ leBytes 2 0 ++ leBytes 8 0 ++ leBytes 8 0 ++ leBytes 8 0 ++
    leBytes 4 body.length ++ leBytes 4 0 ++ sha256 body ++ List.replicate 56 0#8
  pre ++ ecdsaSign key 0 (sha256 pre) ++ body ++ List.replicate ((8 - body.length % 8) % 8) 0#8

/-- A boot image of 256 bytes (R395), signed by the maker. -/
def bootImage : List Byte :=
  let pre := leBytes 4 0x49424E48 ++ leBytes 4 0 ++ leBytes 4 9 ++ leBytes 4 256 ++ sha256 [] ++ List.replicate 144 0#8
  pre ++ ecdsaSign 1 0 (sha256 pre)

/-- DER: an element of fewer than 128 bytes, or of fewer than 256. -/
def der (tag : Nat) (x : List Byte) : List Byte :=
  if x.length < 128 then leBytes 1 tag ++ leBytes 1 x.length ++ x else leBytes 1 tag ++ leBytes 2 (0x81 + 256 * x.length) ++ x

/-- A chain of one certificate whose subject has the key of the module. -/
def chain : List Byte :=
  der 0x30 (der 0x30 (der 2 [1#8] ++ der 0x30 [] ++ der 0x30 [] ++ der 0x30 [] ++ der 0x30 [] ++
    der 0x30 (der 0x30 [] ++ der 3 ([0#8, 4#8] ++ ecdsaPublic 1))) ++ der 0x30 [] ++ der 3 [0#8])

theorem meets_SecurityCommands :
    Does served (cmd 0x0A01 [] (leBytes 4 0x00100103 ++ List.replicate 60 0#8)) (fun _ d => d.op = 0x0A01 ∧ d.reserved 0 true = none ∧
      d.len = 64 ∧ 1 ≤ d.pay 0 1 ∧ d.pay 0 1 ≤ 3 ∧ d.pay 1 1 ≤ 1 ∧ 16 ≤ d.pay 2 2 ∧ d.dirty 4 60 = false) ∧
    Does (({ served with sec := { served.sec with entries := [List.replicate 128 1#8, List.replicate 128 2#8] } }.setReg rSecAuditOldest
        5).setReg rSecAuditNext 7) (cmd 0x0A02 [3, 65536, 0x100000] []) (fun u d => d.op = 0x0A02 ∧ d.reserved 3 false = none ∧
      1 ≤ d.p 1 ∧ d.p 1 ≤ 65536 ∧ d.p 0 < u.reg rSecAuditNext ∧ d.p 0 < u.reg rSecAuditOldest ∧
      inMem (d.p 2) (128 * ((u.sec.entries.drop 0).take (d.p 1)).length) = true ∧
      ((u.sec.entries.drop 0).take (d.p 1)).flatten.length = 128 * ((u.sec.entries.drop 0).take (d.p 1)).length ∧
      Clear u (d.p 2) (128 * ((u.sec.entries.drop 0).take (d.p 1)).length)) ∧
    Does served (cmd 0x0A10 [] (envelope 1 1 0 (leBytes 4 1023 ++ leBytes 4 5))) (fun u d => d.op = 0x0A10 ∧ d.reserved 0 true = none ∧
      d.envelopeBad 1 (d.makerArg == 0) (d.makerLen % 8 == 0) = none ∧ u.envelopeSigned d = true ∧
      burnAll d u.nvm.fuseWords ((indexed (fusePairs (u.makerBody d))).map (fun x => (x.1, x.2.1, x.2.2))) u.nvm.repair =
        ([(1023, 5)], none)) ∧
    (∀ key ∈ [1, 2], Does served (cmd 0x0A11 [] (envelope key 2 0 (leBytes 8 7))) (fun u d => d.op = 0x0A11 ∧ d.reserved 0 true = none ∧
      d.envelopeBad 2 (d.makerArg == 0) true = none ∧ u.envelopeSigned d = decide (key = 1))) ∧
    Does served (cmd 0x0A12 [] (envelope 1 0x10 1 bootImage)) (fun u d => d.op = 0x0A12 ∧ d.makerAction = 0x10 ∧ d.reserved 0 true = none ∧
      d.envelopeBad 0x10 (decide (d.makerArg ≤ 1)) true = none ∧ u.envelopeSigned d = true ∧ u.imageValid (u.makerBody d) = true ∧
      d.makerArg ≠ u.field rHubReady 4 4) ∧
    Does { served with nvm := { served.nvm with imageA := bootImage } } (cmd 0x0A12 [] (envelope 1 0x11 9 [])) (fun u d =>
      d.op = 0x0A12 ∧ d.makerAction = 0x11 ∧ d.reserved 0 true = none ∧ d.envelopeBad 0x11 true (d.makerLen == 0) = none ∧
      u.envelopeSigned d = true ∧ u.nvm.svn < d.makerArg ∧ d.makerArg ≤ fieldAt u.runningImage 8 4) ∧
    Does served (cmd 0x0A12 [] (envelope 1 0x12 3 [])) (fun u d => d.op = 0x0A12 ∧ d.makerAction = 0x12 ∧ d.reserved 0 true = none ∧
      d.envelopeBad 0x12 (decide (d.makerArg ≤ 3)) (d.makerLen == 0) = none ∧ u.envelopeSigned d = true ∧ u.nvm.rootSlot < d.makerArg) ∧
    Does served (cmd 0x0A12 [] (envelope 1 0x13 0 chain)) (fun u d => d.op = 0x0A12 ∧ d.makerAction = 0x13 ∧
      d.reserved 0 true = none ∧ d.envelopeBad 0x13 (d.makerArg == 0) (decide (d.makerLen ≤ 16384)) = none ∧
      u.envelopeSigned d = true ∧ leafKey (u.makerBody d) = some u.identityPub) := by
  refine ⟨does_of (by decide +kernel), does_of (hd := fun u => by unfold Clear; infer_instance) (by decide +kernel),
    does_of (by decide +kernel), ?_, does_of (by decide +kernel), does_of (by decide +kernel), does_of (by decide +kernel),
    does_of (by decide +kernel)⟩
  intro p hp
  simp only [List.mem_cons, List.not_mem_nil, or_false] at hp
  rcases hp with rfl | rfl <;> exact does_of (by decide +kernel)

/-! ## Witnesses: packets in hand, matrix sequences -/

theorem inHand_of {s : State} {e kind : Nat} {r : Run} (h : s.run e = some r ∧ s.goes e kind = true) : InHand s e kind r := ⟨h.1, h.2⟩

/-- The packet an engine would start next has `P`. -/
theorem nextP {s : State} {e : Nat} {P : NextPacket → Prop} [∀ p, Decidable (P p)]
    (h : (match s.nextPacket e with | some (p, _, _, _) => decide (P p) | none => false) = true) :
    ∃ p binds st ix, s.nextPacket e = some (p, binds, st, ix) ∧ P p := by
  split at h
  · rename_i p binds st ix hn
    exact ⟨p, binds, st, ix, hn, of_decide_eq_true h⟩
  · cases h

/-- An engine with a packet in hand, the collector at level 1. -/
def handed (e : Nat) (r : Run) : State := { up with engines := [(e, { run := some r })], tel := { level := 1 } }

/-- With one grain of die 1 that packet 7 uses. -/
def grained (s : State) (g : Grain) : State :=
  { s with yoyos := [{}, { grains := [(0x80003, { g with bound := true, consumers := [7] })] }] }

theorem meets_PacketsComplete :
    (∀ r ∈ [{ pid := 7, kind := 4, retired := true }, { pid := 7, kind := 4, stopped := true, fault := 1, status := 3 }],
      let s := handed (engineId 3 1 0) r
      s.run (engineId 3 1 0) = some r ∧ (r.retired = true ∨ r.stopped = true) ∧ r.replayOf = none ∧
      s.runBusy (engineId 3 1 0) r = false ∧ s.snap.held = [] ∧ Still s ∧ s.grainsOf r.pid = [] ∧ s.drainGrainsOf r.pid = []) ∧
    (∀ n ∈ [1, 2], let s := grained (handed (engineId 3 1 0) { pid := 7, kind := 4, retired := true }) { state := 1, usesLeft := n }
      s.runBusy (engineId 3 1 0) { pid := 7, kind := 4, retired := true } = false ∧ s.grainsOf 7 = [0x80003] ∧
      s.drainGrainsOf 7 = [] ∧ (s.grain 0x80003).usesLeft = n ∧ (s.grain 0x80003).hold = false ∧
      (s.grain 0x80003).complete = true ∧ s.replayHolds 0x80003 = false) := by unfold Still; decide +kernel

/-- A vector packet of window 0 that has not started when tick 5 has come, and which aborts or not. -/
def unstarted (abort : Nat) (g : Grain) : State :=
  let s := planned (engineId 3 1 0) 4 [] []
  grained { s with tick := { s.tick with now := 5#64 },
                   mem := image [windows, ⟨2, 0, 1, engineId 3 1 0, 0x800, leBytes 4 7 ++ leBytes 4 0 ++ leBytes 2 4 ++ leBytes 2 abort ++
                     leBytes 4 8 ++ leBytes 2 0xFFFF ++ List.replicate 110 0#8⟩] } g

/-- A matrix packet in tick 5 whose drain waits for grain 0x80003, which cannot come back; it has windows until 5. -/
def waitingTile : Tile :=
  { stream := 1, gi := 0, gj := 0, vals := [], ctx := { engine := streamEngine 1 63 1, place := { item := 3 } } }
def drainWaits (r : Run) : State :=
  let s := up.setCore (coreKey 1 63) { stalled := true, stallFor := [0x80003], drainQ := [waitingTile] }
  grained { s with tick := { now := 5#64 }, engines := [(streamEngine 1 63 1, { run := some r })] } {}

theorem meets_WindowsEnd :
    (∀ abort ∈ [true, false], let r : Run := { kind := 4, stop := 5, abort := abort }
      let s := { handed (engineId 3 1 0) r with tick := { now := 5#64 } }
      s.run (engineId 3 1 0) = some r ∧ r.judged = false ∧ r.stopped = false ∧ r.replayOf = none ∧ r.stop ≤ s.now ∧
      s.drainLost (engineId 3 1 0) = none) ∧
    (∀ abort ∈ [true, false], let r : Run := { kind := 1, stop := 5, abort := abort }
      (drainWaits r).run (streamEngine 1 63 1) = some r ∧ r.judged = false ∧ r.stopped = false ∧ r.replayOf = none ∧
      r.stop ≤ (drainWaits r).now ∧ (drainWaits r).drainLost (streamEngine 1 63 1) = some { item := 3 }) ∧
    (∀ abort ∈ [0, 1], ∃ p binds st ix, (unstarted abort {}).nextPacket (engineId 3 1 0) = some (p, binds, st, ix) ∧
      ((unstarted abort {}).run (engineId 3 1 0) = none ∧ p.stop ≤ (unstarted abort {}).now ∧
        ∃ g ∈ (unstarted abort {}).grainsOf p.packet.pid, ((unstarted abort {}).grain g).coming = false)) ∧
    (∀ abort ∈ [0, 1], ∃ p binds st ix, (unstarted abort { state := 2 }).nextPacket (engineId 3 1 0) = some (p, binds, st, ix) ∧
      ((unstarted abort { state := 2 }).run (engineId 3 1 0) = none ∧ p.stop ≤ (unstarted abort { state := 2 }).now ∧
        p.packet.abort = decide (abort = 1) ∧ (unstarted abort { state := 2 }).grainsOf p.packet.pid = [0x80003] ∧
        ∀ g ∈ (unstarted abort { state := 2 }).grainsOf p.packet.pid, ((unstarted abort { state := 2 }).grain g).coming = true)) := by
  refine ⟨by decide +kernel, by decide +kernel, ?_, ?_⟩ <;>
  · intro abort h
    simp only [List.mem_cons, List.not_mem_nil, or_false] at h
    rcases h with rfl | rfl <;> exact nextP (by decide +kernel)

/-- An instruction of a matrix sequence (R96). -/
def ins (op flags gi gj obA obB stride len : Nat) : List Byte :=
  leBytes 1 op ++ leBytes 1 flags ++ leBytes 1 gi ++ leBytes 1 gj ++ leBytes 4 obA ++ leBytes 4 obB ++ leBytes 4 stride ++ leBytes 1 len ++
    List.replicate 15 0#8

/-- A matrix sequence of BF16 operands (R89), in groups of one tile, chunks of 32, with a chain of no steps. -/
def matrix (mode m n k batch : Nat) (l : List (List Byte)) : List Byte :=
  leBytes 1 0x11 ++ leBytes 1 mode ++ leBytes 1 1 ++ leBytes 1 0 ++ leBytes 1 1 ++ leBytes 1 1 ++ leBytes 1 1 ++ leBytes 1 0 ++ leBytes 1 2 ++
    leBytes 1 l.length ++ leBytes 2 0 ++ leBytes 2 32 ++ leBytes 2 0 ++ leBytes 4 m ++ leBytes 4 n ++ leBytes 4 k ++ leBytes 4 batch ++
    leBytes 8 0x100000 ++ leBytes 4 64 ++ leBytes 4 64 ++ leBytes 4 128 ++ leBytes 4 0 ++ leBytes 4 1 ++ leBytes 2 0 ++ leBytes 2 64 ++
    List.replicate 128 0#8 ++ l.flatten

/-- The three instructions of one tile, and with a repeat around the MMA. -/
def three (flags : Nat) : List (List Byte) := [ins 1 flags 0 0 0 0 0 0, ins 2 flags 0 0 8192 0 0 0, ins 3 0 0 0 0 8192 0 0]
def repeated : List (List Byte) := [ins 4 0 0 0 0 0 0 1, ins 3 0 0 0 0 8192 0 0]

/-- Stream B of core 63 of die 1, with a sequence next. -/
def sequenced (mode m n k batch : Nat) : State := planned (streamEngine 1 63 1) 1 (matrix mode m n k batch (three 0)) []

/-- A sequence whose packet takes six shape words from memory (R48). -/
def shaped (words : List Nat) : State :=
  let body := matrix 0 1 1 32 1 (three 0)
  let pk := leBytes 4 7 ++ leBytes 4 0 ++ leBytes 2 1 ++ leBytes 2 0 ++ leBytes 4 body.length ++ leBytes 2 0 ++ List.replicate 14 0#8 ++
    leBytes 8 0x180000 ++ List.replicate 24 0#8 ++ body
  let s := bound (streamEngine 1 63 1) [windows, ⟨2, 0, 1, streamEngine 1 63 1, 0x800, pk⟩,
    ⟨6, 32, 1, 0, 0x2000, (List.range 6).flatMap (fun _ => leBytes 4 64) ++ leBytes 2 6 ++ List.replicate 6 0#8⟩]
  { s with mem := s.mem ++ cells 0x180000 (words.flatMap (leBytes 4)) }

theorem meets_MatrixSequencesStart :
    (∃ u r, Starts (shaped [1, 1, 32, 1, 0, 9]) (streamEngine 1 63 1) 1 u r ∧
      ((shaped [1, 1, 32, 1, 0, 9]).holdFree 1 63 1 1 = true ∧ r.spareWords 4 = true)) ∧
    (∃ u r, Starts ((sequenced 0 1 1 32 1).setCore (coreKey 1 63) { fenced := true }) (streamEngine 1 63 1) 1 u r ∧
      (((sequenced 0 1 1 32 1).setCore (coreKey 1 63) { fenced := true }).holdFree 1 63 1 1 = true ∧ r.spareWords 4 = false ∧ u.coreFenced 1 63 = true)) ∧
    (∃ u r, Starts (sequenced 0 1 1 33 1) (streamEngine 1 63 1) 1 u r ∧
      ((sequenced 0 1 1 33 1).holdFree 1 63 1 1 = true ∧ r.spareWords 4 = false ∧ u.coreFenced 1 63 = false ∧ (u.seqOf r).k % 32 ≠ 0)) ∧
    (∃ u r, Starts (sequenced 0 1 1 32 65537) (streamEngine 1 63 1) 1 u r ∧
      ((sequenced 0 1 1 32 65537).holdFree 1 63 1 1 = true ∧ r.spareWords 4 = false ∧ u.coreFenced 1 63 = false ∧ 65536 < (u.seqOf r).batch)) ∧
    (∃ u r, Starts (sequenced 0 1 1 32 0) (streamEngine 1 63 1) 1 u r ∧
      ((sequenced 0 1 1 32 0).holdFree 1 63 1 1 = true ∧ r.spareWords 4 = false ∧ u.coreFenced 1 63 = false ∧ (u.seqOf r).k % 32 = 0 ∧
        (u.seqOf r).batch ≤ 65536 ∧ (u.seqOf r).items < 2 ^ 32 ∧ (u.seqOf r).batch = 0)) ∧
    (∃ u r, Starts (sequenced 0 1 1 0 65536) (streamEngine 1 63 1) 1 u r ∧
      ((sequenced 0 1 1 0 65536).holdFree 1 63 1 1 = true ∧ r.spareWords 4 = false ∧ u.coreFenced 1 63 = false ∧ (u.seqOf r).k % 32 = 0 ∧
        (u.seqOf r).batch ≤ 65536 ∧ (u.seqOf r).items < 2 ^ 32 ∧ (u.seqOf r).m ≠ 0 ∧ (u.seqOf r).n ≠ 0 ∧ (u.seqOf r).batch ≠ 0 ∧
        (u.seqOf r).claim = false)) ∧
    (∃ u r, Starts (sequenced 8 1 1 32 1) (streamEngine 1 63 1) 1 u r ∧
      ((sequenced 8 1 1 32 1).holdFree 1 63 1 1 = true ∧ r.spareWords 4 = false ∧ u.coreFenced 1 63 = false ∧ (u.seqOf r).k % 32 = 0 ∧
        (u.seqOf r).batch ≤ 65536 ∧ (u.seqOf r).items < 2 ^ 32 ∧ (u.seqOf r).m ≠ 0 ∧ (u.seqOf r).n ≠ 0 ∧ (u.seqOf r).batch ≠ 0 ∧
        (u.seqOf r).claim = true)) :=
  ⟨startsP (by decide +kernel), startsP (by decide +kernel), startsP (by decide +kernel), startsP (by decide +kernel),
    startsP (by decide +kernel), startsP (by decide +kernel), startsP (by decide +kernel)⟩

/-- A sequence in hand on stream B of that core. -/
def onCore (body : List Byte) (more : Mem) (r : Run) (g : Core) : State :=
  { up with mem := cells bodyAt body ++ more, engines := [(streamEngine 1 63 1, { run := some r })], cores := [(coreKey 1 63, g)] }

def claiming (items : Nat) : Run :=
  { kind := 1, body := bodyAt, step := 1, cur := { items := items, needClaim := true, claimsEnded := false } }

/-- Counter 0 of die 1: an epoch, the next index and the limit. -/
def counter (epoch next limit : Nat) : Mem :=
  [(claimBase 1, BitVec.ofNat 8 epoch), (claimBase 1 + 1, BitVec.ofNat 8 (epoch / 256)), (claimBase 1 + 2, 0#8), (claimBase 1 + 3, 0#8),
   (claimBase 1 + 4, BitVec.ofNat 8 next), (claimBase 1 + 8, BitVec.ofNat 8 limit)]

def claimed (items epoch next limit : Nat) : State := onCore (matrix 8 1 1 32 items (three 0)) (counter epoch next limit) (claiming items) {}

theorem claim_due (items epoch next limit : Nat) (h : items < 2 ^ 32)
    (hb : let s := claimed items epoch next limit
      s.run (streamEngine 1 63 1) = some (claiming items) ∧ s.goes (streamEngine 1 63 1) 1 = true ∧
      s.claimOf (claiming items) = some (0, 0) ∧ s.badRange (claimBase 1 + 16 * 0) 16 = false) :
    ClaimDue (claimed items epoch next limit) 1 63 1 (claiming items) (claimBase 1 + 16 * 0) 256 :=
  ⟨by decide, hb.1, hb.2.1, rfl, rfl, rfl, ⟨0, 0, hb.2.2.1, rfl, rfl⟩, hb.2.2.2, h⟩

theorem meets_TileClaims :
    (ClaimDue (claimed 5 256 2 3) 1 63 1 (claiming 5) (claimBase 1 + 16 * 0) 256 ∧
      (claimed 5 256 2 3).ld 4 (claimBase 1 + 16 * 0) = 256 ∧
      (claimed 5 256 2 3).ld 4 (claimBase 1 + 16 * 0 + 4) < (claimed 5 256 2 3).ld 4 (claimBase 1 + 16 * 0 + 8) ∧
      (claiming 5).cur.items ≠ (claimed 5 256 2 3).ld 4 (claimBase 1 + 16 * 0 + 8)) ∧
    (ClaimDue (claimed 3 256 3 3) 1 63 1 (claiming 3) (claimBase 1 + 16 * 0) 256 ∧
      (claimed 3 256 3 3).ld 4 (claimBase 1 + 16 * 0) = 256 ∧
      (claimed 3 256 3 3).ld 4 (claimBase 1 + 16 * 0 + 8) ≤ (claimed 3 256 3 3).ld 4 (claimBase 1 + 16 * 0 + 4)) ∧
    (ClaimDue (claimed 3 0 3 3) 1 63 1 (claiming 3) (claimBase 1 + 16 * 0) 256 ∧
      newerEpoch 256 ((claimed 3 0 3 3).ld 4 (claimBase 1 + 16 * 0)) = true ∧ 0 < (claiming 3).cur.items) ∧
    (ClaimDue (claimed 3 512 0 3) 1 63 1 (claiming 3) (claimBase 1 + 16 * 0) 256 ∧
      (claimed 3 512 0 3).ld 4 (claimBase 1 + 16 * 0) ≠ 256 ∧
      newerEpoch 256 ((claimed 3 512 0 3).ld 4 (claimBase 1 + 16 * 0)) = false) :=
  ⟨⟨claim_due _ _ _ _ (by decide) (by decide +kernel), by decide +kernel⟩, ⟨claim_due _ _ _ _ (by decide) (by decide +kernel), by decide +kernel⟩,
    ⟨claim_due _ _ _ _ (by decide) (by decide +kernel), by decide +kernel⟩, ⟨claim_due _ _ _ _ (by decide) (by decide +kernel), by decide +kernel⟩⟩

/-- A pointer-list entry (R94): operands at 0x200000 and 0x210000, result at 0x220000, and M of the entry. -/
def entry (mEff : Nat) : List Byte :=
  leBytes 6 0x200000 ++ leBytes 6 0x210000 ++ leBytes 6 0x220000 ++ leBytes 2 mEff ++ List.replicate 12 0#8

def beginning : Run := { kind := 1, body := bodyAt, cur := { items := 2 } }
def begun (m mEff : Nat) : State := onCore (matrix 0 m 1 32 1 (three 0)) (cells 0x100000 (entry mEff)) beginning {}
def second : Run := { beginning with cur := { items := 2, next := 1, entryOf := some 0, entry := entry 1 } }
def passed : State := onCore (matrix 0 256 1 32 1 (three 0)) [] second {}

theorem meets_ItemsBegin :
    (InHand (begun 1 0) (streamEngine 1 63 1) 1 beginning ∧ (let s := begun 1 0
     let q := s.seqOf beginning
     let p := beginning.withItem 0 0 (entry 0)
     beginning.nextItem q.claim = some 0 ∧ (q.itemAt 0).1 = 0 ∧ beginning.cur.entryOf ≠ some 0 ∧
     s.load q.ptr 32 = .ok (entry 0) ∧ s.itemCheck (streamEngine 1 63 1) p (p.itemOf q) = 0 ∧ (p.itemOf q).hasTile = true ∧ q.chunks ≠ 0 ∧
     s.insList beginning.body (p.itemOf q) ≠ [] ∧
     nextPos (s.insList beginning.body (p.itemOf q)) q.chunks 0 (fun y => !y.isLoad) <
       q.chunks * (s.insList beginning.body (p.itemOf q)).length)) ∧
    (InHand passed (streamEngine 1 63 1) 1 second ∧ (let s := passed
     let q := s.seqOf second
     let p := second.withItem 1 0 second.cur.entry
     second.nextItem q.claim = some 1 ∧ (q.itemAt 1).1 = 0 ∧ second.cur.entryOf = some 0 ∧
     s.itemCheck (streamEngine 1 63 1) p (p.itemOf q) = 0 ∧ (p.itemOf q).hasTile = false ∧ q.claim = false ∧ q.step ≠ 0)) ∧
    (InHand (begun 1 2) (streamEngine 1 63 1) 1 beginning ∧ (let s := begun 1 2
     let q := s.seqOf beginning
     let p := beginning.withItem 0 0 (entry 2)
     beginning.nextItem q.claim = some 0 ∧ (q.itemAt 0).1 = 0 ∧ beginning.cur.entryOf ≠ some 0 ∧
     s.load q.ptr 32 = .ok (entry 2) ∧ s.itemCheck (streamEngine 1 63 1) p (p.itemOf q) ≠ 0)) :=
  ⟨⟨inHand_of (by decide +kernel), by decide +kernel⟩, ⟨inHand_of (by decide +kernel), by decide +kernel⟩,
    ⟨inHand_of (by decide +kernel), by decide +kernel⟩⟩

/-- Whether a stream's packet in hand has a LOAD next, or an instruction of the other sort, of which `p` holds. -/
def atIns (s : State) (die c st : Nat) (r : Run) (load : Bool) (p : Due → Bool) : Bool :=
  decide (st < 2) && decide (s.run (streamEngine die c st) = some r) && s.goes (streamEngine die c st) 1 &&
    (match (if load then s.nextLoad r else s.nextIns r) with | some d => p d | none => false)

theorem atInsP {s : State} {die c st : Nat} {r : Run} {load : Bool} {P : Due → Prop} [hd : ∀ d, Decidable (P d)]
    (h : atIns s die c st r load (fun d => decide (P d)) = true) : ∃ d, AtIns s die c st r load d ∧ P d := by
  simp only [atIns, Bool.and_eq_true, decide_eq_true_eq] at h
  obtain ⟨⟨⟨h1, h2⟩, h3⟩, h4⟩ := h
  split at h4
  · rename_i d hn
    exact ⟨d, ⟨h1, ⟨h2, h3⟩, hn⟩, of_decide_eq_true h4⟩
  · cases h4

/-- A run with item 0 of one tile in hand, at an instruction of a chunk, of a list of three. -/
def working (pc chunk mEff : Nat) : Run :=
  { kind := 1, body := bodyAt, cur := { items := 1, item := some 0, entryOf := some 0, entry := entry mEff, pc := pc, chunk := chunk,
                                        lpos := 3 * chunk + pc } }
def atWorkOn (l : List (List Byte)) (m k pc chunk mEff : Nat) (g : Core) : State :=
  onCore (matrix 0 m 1 k 1 l) [] (working pc chunk mEff) g

/-- The same with the operands' stack dead, the collector at level 1. -/
def noStack (s : State) : State := { s with stackFail := 0xFFF, tel := { level := 1 } }

theorem meets_LoadsIssue :
    (∃ d, AtIns (atWorkOn (three 0) 1 32 0 0 0 {}) 1 63 1 (working 0 0 0) true d ∧ (d.x.op = 1 ∧
      (atWorkOn (three 0) 1 32 0 0 0 {}).loadFree (coreKey 1 63) 1 (working 0 0 0) d ∧ d.loadRows ≠ 0 ∧ d.kj ≠ 0 ∧
      bitOf d.x.flags 1 = false ∧ ((atWorkOn (three 0) 1 32 0 0 0 {}).readRuns d.loadRuns []).2 = 0)) ∧
    (∃ d, AtIns (atWorkOn (three 2) 1 32 1 0 0 {}) 1 63 1 (working 1 0 0) true d ∧ (d.x.op = 2 ∧
      (atWorkOn (three 2) 1 32 1 0 0 {}).loadFree (coreKey 1 63) 1 (working 1 0 0) d ∧ d.loadRows ≠ 0 ∧ d.kj ≠ 0 ∧
      bitOf d.x.flags 1 = true)) ∧
    (∃ d, AtIns (noStack (atWorkOn (three 0) 1 32 0 0 0 {})) 1 63 1 (working 0 0 0) true d ∧ (d.x.op = 1 ∧
      (noStack (atWorkOn (three 0) 1 32 0 0 0 {})).loadFree (coreKey 1 63) 1 (working 0 0 0) d ∧ d.loadRows ≠ 0 ∧ d.kj ≠ 0 ∧
      bitOf d.x.flags 1 = false ∧ ((noStack (atWorkOn (three 0) 1 32 0 0 0 {})).readRuns d.loadRuns []).2 ≠ 0 ∧
      (noStack (atWorkOn (three 0) 1 32 0 0 0 {})).tel.level ≠ 0)) ∧
    (∃ d, AtIns (atWorkOn repeated 1 32 0 0 0 {}) 1 63 1 (working 0 0 0) false d ∧ d.x.op = 4) :=
  ⟨atInsP (hd := fun d => by unfold State.loadFree; infer_instance) (by decide +kernel),
    atInsP (hd := fun d => by unfold State.loadFree; infer_instance) (by decide +kernel),
    atInsP (hd := fun d => by unfold State.loadFree; infer_instance) (by decide +kernel), atInsP (by decide +kernel)⟩

/-- A LOAD that waits for the transposing buffer, of a stream; and one that has been read. -/
def waitingLoad (st : Nat) : LoadJob :=
  { stream := st, dst := 0, len := 8192, chunks := [], transposed := true, reads := [(0x200000, 64)], fmt := 1, valid := 1, kj := 32, kChunk := 32 }
def readLoad (tb : Bool) : LoadJob := { stream := 1, dst := 256, len := 8192, chunks := [(0, [1#8, 2#8]), (64, [3#8])], transposed := tb }

theorem meets_LoadsLand :
    (∀ dead ∈ [0, 0xFFF], let s := { atWorkOn (three 2) 1 32 2 0 0 { tbuf := [waitingLoad 0, waitingLoad 1] } with stackFail := dead }
     let live := (s.core (coreKey 1 63)).tbuf.filter (fun l => s.goes (streamEngine 1 63 l.stream) 1)
     1 < 2 ∧ 63 < 64 ∧ (live.filter (fun l => l.stream == 1) ++ live.filter (fun l => l.stream == 0)).head? = some (waitingLoad 1) ∧
     ((s.readRuns (waitingLoad 1).reads []).2 = 0 ↔ dead = 0)) ∧
    (∀ tb ∈ [true, false], let s := up.setCore (coreKey 1 63) { loads := [readLoad tb] }
     (s.core (coreKey 1 63)).loads.find? (fun l => l.transposed == tb && (tb || l.stream == 1)) = some (readLoad tb) ∧
     (readLoad tb).chunks.Pairwise (fun p q => p.1 + p.2.length ≤ q.1 ∨ q.1 + q.2.length ≤ p.1)) := by decide +kernel

/-- An open tile of one element on stream B, in a register set or parked; one that has been fed. -/
def oneTile (gi : Nat) (set : Option Nat) (chain : List W64) : Tile :=
  { stream := 1, gi := gi, gj := 0, set := set, vals := [[0x3F800000#32]],
    ctx := { engine := streamEngine 1 63 1, chain := chain, cBase := 0x220000, ldc := 128, planeRows := 1, rows := 1, cols := 1 } }

/-- An attention or convolution packet of stream B with an item in hand, its holdings those of a body of zeros. -/
def wholeRun (kind : Nat) : Run := { kind := kind, body := bodyAt, cur := { items := 1, item := some 0 } }
def wholeHand (kind : Nat) : State := onCore [] [] (wholeRun kind) {}

theorem meets_TilesExchanged :
    (∃ d, AtIns (atWorkOn (three 0) 1 32 2 0 0 { tiles := [oneTile 1 (some 2) []] }) 1 63 1 (working 2 0 0) false d ∧ (d.x.op = 3 ∧
      d.it.names d.x = true ∧ setsOf 1 d.it.q.share = [2, 3] ∧
      (let s := atWorkOn (three 0) 1 32 2 0 0 { tiles := [oneTile 1 (some 2) []] }
       (s.core (coreKey 1 63)).oldestSet [2, 3] = 2 ∧ (s.core (coreKey 1 63)).drainQ = [] ∧
       (s.core (coreKey 1 63)).openTile 1 d.x.gi d.x.gj = none ∧ (s.core (coreKey 1 63)).openCount 1 < d.it.q.capacity ∧
       (s.initTile d.it d.x.gi d.x.gj).2 = 0))) ∧
    (∃ d, AtIns (atWorkOn (three 0) 1 32 2 0 0 { tiles := [oneTile 0 none []] }) 1 63 1 (working 2 0 0) false d ∧ (d.x.op = 3 ∧
      d.it.names d.x = true ∧
      (let s := atWorkOn (three 0) 1 32 2 0 0 { tiles := [oneTile 0 none []] }
       (s.core (coreKey 1 63)).drainQ = [] ∧ (s.core (coreKey 1 63)).openTile 1 d.x.gi d.x.gj = some (oneTile 0 none [])))) ∧
    (∀ kind ∈ [2, 3], InHand (wholeHand kind) (streamEngine 1 63 1) kind (wholeRun kind) ∧ (wholeRun kind).toFeed = true ∧
      (∀ y ∈ ((wholeHand kind).core (coreKey 1 63)).tiles, y.stream = 1 → y.set = none) ∧
      ((wholeHand kind).core (coreKey 1 63)).drainQ = []) := by
  refine ⟨atInsP (by decide +kernel), atInsP (by decide +kernel), ?_⟩
  intro kind hk
  simp only [List.mem_cons, List.not_mem_nil, or_false] at hk
  rcases hk with rfl | rfl <;> exact ⟨inHand_of (by decide +kernel), rfl, by decide +kernel, rfl⟩

/-- The feeder presents stream B, at full rate. -/
def feeding : Core := { chosen := some 1, ramp := { phase := 2, duty := 8 }, tiles := [oneTile 0 (some 3) []] }

theorem meets_TilesFed :
    (∀ k ∈ [(64, 0), (32, 0), (0, 0)], ∃ d, AtIns (atWorkOn (three 0) 1 k.1 2 k.2 0 feeding) 1 63 1 (working 2 k.2 0) false d ∧ (d.x.op = 3 ∧
      d.it.names d.x = true ∧ (let g := (atWorkOn (three 0) 1 k.1 2 k.2 0 feeding).core (coreKey 1 63)
      g.openTile 1 d.x.gi d.x.gj = some (oneTile 0 (some 3) []) ∧ (d.kj = 0 ∨ g.feeds 1 = true ∧
        d.operandsIn (working 2 k.2 0) g 1 = true) ∧ (d.kj = 0 ↔ k.1 = 0) ∧ (d.chunk + 1 = d.it.q.chunks ↔ k.1 ≠ 64)))) ∧
    (∃ d, AtIns (atWorkOn [ins 3 0 1 0 0 8192 0 0] 1 32 0 0 0 {}) 1 63 1 (working 0 0 0) false d ∧ (d.x.op = 3 ∧ d.it.names d.x = false)) ∧
    (∃ d, AtIns (atWorkOn (three 0) 1 32 2 0 0 { tiles := [oneTile 1 (some 2) [], oneTile 2 none []] }) 1 63 1 (working 2 0 0) false d ∧
      (d.x.op = 3 ∧ d.it.names d.x = true ∧
      (let g := (atWorkOn (three 0) 1 32 2 0 0 { tiles := [oneTile 1 (some 2) [], oneTile 2 none []] }).core (coreKey 1 63)
       g.openTile 1 d.x.gi d.x.gj = none ∧ d.it.q.capacity ≤ g.openCount 1))) := by
  refine ⟨?_, atInsP (by decide +kernel), atInsP (by decide +kernel)⟩
  intro k hk
  simp only [List.mem_cons, List.not_mem_nil, or_false] at hk
  rcases hk with rfl | rfl | rfl <;> exact atInsP (by decide +kernel)

/-- A fed tile at the head of the drain queue. -/
def draining (stalled : Bool) (chain : List W64) : State :=
  onCore [] [] { kind := 1 } { drainQ := [oneTile 0 (some 2) chain], stalled := stalled }

theorem drain_at (stalled : Bool) (chain : List W64) : DrainAt (draining stalled chain) 1 63 (oneTile 0 (some 2) chain) [] := by
  refine ⟨by decide, by decide, rfl, ?_⟩
  have h : ∀ st ∈ [true, false], (draining st chain).engineBlocked (streamEngine 1 63 1) = false := fun st _ => rfl
  exact h stalled (by cases stalled <;> decide)

theorem plain_of (s : State) (hb : s.badWords = []) (hr : s.reg rPwrRailOff = 0) (hf : s.stackFail = 0) (hh : s.heldRegions = []) :
    Sound s := ⟨hb, fun n => by simp [State.stackDead, hr, hf, bitOf], hh⟩

theorem meets_TilesDrain :
    (DrainAt (draining false []) 1 63 (oneTile 0 (some 2) []) [] ∧ ((draining false []).core (coreKey 1 63)).stalled = false) ∧
    (DrainAt (draining false [0x1000C#64]) 1 63 (oneTile 0 (some 2) [0x1000C#64]) [] ∧
      PlainWrite (oneTile 0 (some 2) [0x1000C#64]).ctx 0x1000C#64 ⟨.bf16, false, false⟩ (oneTile 0 (some 2) [0x1000C#64]).vals ∧
      Sound (draining false [0x1000C#64])) ∧
    (let s := grained (draining false [0x800031006#64]) { state := 2 }
     s.engineBlocked (streamEngine 1 63 1) = false ∧ (s.core (coreKey 1 63)).drainQ = [oneTile 0 (some 2) [0x800031006#64]] ∧
     (s.core (coreKey 1 63)).stalled = false ∧ chainGrains [0x800031006#64] = [0x80003] ∧ (s.grain 0x80003).stored' = true ∧
     (s.grain 0x80003).pending = false ∧ (s.core (coreKey 1 63)).lost = []) ∧
    (DrainAt (draining true []) 1 63 (oneTile 0 (some 2) []) [] ∧ ((draining true []).core (coreKey 1 63)).stalled = true) := by
  refine ⟨⟨drain_at _ _, by decide +kernel⟩, ⟨drain_at _ _, ?_, plain_of _ (by decide +kernel) (by decide +kernel) (by decide +kernel)
    (by decide +kernel)⟩, by decide +kernel, ⟨drain_at _ _, by decide +kernel⟩⟩
  exact ⟨rfl, by decide +kernel, by decide +kernel, by decide +kernel, by decide +kernel, by decide +kernel, by decide +kernel,
    by decide +kernel⟩

/-- A core in a phase of its ramp. -/
def ramping (phase duty : Nat) : State := up.setCore (coreKey 1 63) { ramp := { phase := phase, duty := duty } }

theorem meets_FeederRamps :
    (let s := atWorkOn (three 0) 1 32 2 0 0 { tiles := [oneTile 0 (some 3) []], ramp := { phase := 3, duty := 4 } }
     (s.core (coreKey 1 63)).fenced = false ∧ s.feedPick 1 63 = some 1 ∧ (s.rampOf 1 63).phase = 3) ∧
    (let s := atWorkOn (three 0) 1 32 2 0 0 { tiles := [oneTile 0 (some 3) []] }
     s.feedPick 1 63 = some 1 ∧ (s.rampOf 1 63).phase = 0 ∧ (s.rampOf 1 63).request = none) ∧
    (∀ p ∈ [(1, 7), (1, 8), (2, 8), (3, 2), (3, 1)], let s := ramping p.1 p.2
      (s.core (coreKey 1 63)).fenced = false ∧ (s.rampOf 1 63).phase = p.1 ∧ (s.rampOf 1 63).duty = p.2 ∧
      s.feedPick 1 63 = none ∧ (s.rampOf 1 63).upTo = (s.rampOf 1 63).stepAt ∧ 1 ≤ s.budget.held1) := by decide +kernel

/-- Cores of die 1 that hold ramp tokens, granted in cycle 100, and a request of core 63, which waited. -/
def tokens (n : Nat) : State :=
  { up with cores := (List.range n).map (fun c => (coreKey 1 c, { ramp := { phase := 1, token := true, grantAt := 100 } })) ++
              [(coreKey 1 63, { ramp := { request := some 5, waiting := true } })],
            tokenQ := [[], [(5, 63)]] }

theorem meets_RampTokensMove :
    1 < 2 ∧ (listGet [] (tokens 7).tokenQ 1 ≠ [] ∧ (tokens 7).rampHeld 1 < 8 ∧ ((tokens 7).rampOf 1 63).waiting = true) ∧
    8 ≤ (tokens 8).rampHeld 1 ∧
    (7 < 64 ∧ ((tokens 8).rampOf 1 7).token = true ∧
      ((tokens 8).rampOf 1 7).grantAt + ((tokens 8).rampOf 1 7).len ≤ 131 + 1) := by decide +kernel

/-! ## Witnesses: attention, convolution, transforms, transfers, KV regions -/

/-- An attention packet's header (R145) for one query head and one key head of 32 elements, its mask (R150), and a chain of no
steps. -/
def attention (mode count terms : Nat) : List Byte :=
  leBytes 1 mode ++ leBytes 1 0x11 ++ leBytes 1 0x11 ++ leBytes 1 1 ++ leBytes 2 1 ++ leBytes 2 1 ++ leBytes 4 count ++ leBytes 3 0 ++
    leBytes 1 1 ++ leBytes 8 0x100000 ++ leBytes 8 0 ++ leBytes 4 0x3F800000 ++ leBytes 4 0 ++ leBytes 4 1 ++ leBytes 2 0 ++ leBytes 2 1024 ++
    leBytes 1 0 ++ leBytes 1 2 ++ leBytes 1 1 ++ leBytes 13 0 ++
    leBytes 1 terms ++ leBytes 1 0 ++ leBytes 2 1 ++ leBytes 4 1 ++ List.replicate 184 0#8

/-- An entry of its list (R146). -/
def sequence (k recs qLen kvLen kvPos : Nat) : List Byte :=
  leBytes 8 0x200000 ++ leBytes 8 0x210000 ++ leBytes 8 k ++ leBytes 8 0x230000 ++ leBytes 8 recs ++ leBytes 4 qLen ++
    leBytes 4 kvLen ++ leBytes 4 0 ++ leBytes 4 kvPos ++ leBytes 8 0

def attending (mode count recs qLen : Nat) : State :=
  let s := planned (streamEngine 1 63 1) 2 (attention mode count 0) []
  { s with mem := cells 0x100000 (sequence 0x220000 recs qLen 1 0) ++ s.mem }

/-- A packet's list as it is read (R147), and the run that holds it. -/
abbrev listRead (u : State) (a : Att) (bs : List Byte) : Prop :=
  (a.count = 0 ∧ bs = []) ∨ (a.count ≠ 0 ∧ u.load a.list (64 * a.count) = .ok bs)
def listed (r : Run) (bs : List Byte) : Run := { r with cur := { r.cur with entry := bs } }
def lensOf (u : State) (a : Att) (p : Run) : List Nat := (List.range a.count).map (u.attLen p a)

theorem meets_AttentionStarts :
    (∀ back, let s := attending (b2n back) 1 (if back then 0x240000 else 0) 1
      let bs := sequence 0x220000 (if back then 0x240000 else 0) 1 1 0
      ∃ u r, Starts s (streamEngine 1 63 1) 2 u r ∧ (s.holdFree 1 63 1 2 = true ∧
        s.nextIs (streamEngine 1 63 1) 2 (fun b => s.attBack b == back) = true ∧ listRead u (u.attOf r) bs ∧ (u.attOf r).kv = false ∧
        (∀ x ∈ (listed r bs).attShapes (u.attOf r) (lensOf u (u.attOf r) (listed r bs)), x.2.1 * x.2.2 ≠ 0) ∧
        u.attStart (listed r bs) (u.attOf r) (lensOf u (u.attOf r) (listed r bs)) (u.coreFenced 1 63) = 0)) ∧
    (∃ u r, Starts (attending 0 0 0 1) (streamEngine 1 63 1) 2 u r ∧ ((attending 0 0 0 1).holdFree 1 63 1 2 = true ∧
      listRead u (u.attOf r) [] ∧ (∀ x ∈ (listed r []).attShapes (u.attOf r) (lensOf u (u.attOf r) (listed r [])), x.2.1 * x.2.2 ≠ 0) ∧
      u.attStart (listed r []) (u.attOf r) (lensOf u (u.attOf r) (listed r [])) (u.coreFenced 1 63) = 0xFF)) ∧
    (∃ u r, Starts (attending 0 1 0 1048577) (streamEngine 1 63 1) 2 u r ∧ (
      listRead u (u.attOf r) (sequence 0x220000 0 1048577 1 0) ∧
      (∀ x ∈ (listed r (sequence 0x220000 0 1048577 1 0)).attShapes (u.attOf r)
        (lensOf u (u.attOf r) (listed r (sequence 0x220000 0 1048577 1 0))), x.2.1 * x.2.2 ≠ 0) ∧
      u.attStart (listed r (sequence 0x220000 0 1048577 1 0)) (u.attOf r)
        (lensOf u (u.attOf r) (listed r (sequence 0x220000 0 1048577 1 0))) (u.coreFenced 1 63) = 1)) ∧
    (let s : State := { attending 0 1 0 1 with badWords := [0x100000] }
     ∃ u r, Starts s (streamEngine 1 63 1) 2 u r ∧ (s.holdFree 1 63 1 2 = true ∧
      s.nextIs (streamEngine 1 63 1) 2 (fun b => s.attBack b == false) = true ∧ (u.attOf r).count ≠ 0 ∧
      u.load (u.attOf r).list (64 * (u.attOf r).count) = .fault 6)) := by
  refine ⟨?_, startsP (by decide +kernel), startsP (by decide +kernel), startsP (by decide +kernel)⟩
  intro back
  cases back <;> exact startsP (by decide +kernel)

/-- An attention packet in hand with its list read, with no item yet or with item 0, which has been fed or not. -/
def attRun (item : Option Nat) (pc : Nat) (l : List Byte) (lens : List Nat) : Run :=
  { kind := 2, body := bodyAt, aux := lens, cur := { items := 1, item := item, pc := pc, claimsEnded := true, entry := l } }
def attHand (mode terms : Nat) (r : Run) (g : Core) : State :=
  let s := onCore (attention mode 1 terms) [] r g
  { s with kvTable := some 0x400000 }

/-- One entry of one query row. -/
def oneRow (k kvLen kvPos : Nat) : List Byte := sequence k 0x240000 1 kvLen kvPos

/-- A core that feeds stream B, with a register set for its next tile. -/
def readyCore : Core :=
  { chosen := some 1, ramp := { phase := 2, duty := 8 }, tiles := [{ stream := 1, gi := 0, gj := 0, ctx := {}, vals := [], set := some 2 }] }

theorem att_at {mode terms : Nat} {r : Run} {g : Core} {back : Bool} {i b h j : Nat}
    (hh : let s := attHand mode terms r g
      (s.run (streamEngine 1 63 1) = some r ∧ s.goes (streamEngine 1 63 1) 2 = true) ∧ (s.attOf r).back = back ∧
      attItem (r.attShapes (s.attOf r) r.aux) i = some (b, h, j)) :
    AttAt (attHand mode terms r g) 1 63 1 back r ((attHand mode terms r g).attOf r) i b h j :=
  ⟨by decide, inHand_of hh.1, rfl, hh.2.1, hh.2.2⟩

/-- Items: taken forward and backward, refused for keys outside memory; fed forward, backward, or stopped in the scan; drained,
with another of the entry to come, or the last. -/
theorem meets_AttentionItems :
    (∀ x ∈ [(false, 0x220000, 0), (true, 0x220000, 0), (false, 0x7FFFFFFFFFC0, 1)], let r := attRun none 0 (oneRow x.2.1 1 0) [1]
     let s := attHand (b2n x.1) 0 r {}
     AttAt s 1 63 1 x.1 r (s.attOf r) 0 0 0 0 ∧ r.cur.item = none ∧ r.nextItem (s.attOf r).claim = some 0 ∧ (s.attOf r).kv = false ∧
     (if x.1 then s.attBackOk r (s.attOf r) 0 0 0 else s.attOk (streamEngine 1 63 1) r (s.attOf r) 0 0 0) = x.2.2) ∧
    (let r := attRun (some 0) 0 (oneRow 0x220000 0 0) [0]
     let s := attHand 0 0 r readyCore
     AttAt s 1 63 1 false r (s.attOf r) 0 0 0 0 ∧ r.cur.item = some 0 ∧ r.cur.pc = 0 ∧
     (s.core (coreKey 1 63)).tiles.find? (fun t => t.stream == 1 && t.set.isSome) = readyCore.tiles.head? ∧
     (s.core (coreKey 1 63)).feeds 1 = true ∧ (s.attScan r (s.attOf r) 0 0 0).fault = 0 ∧
     ∀ y ∈ readyCore.tiles, (s.attForward (streamEngine 1 63 1) r (s.attOf r) 0 0 0 (s.attScan r (s.attOf r) 0 0 0) y).2 = 0 ∧
       ((s.attForward (streamEngine 1 63 1) r (s.attOf r) 0 0 0 (s.attScan r (s.attOf r) 0 0 0) y).1.run (streamEngine 1 63 1)).isSome = true) ∧
    (let r := attRun (some 0) 0 (oneRow 0x220000 1 9) [1]
     let s := attHand 1 1 r readyCore
     AttAt s 1 63 1 true r (s.attOf r) 0 0 0 0 ∧
     ∀ y ∈ readyCore.tiles, (s.attBackward (streamEngine 1 63 1) r (s.attOf r) 0 0 0 y).2.1 = 0 ∧
       ((s.attBackward (streamEngine 1 63 1) r (s.attOf r) 0 0 0 y).1.run (streamEngine 1 63 1)).isSome = true) ∧
    (let r := attRun (some 0) 0 (oneRow 0x220000 0 0) [0]
     AttAt (attHand 0 0 r readyCore) 1 63 1 false r ((attHand 0 0 r readyCore).attOf r) 0 0 0 0 ∧
     ({ attHand 0 0 r readyCore with badWords := [0x200000] }.attScan r ((attHand 0 0 r readyCore).attOf r) 0 0 0).fault ≠ 0) ∧
    (∀ q ∈ [1, 129], let r := attRun (some 0) 1 (sequence 0x220000 0x240000 q 1 0) [1]
     let s := attHand 0 0 r {}
     AttAt s 1 63 1 false r (s.attOf r) 0 0 0 0 ∧ r.cur.pc ≠ 0 ∧ (∀ y ∈ (s.core (coreKey 1 63)).drainQ, y.stream ≠ 1) ∧
     ((s.attEntry r (r.attKey (s.attOf r) (streamEngine 1 63 1) 0)).done + 1 < attOwn (r.attShapes (s.attOf r) r.aux) 0 ↔ q = 129) ∧
     inMem ((s.attOf r).status + 16 * 0) 16 = true) ∧
    Sound (attHand 0 0 (attRun (some 0) 1 (oneRow 0x220000 1 0) [1]) {}) := by
  refine ⟨?_, ⟨att_at (by decide +kernel), by decide +kernel⟩, ⟨att_at (by decide +kernel), by decide +kernel⟩,
    ⟨att_at (by decide +kernel), by decide +kernel⟩, ?_,
    plain_of _ (by decide +kernel) (by decide +kernel) (by decide +kernel) (by decide +kernel)⟩
  · intro x hx
    simp only [List.mem_cons, List.not_mem_nil, or_false] at hx
    rcases hx with rfl | rfl | rfl <;> exact ⟨att_at (by decide +kernel), by decide +kernel⟩
  · intro q hq
    simp only [List.mem_cons, List.not_mem_nil, or_false] at hq
    rcases hq with rfl | rfl <;> exact ⟨att_at (by decide +kernel), by decide +kernel⟩

/-- A geometry descriptor (R170): one frame, H and W of an extent with a kernel of a side. -/
def axis (i k : Nat) : List Byte := leBytes 4 i ++ leBytes 1 k ++ leBytes 1 1 ++ leBytes 1 1 ++ leBytes 5 0
def geometry (t i k : Nat) : List Byte :=
  axis t 1 ++ axis i k ++ axis i k ++ leBytes 8 0x200000 ++ leBytes 8 0x210000 ++ leBytes 8 0x220000 ++ leBytes 4 0

/-- A convolution (R169) of 32 channels to 32. -/
def convolution (op ndim batch t : Nat) : List Byte :=
  leBytes 1 0x11 ++ leBytes 1 (16 * op) ++ leBytes 1 0 ++ leBytes 1 ndim ++ leBytes 2 1 ++ leBytes 1 1 ++ leBytes 1 0 ++ leBytes 1 2 ++
    leBytes 2 0 ++ leBytes 1 0x11 ++ leBytes 4 batch ++ leBytes 4 32 ++ leBytes 4 32 ++ leBytes 2 0 ++ leBytes 2 1024 ++ leBytes 4 0 ++ leBytes 4 1 ++
    leBytes 28 0 ++ geometry t 1 1 ++ List.replicate 128 0#8

def convolving (op ndim batch t : Nat) : State := planned (streamEngine 1 63 1) 3 (convolution op ndim batch t) []
def convRun (item : Option Nat) : Run := { kind := 3, body := bodyAt, cur := { items := 1, item := item, claimsEnded := true } }
def convHand (op : Nat) (item : Option Nat) (bad : List Nat) (g : Core) : State :=
  { onCore (convolution op 3 1 1) [] (convRun item) g with badWords := bad }

/-- A convolution whose packet takes six shape words, the last not 0. -/
def shapedConv : State :=
  let body := convolution 0 3 1 1
  let pk := leBytes 4 7 ++ leBytes 4 0 ++ leBytes 2 3 ++ leBytes 2 0 ++ leBytes 4 body.length ++ leBytes 2 0 ++ List.replicate 14 0#8 ++
    leBytes 8 0x180000 ++ List.replicate 24 0#8 ++ body
  let s := bound (streamEngine 1 63 1) [windows, ⟨2, 0, 1, streamEngine 1 63 1, 0x800, pk⟩,
    ⟨6, 32, 1, 0, 0x2000, (List.range 6).flatMap (fun _ => leBytes 4 64) ++ leBytes 2 6 ++ List.replicate 6 0#8⟩]
  { s with mem := s.mem ++ cells 0x180000 ([1, 1, 1, 1, 0, 9].flatMap (leBytes 4)) }

/-- Convolutions of each direction that start: on a fenced core, with a spare shape word, with no images, with one. -/
theorem meets_ConvolutionItems :
    (∀ op ∈ [0, 1, 2], (∃ u r, Starts ((convolving op 3 1 1).setCore (coreKey 1 63) { fenced := true }) (streamEngine 1 63 1) 3 u r ∧
      (((convolving op 3 1 1).setCore (coreKey 1 63) { fenced := true }).holdFree 1 63 1 3 = true ∧
        ((convolving op 3 1 1).setCore (coreKey 1 63) { fenced := true }).nextIs (streamEngine 1 63 1) 3
          (fun b => (convolving op 3 1 1).convOp b == op) = true ∧ u.coreFenced 1 63 = true)) ∧
      (∀ batch ∈ [0, 1], ∃ u r, Starts (convolving op 2 batch 1) (streamEngine 1 63 1) 3 u r ∧
        ((convolving op 2 batch 1).holdFree 1 63 1 3 = true ∧
        (convolving op 2 batch 1).nextIs (streamEngine 1 63 1) 3 (fun b => (convolving op 2 batch 1).convOp b == op) = true ∧
        u.coreFenced 1 63 = false ∧ r.spareWords 4 = false ∧ (u.convOf r).geo.t.i ≤ 16777215 ∧ (u.convOf r).geo.h.i ≤ 16777215 ∧
        (u.convOf r).geo.w.i ≤ 16777215 ∧ (u.convOf r).items < 2 ^ 32 ∧ (u.convOf r).ndim = 2 ∧ (u.convOf r).geo.t.i = 1 ∧
        (u.convOf r).batch = batch ∧ (u.convOf r).geo.outPos ≠ 0))) ∧
    (∃ u r, Starts shapedConv (streamEngine 1 63 1) 3 u r ∧ (shapedConv.holdFree 1 63 1 3 = true ∧
      shapedConv.nextIs (streamEngine 1 63 1) 3 (fun b => shapedConv.convOp b == 0) = true ∧ u.coreFenced 1 63 = false ∧
      r.spareWords 4 = true)) := by
  refine ⟨?_, startsP (by decide +kernel)⟩
  intro op ho
  simp only [List.mem_cons, List.not_mem_nil, or_false] at ho
  have hb : ∀ n, n ∈ [0, 1] → n = 0 ∨ n = 1 := fun n hn => by simpa using hn
  rcases ho with rfl | rfl | rfl <;>
  · refine ⟨startsP (by decide +kernel), fun n hn => ?_⟩
    rcases hb n hn with rfl | rfl <;> exact startsP (by decide +kernel)

/-- Items of each direction that begin, or whose operands lie outside memory; tiles that are fed, or whose operands read with an
error. -/
theorem meets_ConvolutionItems_inHand :
    (∀ op ∈ [0, 1, 2], ∀ out ∈ [0, 1], let r := convRun none
      let s := { convHand op none [] {} with
        mem := cells bodyAt ((convolution op 3 1 1).take 100 ++
          [0x200000, 0x210000, 0x220000].flatMap (fun a => leBytes 8 (a + out * 0x7FFFF0000000)) ++ (convolution op 3 1 1).drop 124) }
      InHand s (streamEngine 1 63 1) 3 r ∧ s.convOp r.body = op ∧ r.nextItem (s.convOf r).claim = some 0 ∧
      ((s.convCheck (streamEngine 1 63 1) (r.atItem (s.convOf r) 0) (s.convOf r) 0).1 = 0 ↔ out = 0)) ∧
    (∀ op ∈ [0, 1, 2], ∀ bad ∈ [[], [0x200000, 0x210000, 0x220000]], let r := convRun (some 0)
      let s := convHand op (some 0) bad readyCore
      InHand s (streamEngine 1 63 1) 3 r ∧ s.convOp r.body = op ∧ r.cur.item = some 0 ∧
      (s.core (coreKey 1 63)).tiles.find? (fun t => t.stream == 1 && t.set.isSome) = readyCore.tiles.head? ∧
      (s.core (coreKey 1 63)).feeds 1 = true ∧ ((s.convOf r).tileAt 0 r.cur.pc).isSome = true ∧
      ∀ x, (s.convOf r).tileAt 0 r.cur.pc = some x →
        ((s.convParts (s.convOf r) x 0 ((s.convOf r).pieces x.mt) []).2.1 = 0 ↔ bad = [])) := by
  refine ⟨?_, ?_⟩
  · intro op ho out h
    simp only [List.mem_cons, List.not_mem_nil, or_false] at ho h
    rcases ho with rfl | rfl | rfl <;> rcases h with rfl | rfl <;> exact ⟨inHand_of (by decide +kernel), by decide +kernel⟩
  · intro op ho bad h
    simp only [List.mem_cons, List.not_mem_nil, or_false] at ho h
    rcases ho with rfl | rfl | rfl <;> rcases h with rfl | rfl <;>
      refine ⟨inHand_of (by decide +kernel), by decide +kernel, rfl, rfl, rfl, by decide +kernel, fun x hx => ?_⟩ <;>
      · rw [← Option.mem_def] at hx
        revert x
        decide +kernel

/-- A transform packet (R181) of 32 channels over an extent. -/
def transform (op variant batch : Nat) : List Byte :=
  leBytes 1 op ++ leBytes 1 variant ++ leBytes 1 1 ++ leBytes 1 1 ++ leBytes 4 0 ++ leBytes 4 batch ++ leBytes 4 32 ++ leBytes 4 32 ++ leBytes 4 0 ++
    leBytes 8 0x200000 ++ leBytes 8 0x210000 ++ leBytes 8 0 ++ leBytes 2 0 ++ leBytes 2 1 ++ leBytes 12 0 ++ geometry 1 4 3
def transforming (op variant batch : Nat) : State := planned (engineId 5 1 3) 6 (transform op variant batch) []

theorem stepsP {s : State} {e kind op : Nat} {P : State → Run → Prop} [hd : ∀ u r, Decidable (P u r)]
    (h : starts s e kind (fun u r => decide (s.nextIs e kind (fun b => s.ld 1 b == op) = true ∧ P u r)) = true) :
    ∃ u r, Steps s e kind op u r ∧ P u r := by
  obtain ⟨u, r, hs, h1, h2⟩ := startsP h
  exact ⟨u, r, ⟨.inl hs, fun _ => h1, fun h => by rw [hs.idle] at h; cases h⟩, h2⟩

/-- The same of a packet that has carried out a number of its rows. -/
theorem stepsOn {s : State} {e kind op n : Nat} {P : State → Run → Prop} [hd : ∀ u r, Decidable (P u r)]
    (h : (match (midway s e kind (fun r => { r with prog := n })).run e with
      | some r => (midway s e kind (fun r => { r with prog := n })).goes e kind &&
          decide ((midway s e kind (fun r => { r with prog := n })).ld 1 r.body = op ∧ P (midway s e kind (fun r => { r with prog := n })) r)
      | none => false) = true) :
    ∃ u r, Steps (midway s e kind (fun r => { r with prog := n })) e kind op u r ∧ P u r := by
  obtain ⟨r, hg, hr, hp⟩ := goes_of (p := fun u r => decide (u.ld 1 r.body = op ∧ P u r)) h
  have h2 := of_decide_eq_true hp
  exact ⟨_, r, ⟨hg, (fun hn => by rw [hr] at hn; cases hn), fun _ => h2.1⟩, h2.2⟩

theorem meets_WinogradTransforms :
    (∀ op ∈ [1, 2, 3], ∃ u r, Steps (transforming op 2 1) (engineId 5 1 3) 6 op u r ∧ ((u.wtuOf r).empty = false ∧
      r.prog < (partOf ((u.wtuOf r).total op) (u.wtuOf r).part (u.wtuOf r).parts).2)) ∧
    (∃ u r, Steps (midway (transforming 2 2 1) (engineId 5 1 3) 6 (fun r => { r with prog := 1 })) (engineId 5 1 3) 6 2 u r ∧
      ((u.wtuOf r).empty = false ∧ r.prog = 1 ∧ r.prog < (partOf ((u.wtuOf r).total 2) (u.wtuOf r).part (u.wtuOf r).parts).2)) ∧
    (∃ u r, Steps (midway (transforming 3 1 1) (engineId 5 1 3) 6 (fun r => { r with prog := 99 })) (engineId 5 1 3) 6 3 u r ∧
      ((u.wtuOf r).empty = false ∧ (partOf ((u.wtuOf r).total 3) (u.wtuOf r).part (u.wtuOf r).parts).2 ≤ r.prog)) ∧
    (∃ u r, Steps (transforming 3 1 0) (engineId 5 1 3) 6 3 u r ∧ (u.wtuOf r).empty = true) ∧
    ((2 = 1 ∨ 2 = 2) ∧ 3 < (if 2 = 2 then 4 else 2) ∧ ([3, -5, 7, 11, 2, 9] : List Int).length = 6 ∧ ([2, -3, 5] : List Int).length = 3) := by
  refine ⟨?_, stepsOn (by decide +kernel), stepsOn (by decide +kernel), stepsP (by decide +kernel), by decide⟩
  intro op ho
  simp only [List.mem_cons, List.not_mem_nil, or_false] at ho
  rcases ho with rfl | rfl | rfl <;> exact stepsP (by decide +kernel)

/-- A transfer (R183) of FP32 elements, one channel: 2 rows of 4 bytes, from 0x200000 to 0x210000. -/
def transfer (op srcRows : Nat) : List Byte :=
  leBytes 1 op ++ leBytes 1 0 ++ leBytes 1 0 ++ leBytes 1 0 ++ leBytes 1 1 ++ leBytes 1 1 ++ leBytes 1 1 ++ leBytes 1 0 ++ leBytes 4 1 ++
    leBytes 4 1 ++ leBytes 8 0x200000 ++ leBytes 8 0x210000 ++ leBytes 8 0x220000 ++ leBytes 4 2 ++ leBytes 4 4 ++ leBytes 4 8 ++ leBytes 4 4 ++
    leBytes 4 srcRows ++ leBytes 2 0 ++ leBytes 2 1 ++ geometry 1 2 2
def moving (op srcRows : Nat) : State := planned (engineId 4 1 3) 5 (transfer op srcRows) []

/-- Rows of a packet's part, and the first of them. -/
def rowsOf (m : Mov) : Nat := (partOf m.total m.part m.parts).2
def rowFrom (m : Mov) : Nat := (partOf m.total m.part m.parts).1

theorem moveP {s : State} {op : Nat} {P : State → Mov → Nat → Prop}
    (h : ∃ u r, Steps s (engineId 4 1 3) 5 op u r ∧ ((u.movOf r).op = op ∧ (u.movOf r).empty = false ∧ r.prog < rowsOf (u.movOf r) ∧
      P u (u.movOf r) (rowFrom (u.movOf r) + r.prog))) : ∃ u r m n k, MoveAt s 1 3 op u r m n k ∧ P u m k := by
  obtain ⟨u, r, hs, h1, h2, h3, h4⟩ := h
  exact ⟨u, r, u.movOf r, rowsOf (u.movOf r), _, ⟨hs, rfl, h1, h2, rfl, h3, rfl⟩, h4⟩

theorem meets_TransfersRun :
    (∀ op ∈ [1, 2, 3, 4, 5, 6, 7, 8, 9], ∃ u r m n k, MoveAt (moving op 2) 1 3 op u r m n k ∧ k = 0) ∧
    (∃ u r m n k, MoveAt (midway (moving 1 2) (engineId 4 1 3) 5 (fun r => { r with prog := 1 })) 1 3 1 u r m n k ∧ k = 1) := by
  refine ⟨?_, moveP (stepsOn (by decide +kernel))⟩
  intro op ho
  simp only [List.mem_cons, List.not_mem_nil, or_false] at ho
  rcases ho with rfl | rfl | rfl | rfl | rfl | rfl | rfl | rfl | rfl <;> exact moveP (stepsP (by decide +kernel))

theorem meets_RowsCopied :
    (∃ u r m n k, MoveAt (moving 1 2) 1 3 1 u r m n k ∧ Sound u ∧ 0 < m.run ∧ inMem (m.src + k * m.srcStride) m.run = true ∧
      inMem (m.dst + k * m.dstStride) m.run = true) ∧
    (∃ u r m n k, MoveAt { moving 2 0 with tel := { level := 1 } } 1 3 2 u r m n k ∧ (u.load (m.aux + 4 * k) 4 = .ok (leBytes 4 0) ∧
      m.srcRows ≤ leNat (leBytes 4 0) ∧ u.tel.level ≠ 0)) := by
  refine ⟨?_, moveP (stepsP (by decide +kernel))⟩
  obtain ⟨u, r, m, n, k, h, hp⟩ := moveP (s := moving 1 2) (op := 1) (P := fun u m k => (u.badWords = [] ∧ u.reg rPwrRailOff = 0 ∧
    u.stackFail = 0 ∧ u.heldRegions = []) ∧ 0 < m.run ∧ inMem (m.src + k * m.srcStride) m.run = true ∧
      inMem (m.dst + k * m.dstStride) m.run = true) (stepsP (by decide +kernel))
  exact ⟨u, r, m, n, k, h, plain_of u hp.1.1 hp.1.2.1 hp.1.2.2.1 hp.1.2.2.2, hp.2⟩

/-- An append (R160): its header and one entry, for region 5, of a number of tokens. -/
def append (count tokens : Nat) : List Byte :=
  leBytes 4 count ++ leBytes 4 1 ++ leBytes 8 0x300000 ++ leBytes 16 0 ++ leBytes 4 5 ++ leBytes 4 tokens ++ leBytes 4 7 ++ leBytes 4 64 ++
    leBytes 6 0x310000 ++ leBytes 6 0x320000 ++ leBytes 4 0
def appending (count : Nat) : State := planned (engineId 7 1 3) 8 (append count 1) []
def appendRun : Run := { kind := 8, body := bodyAt, bodyLen := 64, cur := { items := 1 } }

/-- The entry in hand, with the region table at 0x100000, whose region 5 has some valid slots. -/
def appendHand (use : KvUse) (valid : Nat) : State :=
  { up with mem := cells bodyAt (append 1 1) ++ cells 0x100140 ((region 0 4 1 1 1).take 56 ++ leBytes 4 320 ++ leBytes 4 valid) ++
              (List.range valid).flatMap (fun i => cells (0x200000 + 320 * i) (leBytes 8 i ++ leBytes 1 1)),
            engines := [(engineId 7 1 3, { run := some appendRun })], kvTable := some 0x100000, kv := [(5, use)] }

def theEntry : AppendEntry := { region := 5, count := 1, first := 7, stride := 64, k := 0x310000, v := 0x320000 }

theorem append_at (use : KvUse) (valid : Nat) (h : (appendHand use valid).goes (engineId 7 1 3) 8 = true ∧
    theEntry = (appendHand use valid).appendEntry bodyAt 0) : AppendAt (appendHand use valid) 1 3 appendRun theEntry := ⟨⟨rfl, h.1⟩, h.2⟩

def locked : KvUse := { present := true, lock := some (engineId 7 1 3) }

/-- A refused entry: more tokens than the region can hold behind its top. -/
def bigEntry : AppendEntry := { theEntry with count := 99 }
def bigHand : State :=
  { appendHand locked 0 with mem := cells bodyAt (append 1 99) ++ cells 0x100140 ((region 0 4 1 1 1).take 56 ++ leBytes 4 320) }

/-- The state in which an entry's tokens have been written, from the region with `n` valid slots. -/
def appended (n : Nat) : State × Nat :=
  let s := appendHand locked n
  let k := s.kvDesc 5
  let f := s.foldMasses (engineId 7 1 3) k
  let w := (indexed ((f.1.freeSlots k).take theEntry.count)).foldl (fun (a : State × Nat) ts =>
    if a.2 ≠ 0 then a else a.1.writeToken (engineId 7 1 3) k ((Fmt.ofCode (s.ld 1 (bodyAt + 4) % 16)).getD .fp32) theEntry ts.1 ts.2) (f.1, 0)
  w.1.kvUpdate (engineId 7 1 3) 5 k

theorem meets_KvAppends :
    (∃ u r, Starts (appending 0) (engineId 7 1 3) 8 u r ∧ r.dim 0 (u.ld 4 r.body) = 0) ∧
    (∃ u r, Starts (appending 2) (engineId 7 1 3) 8 u r ∧ (r.dim 0 (u.ld 4 r.body) ≠ 0 ∧ r.bodyLen < 32 + 32 * r.dim 0 (u.ld 4 r.body))) ∧
    (∃ u r, Starts (appending 1) (engineId 7 1 3) 8 u r ∧ (r.dim 0 (u.ld 4 r.body) ≠ 0 ∧ 32 + 32 * r.dim 0 (u.ld 4 r.body) ≤ r.bodyLen)) ∧
    (AppendAt (appendHand {} 0) 1 3 appendRun theEntry ∧ (appendHand {} 0).kvExists 5 = false ∧ Sound (appendHand {} 0) ∧
      inMem ((appendHand {} 0).ld 8 (bodyAt + 8) + 16 * 0) 16 = true) ∧
    (AppendAt bigHand 1 3 appendRun bigEntry ∧ (bigHand.kvExists 5 = true ∧ bigHand.badRange (bigHand.kvAt 5) 64 = false ∧
      (bigHand.kvUse 5).lock = some (engineId 7 1 3) ∧ appendBad (bigHand.kvDesc 5) (bigHand.kvUse 5).top bigEntry = true) ∧
      Sound bigHand ∧ inMem (bigHand.ld 8 (bodyAt + 8) + 16 * 0) 16 = true) ∧
    (∀ bad ∈ [[], [0x100140]], let s : State := { appendHand { present := true } 0 with badWords := bad }
      AppendAt s 1 3 appendRun theEntry ∧ s.kvExists 5 = true ∧ s.badRange (s.kvAt 5) 64 = decide (bad ≠ []) ∧
      (s.kvUse 5).lock ≠ some (engineId 7 1 3)) ∧
    (∀ n ∈ [4, 0], AppendAt (appendHand locked n) 1 3 appendRun theEntry ∧ (let s := appendHand locked n
      let k := s.kvDesc 5
      s.kvExists 5 = true ∧ s.badRange (s.kvAt 5) 64 = false ∧ (s.kvUse 5).lock = some (engineId 7 1 3) ∧
      appendBad k (s.kvUse 5).top theEntry = false ∧ appendRun.aux = [] ∧ ((s.freeSlots k).length < theEntry.count ↔ n = 4))) ∧
    (let s := appendHand locked 0
     let k := s.kvDesc 5
     let f := s.foldMasses (engineId 7 1 3) k
     f.2 = 0 ∧ ((indexed ((f.1.freeSlots k).take theEntry.count)).foldl (fun (a : State × Nat) ts =>
          if a.2 ≠ 0 then a else a.1.writeToken (engineId 7 1 3) k ((Fmt.ofCode (s.ld 1 (bodyAt + 4) % 16)).getD .fp32) theEntry ts.1
            ts.2) (f.1, 0)).2 = 0 ∧
     (appended 0).2 = 0 ∧ ((appended 0).1.kvUse 5).lock = some (engineId 7 1 3) ∧
     inMem ((appended 0).1.ld 8 (bodyAt + 8) + 16 * 0) 16 = true) ∧ Sound (appended 0).1 ∧
    ((up.setKv 5 { present := true, waiters := [engineId 7 1 3] }).kvUse 5).lock = none ∧
    ((up.setKv 5 { present := true, waiters := [engineId 7 1 3] }).kvUse 5).waiters = [engineId 7 1 3] := by
  refine ⟨startsP (by decide +kernel), startsP (by decide +kernel), startsP (by decide +kernel),
    ⟨append_at _ _ (by decide +kernel), by decide +kernel, plain_of _ (by decide +kernel) (by decide +kernel) (by decide +kernel)
      (by decide +kernel), by decide +kernel⟩,
    ⟨⟨⟨rfl, by decide +kernel⟩, by decide +kernel⟩, by decide +kernel, plain_of _ (by decide +kernel) (by decide +kernel)
      (by decide +kernel) (by decide +kernel), by decide +kernel⟩, ?_, ?_, by decide +kernel,
    plain_of _ (by decide +kernel) (by decide +kernel) (by decide +kernel) (by decide +kernel), by decide +kernel⟩
  · intro bad hb
    simp only [List.mem_cons, List.not_mem_nil, or_false] at hb
    rcases hb with rfl | rfl <;> exact ⟨⟨⟨rfl, by decide +kernel⟩, by decide +kernel⟩, by decide +kernel⟩
  · intro n hn
    simp only [List.mem_cons, List.not_mem_nil, or_false] at hn
    rcases hn with rfl | rfl <;> exact ⟨append_at _ _ (by decide +kernel), by decide +kernel⟩

theorem meets_KvEvicts :
    (AppendAt (appendHand { locked with evicting := true } 4) 1 3 appendRun theEntry ∧
      (let s := appendHand { locked with evicting := true } 4
       (s.kvUse 5).lock = some (engineId 7 1 3) ∧ (s.kvUse 5).evicting = true ∧ (s.kvUse 5).readers = [] ∧
       (s.foldMasses (engineId 7 1 3) (s.kvDesc 5)).2 = 0 ∧
       ((s.foldMasses (engineId 7 1 3) (s.kvDesc 5)).1.evictFor (engineId 7 1 3) (s.kvDesc 5) 7 1 (s.kvDesc 5).capacity 0).2.2 = 0)) ∧
    (1 ∈ (appendHand locked 4).victim ((appendHand locked 4).kvDesc 5) 7) :=
  ⟨⟨append_at _ _ (by decide +kernel), by decide +kernel⟩, by decide +kernel⟩

/-! ## Witnesses: vector programs -/

/-- An instruction word (R233). -/
def vword (op vd va vb vc m sub xs imm : Nat) : Nat :=
  op + vd * 2 ^ 8 + va * 2 ^ 14 + vb * 2 ^ 20 + vc * 2 ^ 26 + m * 2 ^ 32 + sub * 2 ^ 36 + xs * 2 ^ 40 + imm * 2 ^ 48

def vecRun : Run := { kind := 4, body := bodyAt }

/-- Engine 31 of die 1 with a program whose next instruction is a word; X2 and X3 hold addresses. -/
def vecAt (w x2 : Nat) : State :=
  { up with tel := { up.tel with level := 1 }, mem := cells bodyAt (leBytes 16 0 ++ leBytes 8 w), engines := [(engineId 3 1 31, { run := some vecRun })],
            vecs := [(engineId 3 1 31, { x := [(2, BitVec.ofNat 64 x2), (3, 0x300000#64)], m := [(1, 5#256)] })] }

theorem at_vec {w x2 op : Nat} (h : (vecAt w x2).vnext (engineId 3 1 31) op = some (vecRun, vinsOf w)) :
    AtVec (vecAt w x2) 1 31 op vecRun (vinsOf w) := ⟨by decide, by decide, h⟩

/-- Every row of one operand form finds its instruction next, masked and not. -/
theorem next_of (ops : List Nat) (h : ∀ op ∈ ops, ∀ m ∈ [0, 9], (vecAt (vword op 63 1 2 3 m 0 2 1) 0x200000).vnext (engineId 3 1 31) op =
    some (vecRun, vinsOf (vword op 63 1 2 3 m 0 2 1))) : ∀ op ∈ ops, ∀ m ∈ [0, 9],
    AtVec (vecAt (vword op 63 1 2 3 m 0 2 1) 0x200000) 1 31 op vecRun (vinsOf (vword op 63 1 2 3 m 0 2 1)) :=
  fun op ho m hm => at_vec (h op ho m hm)

theorem meets_LaneArithmetic : ∀ op ∈ [1, 2, 3, 4, 5, 6, 7], ∀ m ∈ [0, 9],
    AtVec (vecAt (vword op 63 1 2 3 m 0 2 1) 0x200000) 1 31 op vecRun (vinsOf (vword op 63 1 2 3 m 0 2 1)) := next_of _ (by decide +kernel)

theorem meets_LaneSelection : ∀ op ∈ [0x08, 0x09, 0x0A, 0x0B, 0x18], ∀ m ∈ [0, 9],
    AtVec (vecAt (vword op 63 1 2 3 m 0 2 1) 0x200000) 1 31 op vecRun (vinsOf (vword op 63 1 2 3 m 0 2 1)) := next_of _ (by decide +kernel)

theorem meets_VectorLoads :
    (∀ a ∈ [0x200000, 0x800000000000], AtVec (vecAt (vword 0x10 1 0 0 0 0 0 2 1) a) 1 31 0x10 vecRun (vinsOf (vword 0x10 1 0 0 0 0 0 2 1)) ∧
      (let s := vecAt (vword 0x10 1 0 0 0 0 0 2 1) a
       ((s.issued 1 31).vload (engineId 3 1 31) ((s.vec (engineId 3 1 31)).addr (vinsOf (vword 0x10 1 0 0 0 0 0 2 1))) 1024).2 = 0 ∧
       isScratch ((s.vec (engineId 3 1 31)).addr (vinsOf (vword 0x10 1 0 0 0 0 0 2 1))) = decide (a = 0x800000000000))) ∧
    (AtVec (vecAt (vword 0x10 1 0 0 0 0 0 2 1) 0x8000FFFFFFC0) 1 31 0x10 vecRun (vinsOf (vword 0x10 1 0 0 0 0 0 2 1)) ∧
      (let s := vecAt (vword 0x10 1 0 0 0 0 0 2 1) 0x8000FFFFFFC0
       ((s.issued 1 31).vload (engineId 3 1 31) ((s.vec (engineId 3 1 31)).addr (vinsOf (vword 0x10 1 0 0 0 0 0 2 1))) 1024).2 ≠ 0 ∧
       (s.tel.level ≠ 0 ∨ s.ringFree = 0))) ∧
    inMem ((vecAt (vword 0x10 1 0 0 0 0 0 2 1) 0x200000).vec (engineId 3 1 31) |>.addr (vinsOf (vword 0x10 1 0 0 0 0 0 2 1))) 1024 = true ∧
    (AtVec (vecAt (vword 0x12 1 0 0 0 0 9 2 0) 0x200000) 1 31 0x12 vecRun (vinsOf (vword 0x12 1 0 0 0 0 9 2 0)) ∧
      (let s := vecAt (vword 0x12 1 0 0 0 0 9 2 0) 0x200000
       let x := vinsOf (vword 0x12 1 0 0 0 0 9 2 0)
       Fmt.ofCode x.sub = some .mxfp4 ∧
       ((s.issued 1 31).vload (engineId 3 1 31) ((s.vec (engineId 3 1 31)).addr x) (Fmt.mxfp4.elemBytes 256)).2 = 0 ∧
       ((s.issued 1 31).vload (engineId 3 1 31) ((s.vec (engineId 3 1 31)).scaleAddr x .mxfp4) (Fmt.mxfp4.scalePlaneBytes 256)).2 = 0)) ∧
    (AtVec (vecAt (vword 0x22 15 2 0 0 0 0 0 1) 0x200000) 1 31 0x22 vecRun (vinsOf (vword 0x22 15 2 0 0 0 0 0 1)) ∧
      ((vecAt (vword 0x22 15 2 0 0 0 0 0 1) 0x200000).issued 1 31).vload (engineId 3 1 31) 0x200008 8 = (leBytes 8 0, 0) ∧
      (((((vecAt (vword 0x22 15 2 0 0 0 0 0 1) 0x200000).vec (engineId 3 1 31)).xreg 2 : Int) + 1 * 8) % ((2 ^ 64 : Nat) : Int)).toNat =
        0x200008) := by
  refine ⟨?_, ⟨at_vec (by decide +kernel), by decide +kernel⟩, by decide +kernel, ⟨at_vec (by decide +kernel), by decide +kernel⟩,
    ⟨at_vec (by decide +kernel), by decide +kernel⟩⟩
  intro a ha
  simp only [List.mem_cons, List.not_mem_nil, or_false] at ha
  rcases ha with rfl | rfl <;> exact ⟨at_vec (by decide +kernel), by decide +kernel⟩

/-- The same engine replaying. -/
def replaying (w : Nat) : State :=
  { vecAt w 0x200000 with engines := [(engineId 3 1 31, { run := some { vecRun with replayOf := some 3 } })] }

theorem meets_VectorStores :
    (∀ op ∈ [0x11, 0x13, 0x14], Sound (vecAt (vword op 1 0 (if op = 0x13 then 5 else 0) 0 0 0 2 0) 0x200000) ∧
      AtVec (vecAt (vword op 1 0 (if op = 0x13 then 5 else 0) 0 0 0 2 0) 0x200000) 1 31 op vecRun
        (vinsOf (vword op 1 0 (if op = 0x13 then 5 else 0) 0 0 0 2 0))) ∧
    (let x := vinsOf (vword 0x11 1 0 0 0 0 0 2 0)
     let s := vecAt (vword 0x11 1 0 0 0 0 0 2 0) 0x200000
     (s.vec (engineId 3 1 31)).addr x = 0x200000 ∧ isScratch 0x200000 = false ∧ x.masked = false ∧
     Cvt.ofByte x.cvt = some ⟨.fp32, false, false⟩ ∧ Fmt.fp32.scaled = false ∧ x.sub = 0 ∧
     inMem 0x200000 (Fmt.fp32.elemBits / 8 * 256) = true ∧ inMem 0x200000 1024 = true) ∧
    (let x := vinsOf (vword 0x13 1 0 5 0 0 0 2 0)
     let s := vecAt (vword 0x13 1 0 5 0 0 0 2 0) 0x200000
     let bs := encodeBlocks .mxE4m3 false ((s.vec (engineId 3 1 31)).tauOf x .mxE4m3) .first (fun _ => .rne)
       (((s.vec (engineId 3 1 31)).lanes x.vd).map ofF32)
     Cvt.ofByte x.cvt = some ⟨.mxE4m3, false, false⟩ ∧ bitOf x.sub 0 = false ∧
     (s.vec (engineId 3 1 31)).scaleAddr x .mxE4m3 = 0x300000 ∧ isScratch 0x300000 = false ∧ inMem 0x200000 bs.1.length = true ∧
     inMem 0x300000 bs.2.length = true ∧ 0x200000 + bs.1.length ≤ 0x300000) ∧
    (let s := replaying (vword 0x14 1 0 0 0 0 0 2 0)
     s.vnext (engineId 3 1 31) 0x14 = some ({ vecRun with replayOf := some 3 }, vinsOf (vword 0x14 1 0 0 0 0 0 2 0))) ∧
    (AtVec (vecAt (vword 0x11 1 0 0 0 0 0 2 0) 0x11FFFFFFF00) 1 31 0x11 vecRun (vinsOf (vword 0x11 1 0 0 0 0 0 2 0)) ∧
     (let s := vecAt (vword 0x11 1 0 0 0 0 0 2 0) 0x11FFFFFFF00
      (s.vec (engineId 3 1 31)).addr (vinsOf (vword 0x11 1 0 0 0 0 0 2 0)) = 0x11FFFFFFF00 ∧ isScratch 0x11FFFFFFF00 = false ∧
      inMem 0x11FFFFFFF00 (4 * 256) = false ∧ inSpace .ctl 0x11FFFFFFF00 (4 * 256) = false ∧ s.poolOk 0x11FFFFFFF00 (4 * 256) = false ∧
      s.badWords = [] ∧ s.reg rPwrRailOff = 0 ∧ s.stackFail = 0 ∧ s.heldRegions = [] ∧ s.tel.level ≠ 0)) := by
  refine ⟨?_, by decide +kernel, by decide +kernel, by decide +kernel, at_vec (by decide +kernel), by decide +kernel⟩
  intro op ho
  simp only [List.mem_cons, List.not_mem_nil, or_false] at ho
  rcases ho with rfl | rfl | rfl <;>
  exact ⟨plain_of _ (by decide +kernel) (by decide +kernel) (by decide +kernel) (by decide +kernel), at_vec (by decide +kernel)⟩

theorem meets_ProgramsRun :
    (∃ u r, Starts (planned (engineId 3 1 31) 4 (leBytes 4 1 ++ leBytes 4 0 ++ leBytes 8 9 ++ leBytes 8 0x29) []) (engineId 3 1 31) 4 u r ∧
      u.ld 8 (r.body + 8) = 9) ∧
    (∀ op ∈ [0x20, 0x21, 0x28, 0x29], AtVec (vecAt (vword op 4 2 3 0 0 0 2 1) 0x200000) 1 31 op vecRun (vinsOf (vword op 4 2 3 0 0 0 2 1))) ∧
    (((vecAt (vword 0x28 4 2 3 0 0 0 2 1) 0x200000).vec (engineId 3 1 31)).xreg (vinsOf (vword 0x28 4 2 3 0 0 0 2 1)).xs ≠ 0 ∧
      (vinsOf (vword 0x28 4 2 3 0 0 0 2 1)).imm.toNat ≠ 0) ∧
    (AtVec (vecAt (vword 0x28 0 0 0 0 0 0 0 1) 0) 1 31 0x28 vecRun (vinsOf (vword 0x28 0 0 0 0 0 0 0 1)) ∧
      ((vecAt (vword 0x28 0 0 0 0 0 0 0 1) 0).vec (engineId 3 1 31)).xreg (vinsOf (vword 0x28 0 0 0 0 0 0 0 1)).xs = 0 ∧ vecRun.loops = []) := by
  refine ⟨startsP (by decide +kernel), ?_, by decide +kernel, at_vec (by decide +kernel), by decide +kernel⟩
  intro op ho
  simp only [List.mem_cons, List.not_mem_nil, or_false] at ho
  rcases ho with rfl | rfl | rfl | rfl <;> exact at_vec (by decide +kernel)

theorem meets_MatricesFactored :
    (∀ op ∈ [0x30, 0x31], ∀ a ∈ [0x800000000000, 0x200000],
      AtVec (vecAt (vword op 4 0 0 0 0 0 2 2) a) 1 31 op vecRun (vinsOf (vword op 4 0 0 0 0 0 2 2)) ∧
      (let y := ((vecAt (vword op 4 0 0 0 0 0 2 2) a).vec (engineId 3 1 31)).xreg (vinsOf (vword op 4 0 0 0 0 0 2 2)).xs
       (vinsOf (vword op 4 0 0 0 0 0 2 2)).imm.toNat = 2 ∧
       (vecAt (vword op 4 0 0 0 0 0 2 2) a).tel.level ≠ 0 ∧
       if a = 0x200000 then isScratch y = false else isScratch y = true ∧ y - scratchBase + 1024 * (2 - 1) + 4 * 2 ≤ scratchBytes)) := by
  intro op ho a ha
  simp only [List.mem_cons, List.not_mem_nil, or_false] at ho ha
  rcases ho with rfl | rfl <;> rcases ha with rfl | rfl <;> exact ⟨at_vec (by decide +kernel), by decide +kernel⟩

/-! ## Witnesses: the Yo-yo, directives, the codec -/

/-- Die 1 with its descriptor table, one grain (number 3), and what else its Yo-yo holds. -/
def yoyoAt (x : Grain) (y : Yoyo) : State :=
  { up with tel := { up.tel with level := 1 }, yoyos := [{}, { y with table := some 0x9000000000, grains := [(0x80003, { x with rawBase := 0x200000, fillBytes := 128 })] }] }

theorem off_desc {s : State} (h : (s.yoyo (grainDie 0x80003)).table = some 0x9000000000) {a : Nat} (ha : a < 0x9000000000) : OffDesc s 0x80003 a := by
  intro tb ht
  rw [h] at ht
  cases ht
  left
  omega

def aTap (n : Nat) : Tap := { grain := 0x80003, offset := 0, bytes := List.replicate n 1#8 }

theorem meets_TapsJudged :
    (let s := yoyoAt { bound := true, state := 1 } { taps := [aTap 64] }
     (1 < 2 ∧ (s.yoyo 1).taps = [aTap 64] ∧ (aTap 64).replayOf = none ∧ 0 < (aTap 64).bytes.length ∧ (s.grain 0x80003).bound = true ∧
      (s.grain 0x80003).state = 1 ∧ (s.grain 0x80003).adoptFill = false ∧ (aTap 64).mask = false ∧
      (s.grain 0x80003).filled + 64 < (s.grain 0x80003).fillBytes) ∧ Sound s ∧
      (∀ k, k < 64 → OffDesc s 0x80003 ((s.grain 0x80003).rawBase + 0 + k))) ∧
    (let s := yoyoAt { bound := true, state := 0, uses := 2 } { taps := [aTap 64] }
     (s.grain 0x80003).bound = true ∧ (s.grain 0x80003).state = 0 ∧ (s.grain 0x80003).adoptFill = false ∧
     s.rawConflict 0x80003 = false ∧ (s.grain 0x80003).filled = 0 ∧ 64 < (s.grain 0x80003).fillBytes) ∧
    (let s := yoyoAt { bound := true, state := 1, filled := 64, policy := 1 } { taps := [aTap 64] }
     (s.grain 0x80003).bound = true ∧ (s.grain 0x80003).state = 1 ∧ (s.grain 0x80003).adoptFill = false ∧
     (s.grain 0x80003).filled + 64 = (s.grain 0x80003).fillBytes ∧ 1 ≤ (s.grain 0x80003).policy ∧ (s.grain 0x80003).policy ≤ 3 ∧
     s.restoreDue 0x80003 (s.grain 0x80003) = false) ∧
    ((yoyoAt {} { taps := [aTap 64] }).grain 0x80003).bound = false ∧
    ((yoyoAt { bound := true, state := 1, filled := 128 } { taps := [aTap 64] }).grain 0x80003).complete = true := by
  refine ⟨⟨by decide +kernel, plain_of _ (by decide +kernel) (by decide +kernel) (by decide +kernel) (by decide +kernel), ?_⟩,
    by decide +kernel, by decide +kernel, by decide +kernel, by decide +kernel⟩
  intro k hk
  have hr : ((yoyoAt { bound := true, state := 1 } { taps := [aTap 64] }).grain 0x80003).rawBase = 0x200000 := by decide +kernel
  rw [hr]
  exact off_desc (by decide +kernel) (by omega)

def anXfer (out host : Bool) : Xfer := { grain := 0x80003, outbound := out, host := host, total := 64, data := List.replicate 64 1#8 }

/-- The endpoint's link trained at a generation, 16 lanes, with the whole share for the host pool, of which one extent is
registered. -/
def endpointLinked (s : State) (gen : Nat) : State :=
  { s with host := { s.host with extents := [{ offset := 0, host := 0x400000, bytes := 0x200000 }] } }.setReg rPcieStatus (gen + 8 * 16) |>.setReg
    (rPciePoolShare + 0x8000) 64

def storing (n dest : Nat) : State :=
  yoyoAt { bound := true, state := 1, filled := 128, dest := dest } { storeQ := [0x80003], xfers := List.replicate n { grain := 0x80005, outbound := true } }

theorem meets_StoresGo :
    (1 < 2 ∧ grainDie 0x80003 = 1 ∧ (∀ n ∈ [31, 32], let s := storing n 2
      (s.grain 0x80003).dest ≠ 5 ∧ (s.yoyo 1).storeQ.find? (fun g => !s.replayHolds g) = some 0x80003 ∧ (s.grain 0x80003).complete = true ∧
      (s.yoyo 1).xfers.length = n)) ∧
    (let s := storing 32 5
     (s.yoyo 1).storeQ.find? (fun g => !s.replayHolds g) = some 0x80003 ∧ (s.grain 0x80003).complete = true ∧ (s.grain 0x80003).dest = 5 ∧
     s.tel.level ≠ 0) ∧
    (∀ f ∈ [{ anXfer true false with ready := true }, { anXfer true true with got := 64 }],
      let s := yoyoAt { bound := true, state := 7, dest := 3 } { xfers := [f] }
      s.xferOf 0x80003 = some f ∧ (s.grain 0x80003).outbound = true ∧ 2 ≤ (s.grain 0x80003).dest ∧ (s.grain 0x80003).dest ≤ 4 ∧
      f.outbound = true ∧ f.codec = false ∧ (f.ready = true ∨ f.host = true ∧ f.got = f.total)) ∧
    (∀ out ∈ [true, false], let s := endpointLinked (yoyoAt { bound := true, state := 7, dest := 3, storeAddr := poolBase } { xfers := [anXfer out true] }) 7
      s.poolNext 1 = some (anXfer out true, 0, 64) ∧ s.xferOf 0x80003 = some (anXfer out true) ∧ s.poolNext (1 - 1) = none ∧
      s.field rPcieStatus 2 0 ≠ 0 ∧ bitOf (s.reg rPcieStatus) 9 = false ∧ s.host.poolLog = [] ∧ 64 ≤ s.poolLimit ∧
      (∀ k, k < 64 → s.poolHost ((s.grain 0x80003).storeAddr + 0 + k - poolBase) = some (0x400000 + k)) ∧
      (((anXfer out true).data.drop 0).take 64).length = 64) ∧
    (endpointLinked up 0).field rPcieStatus 2 0 = 0 :=
  ⟨by decide +kernel, by decide +kernel, by decide +kernel, by decide +kernel, by decide +kernel⟩

/-- A lossless profile for BF16 (R217). -/
def lossless : Profile :=
  { kind := 1, src := .bf16, ovfNan := false, g := 0, stride := 0, period := 0, bytes := leBytes 1 0x11 ++ List.replicate 15 0#8 }

/-- Engine 0 is in the die's codec mask, whose profile 0 is that one. -/
def masked (x : Grain) (f : Xfer) : State :=
  (yoyoAt { x with bound := true, state := 7, stored := 151 } { xfers := [{ f with codec := true }] }).setReg (rYoyoCodecMask 1 + 0x8000) 1 |>.setReg
    (rYoyoProfileW0 1 0 + 0x8000) 0x11

/-- The stored form of 128 zeros. -/
def zerosForm : List Byte := (codecEncode lossless 0x80003 (List.replicate 128 0#8)).form

theorem meets_CodecEngines :
    (∀ x ∈ [({ dest := 3 }, anXfer true true), ({ dest := 1 }, { anXfer false true with data := zerosForm, got := 64 }),
        ({ dest := 1 }, { anXfer false true with got := 64 }), ({ dest := 1 }, { anXfer false true with got := 63 })],
      let s := masked x.1 x.2
      let f := { x.2 with codec := true }
      s.idleCodec 1 = some 0 ∧ (s.yoyo 1).xfers = [f] ∧ f.codec = true ∧ f.engine = none ∧ f.failed = false ∧ f.grain = 0x80003) ∧
    Sound (masked { dest := 3 } (anXfer true true)) ∧
    profileOf ((masked { dest := 3 } (anXfer true true)).profileBytes 1
      (((masked { dest := 3 } (anXfer true true)).grain 0x80003).profile % 16)) = some lossless ∧
    zerosForm.length = 151 ∧
    codecDecode (some (128, 151, 0x80003)) zerosForm = some (List.replicate 128 0#8) ∧
    codecDecode (some (128, 151, 0x80003)) (List.replicate 64 1#8) = none := by
  refine ⟨by decide +kernel, plain_of _ (by decide +kernel) (by decide +kernel) (by decide +kernel) (by decide +kernel), by decide +kernel,
    by decide +kernel, by decide +kernel, by decide +kernel⟩

/-- The same with a plan bound, whose first step is the one in force. -/
def boundYoyo (x : Grain) (y : Yoyo) : State := { yoyoAt x y with binding := { active := some theBind }, tick := { taken := true } }

/-- A second grain whose raw region is occupied overlaps the first's. -/
def other : Nat × Grain := (0x80004, { bound := true, state := 1, rawBase := 0x200000, fillBytes := 128 })
def crowded (x : Grain) (y : Yoyo) : State := (yoyoAt x y).modYoyo 1 (fun (v : Yoyo) => { v with grains := v.grains ++ [other] })

theorem meets_RestoresBegin :
    (∀ st ∈ [2, 7], let s := boundYoyo { bound := true, state := st, dest := 2 } {}
      s.binding.active.isSome = true ∧ s.dueList 1 = [(0, 0x80003)] ∧
      (st = 2 → (s.grain 0x80003).stored' = true) ∧ (st = 7 → (s.grain 0x80003).outbound = true)) ∧
    (∀ st ∈ [5, 2], let s := yoyoAt { bound := true, state := st } { restoreQ := [0x80003] }
      ((s.yoyo 1).demandQ ++ (s.yoyo 1).restoreQ).filter (fun g => (s.grain g).stored') = 0x80003 :: [] ∧
      (∀ k ∈ 0x80003 :: [], s.rawConflict k = false) ∧ (s.yoyo 1).xfers.length < 32 ∧ (s.grain 0x80003).state = st) ∧
    (let s := crowded { bound := true, state := 2 } { demandQ := [0x80003] }
     ((s.yoyo 1).demandQ ++ (s.yoyo 1).restoreQ).filter (fun g => (s.grain g).stored') = [0x80003] ∧ s.rawConflict 0x80003 = true ∧
     (s.grain 0x80003).pending = false) := by decide +kernel

theorem meets_RestoresEnd :
    (∀ due ∈ [true, false], let f := { anXfer false true with ready := true }
      let s := yoyoAt { bound := true, state := 7, dest := 1, releaseDue := due } { xfers := [f] }
      s.xferOf 0x80003 = some f ∧ (s.grain 0x80003).state = 7 ∧ f.outbound = false ∧ f.ready = true ∧ f.failed = false ∧
      (s.grain 0x80003).releaseDue = due ∧ s.replayHolds 0x80003 = false) ∧
    (let f := { anXfer false true with failed := true }
     let s := yoyoAt { bound := true, state := 7, dest := 1 } { xfers := [f] }
     s.xferOf 0x80003 = some f ∧ (s.grain 0x80003).state = 7 ∧ f.outbound = false ∧ f.failed = true) ∧
    (let s := boundYoyo { bound := true, state := 1, filled := 128 } {}
     (s.grain 0x80003).bound = true ∧ (s.grain 0x80003).uses = 0 ∧ (s.grain 0x80003).hold = false ∧ s.binding.active.isSome = true ∧
     s.dueTick (s.grain 0x80003) (s.grain 0x80003).dueStep ≤ s.now ∧ (s.grain 0x80003).releasedFor ≤ (s.grain 0x80003).dueStep ∧ (s.grain 0x80003).complete = true ∧
     s.replayHolds 0x80003 = false) := by decide +kernel

def aReplay : Replay := { grain := 0x80003, depth := 1 }
def replayState (r : Replay) (x : Grain) : State :=
  (yoyoAt { x with bound := true } { replays := [r] }).setReg (rYoyoReplayCores 1 + 0x8000) (2 ^ 63)

theorem meets_ReplaysRun :
    (let s := replayState aReplay { state := 6 }
     1 < 2 ∧ 63 < 64 ∧ s.replayOn 1 63 = none ∧ (s.yoyo 1).replays.find? (fun r => r.core.isNone) = some aReplay ∧
     bitOf (s.act (rYoyoReplayCores 1)) 63 = true ∧ s.run (streamEngine 1 63 1) = none ∧
     s.engineBlocked (streamEngine 1 63 1) = false ∧ (∀ i ∈ (s.stringOf aReplay).inputs, i = 0xFFFFFFFF)) ∧
    (∀ st ∈ [1, 0], let r := { aReplay with core := some 63, held := [0x80004] }
     let s := (replayState r { state := 6 }).modYoyo 1 (fun y => { y with grains := y.grains ++ [(0x80004, { bound := true, state := st })] })
     s.replayOn 1 63 = some r ∧ (∀ q ∈ (s.yoyo 1).replays, q.core.isSome = true) ∧ r.failed = false ∧ r.begun = false ∧
     (st = 1 → ∀ i ∈ r.held, (s.grain i).complete = true) ∧ (st = 0 → ∃ i ∈ r.held, (s.grain i).lost = true)) ∧
    (∀ failed ∈ [false, true], let r := { aReplay with core := some 63, begun := true, failed := failed }
     let s := replayState r { state := 6, filled := 128 }
     s.replayOn 1 63 = some r ∧ r.held = [] ∧ (s.grain 0x80003).state = 6 ∧ r.failed = failed ∧ r.begun = true ∧
     (s.stringOf r).segs.length ≤ r.seg ∧ (∀ y ∈ (s.yoyo 0).taps ++ (s.yoyo 1).taps, y.replayOf ≠ some r.grain) ∧
     (s.grain 0x80003).filled = (s.grain 0x80003).fillBytes ∧ (s.grain 0x80003).releaseDue = false) := by decide +kernel

/-- A directive packet in hand (R208) whose next entry is an op with an argument on grain 3 of die 1. -/
def dirRun : Run := { kind := 9, body := bodyAt }
def directing (op a : Nat) (x : Grain) : State :=
  { yoyoAt x {} with mem := cells bodyAt (leBytes 16 1 ++ leBytes 1 op ++ leBytes 1 a ++ leBytes 2 0 ++ leBytes 4 0x80003),
                     engines := [(engineId 8 1 0, { run := some dirRun })] }

theorem directive_at (op a : Nat) (x : Grain) (h : (directing op a x).goes (engineId 8 1 0) 9 = true ∧
    dirRun.dim 0 ((directing op a x).ld 4 bodyAt) ≠ 0 ∧ (directing op a x).directiveAt bodyAt 0 = (op, a, 0x80003)) :
    DirectiveAt (directing op a x) 1 op dirRun 0x80003 a := ⟨by decide, ⟨rfl, h.1⟩, h.2.1, h.2.2⟩

theorem meets_DirectivesApply :
    (∀ d ∈ [(1, 0, { bound := true, state := 0, adoptFill := true }), (2, 0, { bound := true, state := 2 }),
        (3, 0, { bound := true, state := 1, filled := 128 }), (4, 1, { bound := true, state := 1, filled := 128, policy := 1 }),
        (4, 4, { bound := true, state := 1, filled := 128, replay := 0 }), (5, 0, { bound := true }), (6, 0, { bound := true, usesLeft := 1 }),
        (3, 0, { bound := true, state := 1, filled := 127 }), (3, 0, { bound := true, state := 7, dest := 2 }),
        (1, 0, {}), (2, 0, {}), (3, 0, {}), (4, 1, {}), (5, 0, {}), (6, 0, { usesLeft := 1 })],
      DirectiveAt (directing d.1 d.2.1 d.2.2) 1 d.1 dirRun 0x80003 d.2.1) ∧
    (let s := directing 1 0 { bound := true, state := 0, adoptFill := true }
     (s.grain 0x80003).adoptFill = true ∧ s.rawConflict 0x80003 = false ∧ (s.grain 0x80003).policy ≠ 4) ∧
    ((directing 2 0 { bound := true, state := 2 }).grain 0x80003).stored' = true ∧
    (let s := directing 3 0 { bound := true, state := 1, filled := 128 }
     (s.grain 0x80003).complete = true ∧ s.replayHolds 0x80003 = false) ∧
    (let s := directing 4 1 { bound := true, state := 1, filled := 128, policy := 1 }
     (s.grain 0x80003).complete = true ∧ (s.grain 0x80003).usesLeft = 0 ∧ s.replayHolds 0x80003 = false ∧ (s.grain 0x80003).canTake 1 = true ∧ s.tel.level ≠ 0) ∧
    ((directing 4 4 { bound := true, state := 1, filled := 128, replay := 0 }).grain 0x80003).canTake 4 = true ∧
    ((directing 6 0 { bound := true, usesLeft := 1 }).grain 0x80003).usesLeft ≠ 0 ∧ ((directing 6 0 {}).grain 0x80003).bound = false ∧
    ((directing 3 0 { bound := true, state := 1, filled := 127 }).grain 0x80003).complete = false ∧
    ((directing 3 0 { bound := true, state := 7, dest := 2 }).grain 0x80003).outbound = true := by
  refine ⟨?_, by decide +kernel, by decide +kernel, by decide +kernel, by decide +kernel, by decide +kernel, by decide +kernel,
    by decide +kernel⟩
  intro d hd
  simp only [List.mem_cons, List.not_mem_nil, or_false] at hd
  rcases hd with rfl | rfl | rfl | rfl | rfl | rfl | rfl | rfl | rfl | rfl | rfl | rfl | rfl | rfl | rfl <;> exact directive_at _ _ _ (by decide +kernel)

/-- A codec job (R229): from 0x200000 to 0x210000, its status at 0x220000. -/
def codecJob (op profile limit : Nat) : List Byte :=
  leBytes 8 op ++ leBytes 16 profile ++ leBytes 8 0x200000 ++ leBytes 8 0x210000 ++ leBytes 4 128 ++ leBytes 4 limit ++ leBytes 8 0x220000 ++
    leBytes 8 0
def coding (op profile limit : Nat) (src : List Byte) : State :=
  let s := planned (engineId 6 1 0) 7 (codecJob op profile limit) []
  { s with tel := { s.tel with level := 1 }, mem := s.mem ++ cells 0x200000 src }

/-- A form whose last payload byte is spoiled: its header stands, the decoder rejects it. -/
def spoiled : List Byte := (codecEncode lossless 0xFFFFF (List.replicate 128 0#8)).form.take 150 ++ [0x55#8]

theorem in_one {a n : Nat} (h : a + n ≤ stackEnd) : InOne a n := by
  intro o k hk ho
  unfold stackEnd at h
  have h1 : a + o < 0x012000000000 := by omega
  have h2 : a + o + k - 1 < 0x012000000000 := by omega
  simp [inMem, inSpace, spaceOf, stackEnd, h1, h2]

theorem meets_CodecJobs :
    (∃ u r, Starts (coding 1 0x11 4096 []) (engineId 6 1 0) 7 u r ∧ ∃ raw out, u.load (u.cjobOf r.body).src (u.cjobOf r.body).raw = .ok raw ∧
      profileOf (u.cjobOf r.body).profile = some lossless ∧ out = codecEncode lossless 0xFFFFF raw ∧ out.form.length ≤ (u.cjobOf r.body).limit ∧
      Sound u ∧ InOne (u.cjobOf r.body).src out.raw.length ∧ InOne (u.cjobOf r.body).dst out.form.length ∧ InOne (u.cjobOf r.body).status 16 ∧
      Apart (u.cjobOf r.body).src out.raw.length (u.cjobOf r.body).dst out.form.length ∧
      Apart (u.cjobOf r.body).src out.raw.length (u.cjobOf r.body).status 16 ∧
      Apart (u.cjobOf r.body).dst out.form.length (u.cjobOf r.body).status 16) ∧
    (∃ u r, Starts (coding 1 0x11 64 []) (engineId 6 1 0) 7 u r ∧ ((coding 1 0x11 64 []).nextIs (engineId 6 1 0) 7
        (fun b => (coding 1 0x11 64 []).ld 1 b == 1) = true ∧ profileOf (u.cjobOf r.body).profile = some lossless ∧
      u.load (u.cjobOf r.body).src (u.cjobOf r.body).raw = .ok (List.replicate 128 0#8) ∧
      (u.cjobOf r.body).limit < (codecEncode lossless 0xFFFFF (List.replicate 128 0#8)).form.length)) ∧
    (∃ u r, Starts (coding 1 0 64 []) (engineId 6 1 0) 7 u r ∧ profileOf (u.cjobOf r.body).profile = none) ∧
    (∃ u r, Starts (coding 2 0 4096 (codecEncode lossless 0xFFFFF (List.replicate 128 0#8)).form) (engineId 6 1 0) 7 u r ∧
      ((coding 2 0 4096 (codecEncode lossless 0xFFFFF (List.replicate 128 0#8)).form).nextIs (engineId 6 1 0) 7
        (fun b => (coding 2 0 4096 []).ld 1 b == 2) = true ∧
      u.load (u.cjobOf r.body).src 64 = .ok ((codecEncode lossless 0xFFFFF (List.replicate 128 0#8)).form.take 64) ∧
      fieldAt ((codecEncode lossless 0xFFFFF (List.replicate 128 0#8)).form.take 64) 0x1C 4 = 151 ∧
      u.load (u.cjobOf r.body).src 151 = .ok (codecEncode lossless 0xFFFFF (List.replicate 128 0#8)).form ∧
      fieldAt ((codecEncode lossless 0xFFFFF (List.replicate 128 0#8)).form.take 64) 0x18 4 ≤ (u.cjobOf r.body).limit ∧
      formHead ((codecEncode lossless 0xFFFFF (List.replicate 128 0#8)).form.take 64) = true ∧
      codecDecode none (codecEncode lossless 0xFFFFF (List.replicate 128 0#8)).form = some (List.replicate 128 0#8))) ∧
    (∃ u r, Starts (coding 2 0 4096 spoiled) (engineId 6 1 0) 7 u r ∧
      ((coding 2 0 4096 spoiled).nextIs (engineId 6 1 0) 7 (fun b => (coding 2 0 4096 []).ld 1 b == 2) = true ∧
      u.load (u.cjobOf r.body).src 64 = .ok (spoiled.take 64) ∧ fieldAt (spoiled.take 64) 0x1C 4 = 151 ∧
      u.load (u.cjobOf r.body).src 151 = .ok spoiled ∧ fieldAt (spoiled.take 64) 0x18 4 ≤ (u.cjobOf r.body).limit ∧
      formHead (spoiled.take 64) = true ∧ codecDecode none spoiled = none ∧ u.tel.level ≠ 0)) ∧
    (∃ u r, Starts (coding 2 0 4096 []) (engineId 6 1 0) 7 u r ∧ (u.load (u.cjobOf r.body).src 64 = .ok (List.replicate 64 0#8) ∧
      formHead (List.replicate 64 0#8) = false)) ∧
    (∃ u r, Starts (coding 2 0 127 spoiled) (engineId 6 1 0) 7 u r ∧ (u.load (u.cjobOf r.body).src 64 = .ok (spoiled.take 64) ∧
      (u.cjobOf r.body).limit < fieldAt (spoiled.take 64) 0x18 4)) := by
  refine ⟨?_, startsP (by decide +kernel), startsP (by decide +kernel), startsP (by decide +kernel), startsP (by decide +kernel),
    startsP (by decide +kernel), startsP (by decide +kernel)⟩
  obtain ⟨u, r, h, h1, h2, h3, h4, h5, h6, h7, h8, h9⟩ := startsP (s := coding 1 0x11 4096 []) (e := engineId 6 1 0) (kind := 7)
    (P := fun u r => u.load (u.cjobOf r.body).src (u.cjobOf r.body).raw = .ok (List.replicate 128 0#8) ∧
      profileOf (u.cjobOf r.body).profile = some lossless ∧
      (codecEncode lossless 0xFFFFF (List.replicate 128 0#8)).form.length ≤ (u.cjobOf r.body).limit ∧ (u.badWords = [] ∧
      u.reg rPwrRailOff = 0 ∧ u.stackFail = 0 ∧ u.heldRegions = []) ∧ (u.cjobOf r.body).src = 0x200000 ∧ (u.cjobOf r.body).dst = 0x210000 ∧
      (u.cjobOf r.body).status = 0x220000 ∧ (codecEncode lossless 0xFFFFF (List.replicate 128 0#8)).raw.length = 128 ∧
      (codecEncode lossless 0xFFFFF (List.replicate 128 0#8)).form.length = 151) (by decide +kernel)
  have e1 : 0x200000 + 128 ≤ stackEnd := by decide
  have e2 : 0x210000 + 151 ≤ stackEnd := by decide
  have e3 : 0x220000 + 16 ≤ stackEnd := by decide
  refine ⟨u, r, h, List.replicate 128 0#8, _, h1, h2, rfl, h3, plain_of u h4.1 h4.2.1 h4.2.2.1 h4.2.2.2, ?_⟩
  rw [h5, h6, h7, h8, h9]
  exact ⟨in_one e1, in_one e2, in_one e3, .inl (by decide), .inl (by decide), .inl (by decide)⟩

/-! ## Witnesses: what no command changes -/

theorem meets_OnlyOvervoltageFaults : (100 : Int) < 101 ∧ (-101 : Int) < -100 := by decide

theorem meets_DataPathConfined :
    (∃ t, exec (.fma 1 31) up = .next t) ∧ Instr.ofDataPath (.fma 1 31) = true ∧ Instr.storesNothing (.fma 1 31) = true :=
  ⟨⟨_, rfl⟩, rfl, rfl⟩

theorem meets_BudgetKept : Budget.ok up.budget ∧ ∃ t, step { up with pending := [.inputSag] } = .next t :=
  ⟨by unfold Budget.ok; decide +kernel, _, rfl⟩

theorem meets_OneTimeMemory :
    let s : State := { up with nvm := { up.nvm with sealFuse := true } }
    (∃ t, exec .sealBreak s = .next t) ∧ (∀ waited dead, Instr.sealBreak ≠ .lockGrant waited dead) ∧ s.nvm.sealFuse = true :=
  ⟨⟨_, rfl⟩, (fun _ _ h => nomatch h), rfl⟩

theorem meets_Bar0BadAccess : ∃ t, exec (.bar0BadAccess ⟨false, false⟩ 3) up = .next t := ⟨_, rfl⟩

/-! ## Values worked out from the spec's examples, and from the public standards it names -/

/-- The reflect-padding example of spec/09: with I = 3, coordinates −1 to −5 resolve to 1, 2, 1, 0, 1. -/
theorem test_reflect_pad :
    [-1, -2, -3, -4, -5].map (fun p => resolve p 3 2) = [some 1, some 2, some 1, some 0, some 1] := by decide

/-- The re-blocked block of spec/07: scale 0x7A; 15 saturates to 448, 14 is 448, 0.28125 is 9, 1.875 × 2^−13 is 4 × 2^−9. -/
theorem test_reblocked_block :
    encodeBlock .mxE4m3 false 0 .first (fun _ => .rne)
      ([.fin false 15 0, .fin false 14 0, .fin false 9 (-5), .fin false 15 (-16)] ++ List.replicate 28 Fp.zero) =
      (0x7A, [0x7E, 0x7E, 0x51, 0x04] ++ List.replicate 28 0) := by decide +kernel

/-- The table of retired rows of spec/04. -/
theorem test_spare_shift :
    spareShift [5, 9] = 2 ∧ spareShift [5, 128] = 2 ∧ spareShift [5, 129] = 1 ∧ spareShift [5] = 1 ∧ spareShift [128, 129] = 0 := by
  decide +kernel

/-- The noise example of spec/12: with both bases 0, step 37 starts at 37 × 2^40. -/
theorem test_rng_base : rngBaseOf 0 0 37 = 0x0000250000000000 := by decide

/-- The published known-answer vector of Philox4x32-10 at key and counter 0. -/
theorem test_philox_zero :
    [0, 1, 2, 3].map (philoxWord 0 0) = [0x6627E8D5, 0xE169C58D, 0xBC57AC4C, 0x9B00DBD8] := by decide +kernel

/-- The addressing example of spec/26: D1.C17's DRAIN_WAIT_CYCLES, and P2's credit register for VC1, whose high half reads 0. -/
theorem test_counter_addresses :
    rCoreCtrDRAINWAITCYCLES 1 0x11 = 0x2011130 ∧ rFabCredit 2 1 = 0xB0018 ∧
    wideAt 0xB0018 = false ∧ wideAt 0x2011130 = true := by decide +kernel

/-- FIPS 180-4: the digest of "abc" begins with BA7816BF. -/
theorem test_sha256_abc : (sha256 [0x61#8, 0x62#8, 0x63#8]).take 4 = [0xBA#8, 0x78#8, 0x16#8, 0xBF#8] := by decide +kernel

/-- The check value of CRC-32C over the digits 1 to 9. -/
theorem test_crc32c_digits : crc32c ((List.range 9).map (fun i => BitVec.ofNat 8 (0x31 + i))) = 0xE3069283 := by decide +kernel

/-- Three taps of 2, −3, 5 over 3, −5, 7, 11, 2, 9 are 56, 24, −9 and 61, here times the common denominator of the transform. -/
theorem test_winograd_taps :
    [0, 1].map (fun i => wgOut 0 i [3, -5, 7, 11] [2, -3, 5]) = [2 * 56, 2 * 24] ∧
    [0, 1, 2, 3].map (fun i => wgOut 2 i [3, -5, 7, 11, 2, 9] [2, -3, 5]) = [24 * 56, 24 * 24, 24 * -9, 24 * 61] := by
  decide +kernel

/-- The room for the coded form of the grain of spec/11: 34,495,168 bytes (R225), whose 66,060,288 bytes are 33,030,144 elements. -/
theorem test_coded_room :
    (profileOf (leBytes 1 0x14 ++ leBytes 1 Fmt.mxE4m3.code ++ leBytes 1 8 ++ leBytes 1 0 ++ leBytes 4 24576 ++ leBytes 4 24 ++ List.replicate 4 0#8)).map
      (fun p => codecBound p 33030144) = some 34495168 := by decide +kernel

/-- The ADD of spec/12 on 1.5 and 2.25 gives 3.75. -/
theorem test_f32_add : f32Add 0x3FC00000#32 0x40100000#32 = 0x40700000#32 := by decide +kernel

/-- The published vector of AES-256-GCM with key, nonce and one block of zeros. -/
theorem test_gcm_zeros :
    (gcmSeal (List.replicate 32 0#8) (List.replicate 12 0#8) [] (List.replicate 16 0#8)).map BitVec.toNat =
      [0xCE, 0xA7, 0x40, 0x3D, 0x4D, 0x60, 0x6B, 0x6E, 0x07, 0x4E, 0xC5, 0xD3, 0xBA, 0xF3, 0x9D, 0x18,
       0xD0, 0xD1, 0xC8, 0xA7, 0x99, 0x99, 0x6B, 0xF0, 0x26, 0x5B, 0x98, 0xB5, 0xD4, 0x8A, 0xB9, 0x19] := by decide +kernel

end Sys2Proof.Tests
end

section
/-!
PROOFS. Register writes (O31). A whole write of a register through BAR0 first counts the bytes that carry it (R340) and empties
the register's latches (R13); what R11, R355 and R404 then say is one case of `State.writeSlot` each.
-/

namespace Sys2Proof.Machine

/-! ## Bits by their access types -/

/-- Taking the bits of a mask from another number of `n` bits stays within `n` bits. -/
theorem add_land_lt_two_pow_add_land (mask : Nat) {n old v : Nat} (hold : old < 2 ^ n) (hv : v < 2 ^ n) :
    old + (v &&& mask) < 2 ^ n + (old &&& mask) := by
  induction n generalizing mask old v with
  | zero => simp_all
  | succ n ih =>
    have half := ih (mask / 2) (show old / 2 < 2 ^ n by omega) (show v / 2 < 2 ^ n by omega)
    rw [← Nat.and_div_two, ← Nat.and_div_two] at half
    have lowest : old % 2 + (v &&& mask) % 2 ≤ 1 + (old &&& mask) % 2 := by
      have oldBit := Nat.and_mod_two_pow (a := old) (b := mask) (n := 1)
      have newBit := Nat.and_mod_two_pow (a := v) (b := mask) (n := 1)
      rw [Nat.pow_one] at oldBit newBit
      rcases Nat.mod_two_eq_zero_or_one mask with outside | inside
      · rw [outside, Nat.and_zero] at oldBit newBit
        omega
      · rw [inside, Nat.and_one_is_mod, Nat.mod_mod] at oldBit newBit
        omega
    omega

/-- What a write makes of a register fits the register. -/
theorem written_lt (r : RegRow) {old v : Nat} (hold : old < 2 ^ 64) (hv : v < 2 ^ 64) : written r old v < 2 ^ 64 := by
  have merged := add_land_lt_two_pow_add_land (r.rw ||| r.sh) hold hv
  have kept : old &&& (r.rw ||| r.sh) ≤ old := Nat.and_le_left
  unfold written
  omega

/-! ## The state in which a write reaches its register -/

theorem State.served_congr {s t : State} (off : Nat) (ready : t.reg rHubReady = s.reg rHubReady)
    (rails : t.reg rPwrRailOff = s.reg rPwrRailOff) (dies : t.dieReset = s.dieReset) : t.served off = s.served off := by
  unfold State.served State.field
  rw [ready, rails, dies]

/-- The state in which a whole write reaches the register at `off`: the access is counted where it comes through BAR0 (R340),
and the register's latches are empty (R13). -/
def State.atSlot (s : State) (off : Nat) (how : Access) : State :=
  ((s.barRx how.bar (if how.full || wideAt off then 8 else 4)).dropLatch off).dropStaged off

theorem State.reg_atSlot_uncounted (s : State) (off : Nat) {how : Access} (h : how.bar = false) (j : Nat) :
    (s.atSlot off how).reg j = s.reg j := by
  simp [State.atSlot, State.barRx, h, State.reg]

theorem State.reg_atSlot_other (s : State) (off : Nat) (how : Access) {j : Nat} (h : j ≠ rPcieCtrRXBYTES) :
    (s.atSlot off how).reg j = s.reg j := by
  cases hb : how.bar with
  | false => exact s.reg_atSlot_uncounted off hb j
  | true =>
    rw [← s.reg_count_other (if how.full || wideAt off then 8 else 4) h.symm]
    simp [State.atSlot, State.barRx, State.rx, hb, State.reg]

theorem State.counted_atSlot (s : State) (off : Nat) {how : Access} (h : how.bar = true) :
    Counted rPcieCtrRXBYTES (if how.full || wideAt off then 8 else 4) s (s.atSlot off how) := by
  unfold Counted
  rw [← s.reg_count_same]
  simp [State.atSlot, State.barRx, State.rx, h, State.reg]

@[simp] theorem State.dieReset_atSlot (s : State) (off : Nat) (how : Access) : (s.atSlot off how).dieReset = s.dieReset := by
  unfold State.atSlot State.barRx
  split <;> rfl

@[simp] theorem State.presence_atSlot (s : State) (off : Nat) (how : Access) : (s.atSlot off how).presence = s.presence := by
  unfold State.atSlot State.barRx
  split <;> rfl

@[simp] theorem State.served_atSlot (s : State) (off : Nat) (how : Access) (j : Nat) :
    (s.atSlot off how).served j = s.served j :=
  State.served_congr j (s.reg_atSlot_other off how (by decide)) (s.reg_atSlot_other off how (by decide))
    (s.dieReset_atSlot off how)

@[simp] theorem State.setArmed_atSlot (s : State) (off : Nat) (how : Access) (i : Nat) :
    (s.atSlot off how).setArmed i = s.setArmed i := by
  unfold State.setArmed
  rw [s.reg_atSlot_other off how (by decide)]

theorem PlainReg.atSlot {s : State} {off : Nat} {r : RegRow} (h : PlainReg s off r) (how : Access) :
    PlainReg (s.atSlot off how) off r where
  listed := h.listed
  served := by rw [State.served_atSlot, h.served]
  open_ := h.open_
  free i hi := by rw [State.setArmed_atSlot, h.free i hi]
  noRing := h.noRing
  noRule := h.noRule

/-! ## A write at its register -/

/-- R11: a register with no rule of its own takes what its access types make of the write. -/
theorem State.applyWrite_plain {s : State} {off : Nat} {r : RegRow} (h : PlainReg s off r) (v : Nat) :
    s.applyWrite r off v = s.setReg off (written r (s.reg off) v) := by
  have noRule := h.noRule
  simp only [List.mem_cons, List.not_mem_nil, or_false, not_or] at noRule
  obtain ⟨ctrl, index, sel, reset, snap0, snap1⟩ := noRule
  simp [State.applyWrite, ctrl, index, sel, reset, snap0, snap1, h.noRing, written]

theorem State.writeSlot_plain {s : State} {off : Nat} {r : RegRow} (h : PlainReg s off r) (v : Nat) :
    s.writeSlot off v = s.setReg off (written r (s.reg off) v) := by
  rw [← State.applyWrite_plain h v]
  cases inSet : r.cset with
  | none => simp [State.writeSlot, h.listed, h.served, h.open_, inSet]
  | some i => simp [State.writeSlot, h.listed, h.served, h.open_, inSet, h.free i inSet]

/-- R404: without presence a register of the installer's ignores a write. -/
theorem State.writeSlot_absent {s : State} {off : Nat} {r : RegRow} (v : Nat) (listed : findReg off = some r)
    (served : s.served off = true) (installer : r.inst = true) (absent : s.presence = false) :
    s.writeSlot off v = (s.count rSecCtrREGWRITESIGNORED 1).setFlag rSecStatus 5 true := by
  simp [State.writeSlot, listed, served, installer, absent]

/-- R355: a register of an armed set ignores a write. -/
theorem State.writeSlot_armed {s : State} {off i : Nat} {r : RegRow} (v : Nat) (listed : findReg off = some r)
    (served : s.served off = true) (free : r.inst = false) (inSet : r.cset = some i) (armed : s.setArmed i = true) :
    s.writeSlot off v = s.count rTelCtrSHWRITESIGNORED 1 := by
  simp [State.writeSlot, listed, served, free, inSet, armed]

/-! ## The command -/

theorem sameMem_answerNoMem (s u : State) : SameMem s (s.keepSystem (s.keepMem u)) := fun _ => rfl

/-- A whole write at a slot answers what `State.writeSlot` makes of it, with device memory and the system as they were. -/
theorem completes_registerWrite {s : State} {off v : Nat} {how : Access} {P : State → Prop} (aligned : off % 8 = 0)
    (h : P (s.keepSystem (s.keepMem
      ((s.atSlot off how).writeSlot off (if wideAt off then v % 2 ^ 64 else v % 2 ^ 32))))) :
    Completes (.registerWrite off v how) s P := by
  refine ⟨_, ?_, h⟩
  rw [exec_registerWrite, execRegisterWrite, if_pos aligned]
  rfl

theorem registerWriteApplies : Says.RegisterWriteApplies := by
  intro s off v full bar r aligned notRx plain fits
  have whole : (if wideAt off then v % 2 ^ 64 else v % 2 ^ 32) = v := by
    split at fits
    · next wide => rw [if_pos wide, Nat.mod_eq_of_lt fits]
    · next narrow => rw [if_neg narrow, Nat.mod_eq_of_lt fits]
  have short : v < 2 ^ 64 := by split at fits <;> omega
  apply completes_registerWrite aligned
  rw [whole, State.writeSlot_plain (plain.atSlot _), State.reg_atSlot_other s off _ notRx]
  refine ⟨?_, ?_, sameMem_answerNoMem s _, ?_, ?_⟩
  · rw [State.reg_keepSystem, State.reg_keepMem, State.reg_setReg_same,
      Nat.mod_eq_of_lt (written_lt r (s.reg_lt off) short)]
  · intro j hj
    simp only [busRegs, List.mem_cons, List.not_mem_nil, or_false, not_or] at hj
    obtain ⟨notOff, otherThanRx, -⟩ := hj
    rw [State.reg_keepSystem, State.reg_keepMem, State.reg_setReg_other _ _ (Ne.symm notOff),
      State.reg_atSlot_other s off _ otherThanRx]
  · intro engine
    rw [State.reg_keepSystem, State.reg_keepMem, State.reg_setReg_other _ _ notRx, State.reg_atSlot_uncounted s off engine]
  · intro host
    rw [Counted, State.reg_keepSystem, State.reg_keepMem, State.reg_setReg_other _ _ notRx]
    exact s.counted_atSlot off (how := ⟨full, bar⟩) host

theorem registerWriteIgnored : Says.RegisterWriteIgnored := by
  intro s off v full bar r aligned listed served notCount
  simp only [List.mem_cons, List.not_mem_nil, or_false, not_or] at notCount
  obtain ⟨notRx, notIgnored, notStatus, notFrozen⟩ := notCount
  refine ⟨fun installer absent => ?_, fun i free inSet armed => ?_⟩ <;> apply completes_registerWrite aligned
  · rw [State.writeSlot_absent _ listed (by simpa using served) installer (by simpa using absent)]
    refine ⟨?_, ?_, ?_, sameMem_answerNoMem s _⟩
    · rw [State.reg_keepSystem, State.reg_keepMem, State.reg_setFlag_other _ _ _ (Ne.symm notStatus),
        State.reg_count_other _ _ (Ne.symm notIgnored), State.reg_atSlot_other s off _ notRx]
    · rw [Counted, State.reg_keepSystem, State.reg_keepMem, State.reg_setFlag_other _ _ _ (by decide),
        State.reg_count_same, State.reg_atSlot_other s off _ (by decide)]
    · rw [State.flag, State.reg_keepSystem, State.reg_keepMem, State.bit_setFlag_same _ _ _ (by decide)]
  · rw [State.writeSlot_armed _ listed (by simpa using served) free inSet (by simpa using armed)]
    refine ⟨?_, ?_, sameMem_answerNoMem s _⟩
    · rw [State.reg_keepSystem, State.reg_keepMem, State.reg_count_other _ _ (Ne.symm notFrozen),
        State.reg_atSlot_other s off _ notRx]
    · rw [Counted, State.reg_keepSystem, State.reg_keepMem, State.reg_count_same,
        State.reg_atSlot_other s off _ (by decide)]

/-- Settles O31: a write reaches its register with nothing but the received bytes counted, and there is one case of
`State.writeSlot` for R11, for R404 and for R355. -/
theorem registerWrites : Obligations.RegisterWrites := ⟨registerWriteApplies, registerWriteIgnored⟩

end Sys2Proof.Machine
end

section
/-!
PROOFS. What the data path leaves unchanged (O21). A command changes what the form of its answer lets through: `answer` keeps
the state of the system, `answerNoMem` and `answerSysNoMem` keep device memory. What is to be shown of each command is only
which form it has.
-/

namespace Sys2Proof.Machine

/-! ## What each form of answer keeps -/

theorem eq_keepSystem_of_answer {s t u : State} (h : answer s u = .next t) : t = s.keepSystem u :=
  (Host.Outcome.next.inj h).symm

theorem memory_of_answerNoMem {s t u : State} (h : answerNoMem s u = .next t) : t.mem = s.mem ∧ t.badWords = s.badWords := by
  obtain rfl := Host.Outcome.next.inj h
  simp

theorem memory_of_answerSysNoMem {s t u : State} (h : answerSysNoMem s u = .next t) :
    t.mem = s.mem ∧ t.badWords = s.badWords := by
  obtain rfl := Host.Outcome.next.inj h
  simp

/-! ## The form of each command

In the splits over the commands, the lists `Instr.ofDataPath` and `Instr.storesNothing` rule out the commands that they do not
name. The meaning of each other command is the answer of its body, whatever the body is. -/

theorem exec_ofDataPath {c : Instr} (path : Instr.ofDataPath c = true) (s : State) : ∃ u, exec c s = answer s u := by
  cases c <;> cases path <;> exact ⟨_, rfl⟩

theorem exec_storesNothing_ofDataPath {c : Instr} (quiet : Instr.storesNothing c = true) (path : Instr.ofDataPath c = true)
    (s : State) : ∃ u, exec c s = answerNoMem s u := by
  cases c <;> cases path <;> cases quiet <;> exact ⟨_, rfl⟩

/-- R381 gives an overvoltage no behaviour beyond the absolute maximum ratings. -/
theorem volts_of_execOvervoltage_next {volts : Int} {s t : State} (h : execOvervoltage volts s = .next t) :
    -100 ≤ volts ∧ volts ≤ 100 := by
  unfold execOvervoltage at h
  split at h
  · cases h
  · omega

/-- OVERVOLTAGE is the one command here that may give no next state, so that its form rests on `ran`. -/
theorem exec_storesNothing_ofSystem {c : Instr} (quiet : Instr.storesNothing c = true) (system : Instr.ofDataPath c = false)
    {s t : State} (ran : exec c s = .next t) : ∃ u, exec c s = answerSysNoMem s u := by
  cases c with
  | overvoltage volts =>
    obtain ⟨lo, hi⟩ := volts_of_execOvervoltage_next ran
    exact execOvervoltage_form volts s lo hi
  | _ => cases system <;> cases quiet <;> exact ⟨_, rfl⟩

/-! ## The frames -/

theorem exec_ofDataPath_keepsSystem {c : Instr} (path : Instr.ofDataPath c = true) {s t : State} (ran : exec c s = .next t) :
    ∃ u, t = s.keepSystem u := by
  obtain ⟨u, form⟩ := exec_ofDataPath path s
  exact ⟨u, eq_keepSystem_of_answer (form.symm.trans ran)⟩

theorem exec_storesNothing_keepsMemory {c : Instr} (quiet : Instr.storesNothing c = true) {s t : State}
    (ran : exec c s = .next t) : t.mem = s.mem ∧ t.badWords = s.badWords := by
  cases path : Instr.ofDataPath c with
  | true =>
    obtain ⟨u, form⟩ := exec_storesNothing_ofDataPath quiet path s
    exact memory_of_answerNoMem (form.symm.trans ran)
  | false =>
    obtain ⟨u, form⟩ := exec_storesNothing_ofSystem quiet path ran
    exact memory_of_answerSysNoMem (form.symm.trans ran)

/-- Settles O21: by the form in which each command answers. -/
theorem dataPathConfined : Obligations.DataPathConfined := by
  intro c s t ran
  refine ⟨fun path => ?_, fun quiet => exec_storesNothing_keepsMemory quiet ran⟩
  obtain ⟨u, rfl⟩ := exec_ofDataPath_keepsSystem path ran
  simp

end Sys2Proof.Machine
end

section
/-!
PROOFS. The packet in hand. What reading, going on and faulting do to the packet in hand of an engine, to the cores and to device
memory; the commands of a matrix core rest on these rules.
-/

namespace Sys2Proof.Machine

/-! ## Reading back runs and cores -/

theorem State.run_congr {s t : State} (h : t.engines = s.engines) (e : Nat) : t.run e = s.run e := by
  simp only [State.run, State.engine, h]

theorem State.core_congr {s t : State} (h : t.cores = s.cores) (k : Nat) : t.core k = s.core k := by
  simp only [State.core, h]

@[simp] theorem State.run_setRun_same (s : State) (e : Nat) (r : Run) : (s.setRun e r).run e = some r := by
  simp [State.run, State.setRun, State.modEngine]

@[simp] theorem State.setRun_mem (s : State) (e : Nat) (r : Run) : (s.setRun e r).mem = s.mem := rfl
@[simp] theorem State.setRun_cores (s : State) (e : Nat) (r : Run) : (s.setRun e r).cores = s.cores := rfl

@[simp] theorem State.run_modRun_same (s : State) (e : Nat) (f : Run → Run) : (s.modRun e f).run e = (s.run e).map f := by
  simp [State.run, State.modRun, State.modEngine]

@[simp] theorem State.modRun_mem (s : State) (e : Nat) (f : Run → Run) : (s.modRun e f).mem = s.mem := rfl
@[simp] theorem State.modRun_cores (s : State) (e : Nat) (f : Run → Run) : (s.modRun e f).cores = s.cores := rfl

@[simp] theorem State.core_modCore_same (s : State) (k : Nat) (f : Core → Core) : (s.modCore k f).core k = f (s.core k) :=
  State.core_setCore_same s k _

@[simp] theorem State.core_keepSystem (s t : State) (k : Nat) : (s.keepSystem t).core k = t.core k := rfl
@[simp] theorem State.core_keepMem (s t : State) (k : Nat) : (s.keepMem t).core k = t.core k := rfl

theorem InHand.stopped {s : State} {e kind : Nat} {r : Run} (h : InHand s e kind r) : r.stopped = false := by
  have goes := h.goes
  simp only [State.goes, h.run, Bool.and_eq_true, Bool.not_eq_true'] at goes
  obtain ⟨⟨⟨-, stopped⟩, -⟩, -⟩ := goes
  exact stopped

/-- A packet that goes on is in hand. -/
theorem State.exists_run_of_goes {s : State} {e kind : Nat} (h : s.goes e kind = true) : ∃ r, s.run e = some r := by
  unfold State.goes at h
  split at h
  · exact ⟨_, ‹_›⟩
  · cases h

theorem SameMem.of_mem_eq {s t : State} (h : t.mem = s.mem) : SameMem s t := fun _ => by simp only [State.byte, h]

/-! ## Reads -/

/-- `t` is `s` but for what a read may leave behind: the read latches, and a count of received bytes. -/
def ReadOnly (s t : State) : Prop := t = { s with regs := t.regs, latches := t.latches }

theorem ReadOnly.refl (s : State) : ReadOnly s s := rfl

theorem ReadOnly.trans {s t u : State} (h : ReadOnly s t) (g : ReadOnly t u) : ReadOnly s u := by
  unfold ReadOnly at *
  rw [g, h]

theorem ReadOnly.foldl {β : Type} {f : State → β → State} (h : ∀ s b, ReadOnly s (f s b)) (l : List β) (s : State) :
    ReadOnly s (l.foldl f s) := by
  induction l generalizing s with
  | nil => exact ReadOnly.refl s
  | cons b l ih => exact (h s b).trans (ih _)

theorem ReadOnly.dropLatch (s : State) (off : Nat) : ReadOnly s (s.dropLatch off) := rfl

theorem ReadOnly.read64 (s : State) (off : Nat) : ReadOnly s (s.read64 off).1 := ReadOnly.dropLatch s off

theorem ReadOnly.read32 (s : State) (off : Nat) : ReadOnly s (s.read32 off).1 := by
  unfold State.read32
  simp only
  split
  · rfl
  · split
    · rfl
    · split <;> rfl

theorem ReadOnly.setReg (s : State) (off v : Nat) : ReadOnly s (s.setReg off v) := rfl

theorem ReadOnly.count (s : State) (off n : Nat) : ReadOnly s (s.count off n) := ReadOnly.setReg s off _

theorem ReadOnly.exists_read64 (s : State) (off : Nat) : ∃ t, (s.read64 off).1 = t ∧ ReadOnly s t :=
  ⟨_, rfl, ReadOnly.read64 s off⟩

theorem ReadOnly.exists_read32 (s : State) (off : Nat) : ∃ t, (s.read32 off).1 = t ∧ ReadOnly s t :=
  ⟨_, rfl, ReadOnly.read32 s off⟩

/-- In the control space, the states that the reads of a register leave are named before the split over the halves read, so
that checking the split does not evaluate a register. -/
theorem ReadOnly.noteRead (s : State) (a n : Nat) : ReadOnly s (s.noteRead a n) := by
  unfold State.noteRead
  split
  · exact ReadOnly.refl s
  · split
    · refine ReadOnly.foldl (fun t i => ?_) _ s
      dsimp only
      obtain ⟨u64, is64, whole⟩ := ReadOnly.exists_read64 t ((a / 8 + i) * 8 - ctlBase)
      obtain ⟨uLow, isLow, low⟩ := ReadOnly.exists_read32 t ((a / 8 + i) * 8 - ctlBase)
      obtain ⟨uHigh, isHigh, high⟩ := ReadOnly.exists_read32 t ((a / 8 + i) * 8 - ctlBase + 4)
      rw [is64, isLow, isHigh]
      split
      · exact whole
      · exact low
      · exact high
      · exact ReadOnly.refl t
    · split
      · exact ReadOnly.count s _ n
      · exact ReadOnly.refl s

theorem ReadOnly.noteReads (s : State) (l : List (Nat × Nat)) : ReadOnly s (s.noteReads l) := by
  unfold State.noteReads
  exact ReadOnly.foldl (fun t p => ReadOnly.noteRead t p.1 p.2) l s

@[simp] theorem State.noteReads_mem (s : State) (l : List (Nat × Nat)) : (s.noteReads l).mem = s.mem := by
  rw [ReadOnly.noteReads s l]
@[simp] theorem State.noteReads_cores (s : State) (l : List (Nat × Nat)) : (s.noteReads l).cores = s.cores := by
  rw [ReadOnly.noteReads s l]
@[simp] theorem State.core_noteReads (s : State) (l : List (Nat × Nat)) (k : Nat) : (s.noteReads l).core k = s.core k :=
  State.core_congr (State.noteReads_cores s l) k

/-! ## Going on in the item (R93, R98) -/

/-- The command that executes a stream's next instruction, or its next LOAD, finds a stream of a core and a packet that goes on. -/
theorem AtIns.not_barred {s : State} {die c st : Nat} {r : Run} {load : Bool} {d : Due} (h : AtIns s die c st r load d) :
    ¬(2 ≤ st ∨ (!s.goes (streamEngine die c st) 1) = true) := by
  have stream := h.stream
  rw [h.hand.goes]
  simp only [Bool.not_true, Bool.false_eq_true, or_false]
  omega

/-- Going on moves the cursor and may retire the packet; the rest of its run stays. -/
theorem State.settle_form (s : State) (e : Nat) (r : Run) (it : Item) :
    ∃ q : Run, s.settle e r it = s.setRun e q ∧ q.executed = r.executed ∧ q.status = r.status ∧ q.stopped = r.stopped := by
  unfold State.settle
  simp only
  split <;> exact ⟨_, rfl, rfl, rfl, rfl⟩

theorem State.stepIns_form (s : State) (e : Nat) (r : Run) (d : Due) :
    ∃ q : Run, s.stepIns e r d = s.setRun e q ∧ q.executed = r.executed + 1 ∧ q.status = r.status ∧ q.stopped = r.stopped :=
  State.settle_form s e _ d.it

theorem State.stepLoad_form (s : State) (e : Nat) (r : Run) (d : Due) :
    ∃ q : Run, s.stepLoad e r d = s.setRun e q ∧ q.executed = r.executed + 1 ∧ q.status = r.status ∧ q.stopped = r.stopped :=
  State.settle_form s e _ d.it

theorem State.advanced_stepIns (s : State) (e : Nat) {r : Run} (d : Due) (h : r.stopped = false) :
    Advanced e r (s.stepIns e r d) := by
  obtain ⟨q, form, executed, status, stopped⟩ := State.stepIns_form s e r d
  exact ⟨q, by rw [form, State.run_setRun_same], executed, status, stopped.trans h⟩

theorem State.advanced_stepLoad (s : State) (e : Nat) {r : Run} (d : Due) (h : r.stopped = false) :
    Advanced e r (s.stepLoad e r d) := by
  obtain ⟨q, form, executed, status, stopped⟩ := State.stepLoad_form s e r d
  exact ⟨q, by rw [form, State.run_setRun_same], executed, status, stopped.trans h⟩

@[simp] theorem State.stepIns_mem (s : State) (e : Nat) (r : Run) (d : Due) : (s.stepIns e r d).mem = s.mem := by
  obtain ⟨q, form, -⟩ := State.stepIns_form s e r d
  rw [form, State.setRun_mem]
@[simp] theorem State.stepIns_cores (s : State) (e : Nat) (r : Run) (d : Due) : (s.stepIns e r d).cores = s.cores := by
  obtain ⟨q, form, -⟩ := State.stepIns_form s e r d
  rw [form, State.setRun_cores]
@[simp] theorem State.stepLoad_mem (s : State) (e : Nat) (r : Run) (d : Due) : (s.stepLoad e r d).mem = s.mem := by
  obtain ⟨q, form, -⟩ := State.stepLoad_form s e r d
  rw [form, State.setRun_mem]
@[simp] theorem State.stepLoad_cores (s : State) (e : Nat) (r : Run) (d : Due) : (s.stepLoad e r d).cores = s.cores := by
  obtain ⟨q, form, -⟩ := State.stepLoad_form s e r d
  rw [form, State.setRun_cores]
@[simp] theorem State.core_stepLoad (s : State) (e : Nat) (r : Run) (d : Due) (k : Nat) : (s.stepLoad e r d).core k = s.core k :=
  State.core_congr (State.stepLoad_cores s e r d) k

/-! ## Faults (R427, R429) -/

@[simp] theorem State.faultRun_cores (s : State) (e code : Nat) : (s.faultRun e code).cores = s.cores := by
  simp [State.faultRun]

theorem State.faulted_faultRun {s : State} {e code : Nat} {r : Run} (h : s.run e = some r) :
    Faulted e code (s.faultRun e code) := by
  refine ⟨{ r with status := 0x50, fault := code, stopped := true }, ?_, rfl, rfl, rfl⟩
  unfold State.faultRun
  rw [State.run_congr (State.alarm_engines _ _ _), State.run_modRun_same, h, Option.map_some]

theorem State.faulted_memFaultRun {s : State} {e code : Nat} {r : Run} (h : s.run e = some r) :
    Faulted e code (s.memFaultRun e code) := by
  unfold State.memFaultRun
  split
  · next bad =>
    subst bad
    exact State.faulted_faultRun (s := s.memBad) h
  · exact State.faulted_faultRun h

theorem State.faulted_faultIn {s : State} {e : Nat} {r : Run} (code : Nat) (p : Place) (h : s.run e = some r) :
    Faulted e code (s.faultIn e code p) := by
  refine State.faulted_memFaultRun (r := { r with
    recItem := p.item, recInstr := p.instr, recGi := p.gi, recGj := p.gj, recChunk := p.chunk }) ?_
  rw [State.run_modRun_same, h, Option.map_some]

@[simp] theorem State.memFaultRun_cores (s : State) (e code : Nat) : (s.memFaultRun e code).cores = s.cores := by
  unfold State.memFaultRun
  split
  · exact State.faultRun_cores s.memBad e 6
  · exact State.faultRun_cores s e code

@[simp] theorem State.faultIn_cores (s : State) (e code : Nat) (p : Place) : (s.faultIn e code p).cores = s.cores := by
  simp [State.faultIn]

/-! ## A report that writes nothing to the ring in memory (R424, R425) -/

theorem State.ringFree_congr {s t : State} (h : t.regs = s.regs) : t.ringFree = s.ringFree := by
  simp only [State.ringFree, State.ringCap, State.reg, h]

theorem Still.congr {s t : State} (h : Still s) (level : t.tel.level = s.tel.level) (free : t.ringFree = s.ringFree) : Still t := by
  unfold Still at *
  rwa [level, free]

theorem State.writeNow_mem_of_full {s : State} (h : s.ringFree = 0) (source cls kind code : Nat) (body : List Byte) :
    (s.writeNow source cls kind code body).mem = s.mem := by
  have full : State.ringFree { s with tel := { s.tel with seq := s.tel.seq + 1 } } = 0 := (State.ringFree_congr rfl).trans h
  unfold State.writeNow
  simp only [full, if_true]

theorem State.raiseLevel_mem_of_still {s : State} (h : Still s) : s.raiseLevel.mem = s.mem := by
  unfold State.raiseLevel
  simp only
  split
  · rfl
  · split
    · next zero =>
      have full : s.ringFree = 0 := h.resolve_left (fun level => level zero)
      rw [State.count_mem, State.setFlag_mem]
      refine (State.writeNow_mem_of_full ?_ _ _ _ _ _).trans rfl
      exact (State.ringFree_congr rfl).trans full
    · rfl

theorem State.shed_mem (s : State) (r : TelRec) : (s.shed r).mem = s.mem := by
  unfold State.shed
  split <;> rfl

theorem State.countEmitted_mem (s : State) (source cls : Nat) : (s.countEmitted source cls).mem = s.mem := by
  unfold State.countEmitted
  split <;> rfl

theorem State.emit_mem_of_still {s : State} (h : Still s) (source cls kind code : Nat) (body : List Byte) :
    (s.emit source cls kind code body).mem = s.mem := by
  unfold State.emit
  simp only
  split
  · rfl
  · split
    · rw [State.shed_mem, State.countEmitted_mem]
    · refine (State.raiseLevel_mem_of_still ?_).trans rfl
      exact h.congr rfl (State.ringFree_congr rfl)

theorem State.alarm_mem_of_still {s : State} (h : Still s) (source code : Nat) : (s.alarm source code).mem = s.mem := by
  unfold State.alarm
  simp only
  split
  · rfl
  · refine (State.emit_mem_of_still ?_ _ _ _ _ _).trans rfl
    exact h.congr rfl (State.ringFree_congr rfl)

theorem State.ringFree_memBad (s : State) : s.memBad.ringFree = s.ringFree := by
  unfold State.ringFree State.ringCap State.memBad
  rw [State.reg_count_other s (j := rTelRingBytes) 1 (by decide), State.reg_count_other s (j := rTelWriteIndex) 1 (by decide),
    State.reg_count_other s (j := rTelReadIndex) 1 (by decide)]

theorem State.faultRun_mem_of_still {s : State} (h : Still s) (e code : Nat) : (s.faultRun e code).mem = s.mem :=
  (State.alarm_mem_of_still (s := s.modRun e _) (h.congr rfl (State.ringFree_congr rfl)) e code).trans rfl

theorem State.memFaultRun_mem_of_still {s : State} (h : Still s) (e code : Nat) : (s.memFaultRun e code).mem = s.mem := by
  unfold State.memFaultRun
  split
  · exact (State.faultRun_mem_of_still (s := s.memBad) (h.congr rfl (State.ringFree_memBad s)) e 6).trans rfl
  · exact State.faultRun_mem_of_still h e code

theorem State.faultIn_mem_of_still {s : State} (h : Still s) (e code : Nat) (p : Place) : (s.faultIn e code p).mem = s.mem :=
  (State.memFaultRun_mem_of_still (s := s.modRun e _) (h.congr rfl (State.ringFree_congr rfl)) e code).trans rfl

end Sys2Proof.Machine
end

section
/-!
PROOFS. Operand loads (O48). `State.startLoad_eq` says what issuing the LOAD that a stream has next can do; what the operand buffer
holds after a LOAD is written follows its chunks one after another.
-/

namespace Sys2Proof.Machine

/-! ## Issue (R97, R98, R129, R462) -/

/-- The LOAD that a stream issues, with no rows read yet. -/
def Due.loadJob (d : Due) (r : Run) (st : Nat) : LoadJob :=
  { stream := st, dst := (d.it.loadRegion d.x d.chunk).1, len := (d.it.loadRegion d.x d.chunk).2, chunks := [],
    transposed := bitOf d.x.flags 1, started := !bitOf d.x.flags 1,
    fmt := (if d.x.op = 2 then d.it.fb else d.it.fa).code, reads := d.loadRuns, valid := d.loadRows, kj := d.kj,
    kChunk := d.it.q.kChunk, place := { r.placeOf d.x.gi d.x.gj d.x.idx with chunk := d.chunk } }

/-- The rows that a direct LOAD writes, from the bytes it read. -/
def Due.directChunks (d : Due) (data : List (List Byte)) : List (Nat × List Byte) :=
  loadChunks (if d.x.op = 2 then d.it.fb else d.it.fa) d.it.q.kChunk d.kj d.loadRows data

/-- A LOAD joins those of a core whose rows have been read. -/
def Core.addLoad (g : Core) (l : LoadJob) : Core := { g with loads := g.loads ++ [l] }

/-- A LOAD joins those that wait for the transposing buffer of a core. -/
def Core.addTbuf (g : Core) (l : LoadJob) : Core := { g with tbuf := g.tbuf ++ [l] }

/-- A LOAD waits: for an MMA before it, or for the LOADs of its stream in a core. -/
def Due.held (d : Due) (r : Run) (g : Core) (st : Nat) : Bool :=
  d.loadWaits r || g.loads.any (fun l => l.stream == st && (!bitOf d.x.flags 1 || !l.transposed)) ||
    (!bitOf d.x.flags 1 && g.tbuf.any (fun l => l.stream == st))

/-- What issuing the next LOAD of a stream does. -/
theorem State.startLoad_eq {s : State} {die c st : Nat} {r : Run} {d : Due} (h : AtIns s die c st r true d) :
    s.startLoad die c st d.x.op =
      if d.loadRows = 0 ∨ d.kj = 0 then s.stepLoad (streamEngine die c st) r d
      else if d.held r (s.core (coreKey die c)) st then s
      else if bitOf d.x.flags 1 then
        (s.modCore (coreKey die c) (fun g => g.addTbuf (d.loadJob r st))).stepLoad (streamEngine die c st) r d
      else if (s.readRuns d.loadRuns []).2 ≠ 0 then
        s.faultIn (streamEngine die c st) (s.readRuns d.loadRuns []).2 (d.loadJob r st).place
      else ((s.noteReads d.loadRuns).modCore (coreKey die c) (fun g => g.addLoad { d.loadJob r st with
        chunks := d.directChunks (s.readRuns d.loadRuns []).1 })).stepLoad (streamEngine die c st) r d := by
  have next : s.nextLoad r = some d := h.next
  unfold State.startLoad
  simp only [h.hand.run, next, if_neg h.not_barred, ne_eq, not_true_eq_false, if_false, beq_iff_eq]
  rfl

/-- A LOAD of rows that is free does not wait. -/
theorem Due.held_eq_false {s : State} {k st : Nat} {r : Run} {d : Due} (free : s.loadFree k st r d) (rows : d.loadRows ≠ 0)
    (len : d.kj ≠ 0) : d.held r (s.core k) st = false := by
  obtain ⟨mmas, loads, tbuf⟩ := (free.resolve_left rows).resolve_left len
  simp only [Due.held, mmas, Bool.false_or, Bool.or_eq_false_iff, List.any_eq_false, Bool.and_eq_true, beq_iff_eq,
    Bool.or_eq_true, Bool.not_eq_true', Bool.and_eq_false_iff, Bool.not_eq_false']
  constructor
  · rintro l hl ⟨stream, waits⟩
    obtain ⟨across, transposed⟩ := loads l hl stream
    simp [across, transposed] at waits
  · cases across : bitOf d.x.flags 1 with
    | true => exact .inl rfl
    | false => exact .inr (tbuf across)

section
variable {s : State} {die c st : Nat} {r : Run} {d : Due}

/-- A LOAD that does not wait, with rows that can be read where it reads them now, is issued. -/
theorem State.startLoad_issues (at_ : AtIns s die c st r true d) (free : s.loadFree (coreKey die c) st r d)
    (reads : d.loadRows = 0 ∨ d.kj = 0 ∨ bitOf d.x.flags 1 = true ∨ (s.readRuns d.loadRuns []).2 = 0) :
    Advanced (streamEngine die c st) r (s.startLoad die c st d.x.op) ∧
      (s.startLoad die c st d.x.op).mem = s.mem ∧ Loading s (coreKey die c) st d (s.startLoad die c st d.x.op) := by
  have stopped := at_.hand.stopped
  rw [State.startLoad_eq at_]
  unfold Loading
  by_cases empty : d.loadRows = 0 ∨ d.kj = 0
  · simp only [if_pos empty]
    exact ⟨State.advanced_stepLoad s _ d stopped, State.stepLoad_mem .., State.stepLoad_cores ..⟩
  · obtain ⟨rows, len⟩ := not_or.mp empty
    simp only [if_neg empty, Due.held_eq_false free rows len, Bool.false_eq_true, if_false]
    by_cases across : bitOf d.x.flags 1 = true
    · simp only [if_pos across]
      refine ⟨State.advanced_stepLoad _ _ d stopped, State.stepLoad_mem .., d.loadJob r st, ?_⟩
      simp only [State.core_stepLoad, State.core_modCore_same]
      exact ⟨rfl, rfl, rfl, rfl, rfl, rfl⟩
    · have read : (s.readRuns d.loadRuns []).2 = 0 := ((reads.resolve_left rows).resolve_left len).resolve_left across
      simp only [if_neg across, read, ne_eq, not_true_eq_false, if_false]
      refine ⟨State.advanced_stepLoad _ _ d stopped, (State.stepLoad_mem ..).trans (State.noteReads_mem ..),
        { d.loadJob r st with chunks := d.directChunks (s.readRuns d.loadRuns []).1 }, ?_⟩
      simp only [State.core_stepLoad, State.core_modCore_same, State.core_noteReads]
      exact ⟨rfl, rfl, rfl, rfl, rfl⟩

/-- A direct LOAD whose rows cannot be read stops its packet. -/
theorem State.startLoad_faults (at_ : AtIns s die c st r true d) (free : s.loadFree (coreKey die c) st r d)
    (rows : d.loadRows ≠ 0) (len : d.kj ≠ 0) (direct : bitOf d.x.flags 1 = false) (bad : (s.readRuns d.loadRuns []).2 ≠ 0) :
    s.startLoad die c st d.x.op =
      s.faultIn (streamEngine die c st) (s.readRuns d.loadRuns []).2 (d.loadJob r st).place := by
  rw [State.startLoad_eq at_, if_neg (not_or.mpr ⟨rows, len⟩), Due.held_eq_false free rows len, direct, if_neg (by decide),
    if_neg (by decide), if_pos bad]

end

theorem exec_load {s : State} {die c st : Nat} {d : Due} {i : Instr}
    (h : (d.x.op = 1 ∧ i = .loadA die c st) ∨ (d.x.op = 2 ∧ i = .loadB die c st)) :
    exec i s = answer s (s.startLoad die c st d.x.op) := by
  rcases h with ⟨op, rfl⟩ | ⟨op, rfl⟩ <;> rw [op] <;> rfl

theorem execRepeatN_eq {s : State} {die c st : Nat} {r : Run} {d : Due} (h : AtIns s die c st r false d) (op : d.x.op = 4) :
    execRepeatN die c st s = answerNoMem s (s.stepIns (streamEngine die c st) r d) := by
  have next : s.nextIns r = some d := h.next
  unfold execRepeatN
  simp only [h.hand.run, next, if_neg h.not_barred, op, if_true]

theorem loadsIssue : Says.LoadsIssue := by
  rintro s die c st _ r d rfl
  refine ⟨fun i at_ op free => ⟨fun reads => ?_, fun rows len direct bad => ?_⟩, fun at_ op => ?_⟩
  · obtain ⟨advanced, mem, loading⟩ := State.startLoad_issues at_ free reads
    exact ⟨_, exec_load op, advanced, SameMem.of_mem_eq mem, loading⟩
  · refine ⟨_, exec_load op, ?_⟩
    rw [State.startLoad_faults at_ free rows len direct bad]
    exact ⟨State.faulted_faultIn _ _ at_.hand.run, State.faultIn_cores .., fun still =>
      SameMem.of_mem_eq (State.faultIn_mem_of_still still ..)⟩
  · exact ⟨_, execRepeatN_eq at_ op, State.advanced_stepIns s _ d at_.hand.stopped, fun _ => rfl, State.stepIns_cores ..⟩

/-! ## The operand buffer (R98) -/

/-- Writes of a LOAD's chunks leave every byte outside them alone. -/
theorem Tbl.get_foldl_setMany_other {α : Type} [DecidableEq α] (def_ : Nat → α) (dst : Nat) (l : List (Nat × List α)) (m : Tbl α)
    {a : Nat} (h : ∀ p ∈ l, a < dst + p.1 ∨ dst + p.1 + p.2.length ≤ a) :
    Tbl.get def_ (l.foldl (fun m p => Tbl.setMany def_ m (dst + p.1) p.2) m) a = Tbl.get def_ m a := by
  induction l generalizing m with
  | nil => rfl
  | cons q l ih =>
    rw [List.foldl_cons, ih _ (fun p hp => h p (List.mem_cons_of_mem q hp)),
      Tbl.get_setMany_other _ _ _ _ _ (h q List.mem_cons_self)]

theorem Core.obByte_putChunks_other (g : Core) (dst : Nat) (l : List (Nat × List Byte)) {a : Nat}
    (h : ∀ p ∈ l, a < dst + p.1 ∨ dst + p.1 + p.2.length ≤ a) : (g.putChunks dst l).obByte a = g.obByte a :=
  Tbl.get_foldl_setMany_other _ dst l g.ob h

theorem Core.putChunks_cons (g : Core) (dst : Nat) (q : Nat × List Byte) (l : List (Nat × List Byte)) :
    g.putChunks dst (q :: l) = (g.putChunks dst [q]).putChunks dst l := rfl

/-- Chunks that lie apart read back, each at its place. -/
theorem Core.obByte_putChunks_in (g : Core) (dst : Nat) {l : List (Nat × List Byte)} (apart : l.Pairwise ChunksApart)
    {p : Nat × List Byte} (hp : p ∈ l) {j : Nat} (h : j < p.2.length) :
    (g.putChunks dst l).obByte (dst + p.1 + j) = p.2[j] := by
  induction l generalizing g with
  | nil => cases hp
  | cons q l ih =>
    rw [List.pairwise_cons] at apart
    obtain ⟨first, rest⟩ := apart
    rw [Core.putChunks_cons]
    rcases List.mem_cons.mp hp with rfl | later
    · rw [Core.obByte_putChunks_other]
      · exact Tbl.get_setMany_in _ g.ob (dst + p.1) p.2 j h
      · intro q hq
        rcases first q hq with before | after <;> omega
    · exact ih _ rest later

/-! ## LOADs that are written, and the transposing buffer (R98, R130 to R134, R143, R462) -/

@[simp] theorem State.countTbuf_cores (s : State) (die c loads bytes cycles : Nat) (w : Nat × Nat × Nat) :
    (s.countTbuf die c loads bytes cycles w).cores = s.cores := by
  unfold State.countTbuf
  rw [State.count_cores, State.count_cores, State.count_cores, State.count_cores, State.count_cores, State.count_cores]

/-- TBUF_LOADS is none of the other five registers in which the transposing buffer of a core is counted. -/
theorem State.counted_countTbuf (s : State) (die c loads bytes cycles : Nat) (w : Nat × Nat × Nat) :
    Counted (rCoreCtrTBUFLOADS die c) loads s (s.countTbuf die c loads bytes cycles w) := by
  have size : rCoreCtrTBUFBYTES die c ≠ rCoreCtrTBUFLOADS die c := by unfold rCoreCtrTBUFBYTES rCoreCtrTBUFLOADS; omega
  have busy : rCoreCtrTBUFBUSYCYCLES die c ≠ rCoreCtrTBUFLOADS die c := by unfold rCoreCtrTBUFBUSYCYCLES rCoreCtrTBUFLOADS; omega
  have blocks : rCoreCtrREBLOCKBLOCKS die c ≠ rCoreCtrTBUFLOADS die c := by unfold rCoreCtrREBLOCKBLOCKS rCoreCtrTBUFLOADS; omega
  have saturated : rCoreCtrREBLOCKSATURATED die c ≠ rCoreCtrTBUFLOADS die c := by
    unfold rCoreCtrREBLOCKSATURATED rCoreCtrTBUFLOADS; omega
  have range : rCoreCtrREBLOCKRANGE die c ≠ rCoreCtrTBUFLOADS die c := by unfold rCoreCtrREBLOCKRANGE rCoreCtrTBUFLOADS; omega
  unfold Counted State.countTbuf
  rw [State.reg_count_other _ _ range, State.reg_count_other _ _ saturated, State.reg_count_other _ _ blocks,
    State.reg_count_other _ _ busy, State.reg_count_other _ _ size, State.reg_count_same]

/-- The LOAD `l` of a core has been written. -/
def Core.landLoad (g : Core) (l : LoadJob) : Core := { g.putChunks l.dst l.chunks with loads := g.loads.erase l }

/-- The transposing buffer of a core has begun the LOAD `l`, whose rows it has read as `m`. -/
def Core.startTbuf (g : Core) (l m : LoadJob) : Core := { g with tbuf := g.tbuf.erase l, loads := g.loads ++ [m] }

section
variable {s : State} {die c : Nat} {l : LoadJob}

theorem execLoadWritten_eq (tb : Bool) (cycles : Nat) (hd : die < 2) (hc : c < 64)
    (found : (s.core (coreKey die c)).loads.find? (fun x => x.transposed == tb && (tb || x.stream == l.stream)) = some l) :
    execLoadWritten die c l.stream tb cycles s = answerNoMem s (
      if !tb then s.modCore (coreKey die c) (fun g => g.landLoad l)
      else (s.modCore (coreKey die c) (fun g => g.landLoad l)).countTbuf die c 1 (chunkBytes l.chunks) cycles
        (l.blocks, l.saturated, l.rangeCount)) := by
  unfold execLoadWritten
  simp only [found, ne_eq, not_true_eq_false, if_false, if_neg (show ¬(2 ≤ die ∨ 64 ≤ c) by omega)]
  rfl

/-- A LOAD that is written changes its core; one of the transposing buffer is counted besides. -/
theorem loadWritten_lands (tb : Bool) (cycles : Nat) (hd : die < 2) (hc : c < 64)
    (found : (s.core (coreKey die c)).loads.find? (fun x => x.transposed == tb && (tb || x.stream == l.stream)) = some l) :
    Completes (.loadWritten die c l.stream tb cycles) s (fun t =>
      t.core (coreKey die c) = (s.core (coreKey die c)).landLoad l ∧
      (tb = true → Counted (rCoreCtrTBUFLOADS die c) 1 s t) ∧ (tb = false → t.regs = s.regs) ∧ SameMem s t) := by
  have run := execLoadWritten_eq tb cycles hd hc found
  cases tb with
  | false =>
    rw [if_pos (by decide)] at run
    exact ⟨_, run, State.core_modCore_same s _ (fun g => g.landLoad l), fun no => Bool.noConfusion no, fun _ => rfl,
      sameMem_answerNoMem s _⟩
  | true =>
    rw [if_neg (by decide)] at run
    refine ⟨_, run, ?_, fun _ => ?_, fun no => Bool.noConfusion no, sameMem_answerNoMem s _⟩
    · rw [State.core_keepSystem, State.core_keepMem, State.core_congr (State.countTbuf_cores ..), State.core_modCore_same]
    · unfold Counted
      rw [State.reg_keepSystem, State.reg_keepMem]
      exact State.counted_countTbuf (s.modCore (coreKey die c) (fun g => g.landLoad l)) die c 1 _ _ _

/-- A LOAD as the transposing buffer has read it: its rows, re-blocked, and what re-blocking counts (R132, R133). -/
def LoadJob.read (l : LoadJob) (data : List (List Byte)) : LoadJob :=
  let w := tbufChunks ((Fmt.ofCode l.fmt).getD .bf16) l.kChunk l.kj l.valid data
  { l with started := true, chunks := w.1, blocks := w.2.1, saturated := w.2.2.1, rangeCount := w.2.2.2 }

/-- What the transposing buffer does with the LOAD that is due. -/
theorem execTbufLoadStart_eq {live : List LoadJob} (hd : die < 2) (hc : c < 64)
    (waiting : live = (s.core (coreKey die c)).tbuf.filter (fun l => s.goes (streamEngine die c l.stream) 1))
    (due : (live.filter (fun l => l.stream == 1) ++ live.filter (fun l => l.stream == 0)).head? = some l) :
    execTbufLoadStart die c s = answer s (
      if (s.readRuns l.reads []).2 ≠ 0 then s.faultIn (streamEngine die c l.stream) (s.readRuns l.reads []).2 l.place
      else (s.noteReads l.reads).modCore (coreKey die c) (fun g => g.startTbuf l (l.read (s.readRuns l.reads []).1))) := by
  subst waiting
  unfold execTbufLoadStart
  simp only [due, if_neg (show ¬(2 ≤ die ∨ 64 ≤ c) by omega)]
  rfl

/-- The packet of the LOAD that is due goes on. -/
theorem goes_of_head?_due {live q : List LoadJob} (waiting : live = q.filter (fun l => s.goes (streamEngine die c l.stream) 1))
    (due : (live.filter (fun l => l.stream == 1) ++ live.filter (fun l => l.stream == 0)).head? = some l) :
    s.goes (streamEngine die c l.stream) 1 = true := by
  have mem : l ∈ live := by
    rcases List.mem_append.mp (List.mem_of_head? due) with h | h
    · exact (List.mem_filter.mp h).1
    · exact (List.mem_filter.mp h).1
  rw [waiting] at mem
  exact (List.mem_filter.mp mem).2

end

theorem loadsLand : Says.LoadsLand := by
  intro s die c l live hd hc
  refine ⟨fun waiting due => ?_, ?_⟩
  · have runs := execTbufLoadStart_eq hd hc waiting due
    refine ⟨fun read => ?_, fun bad => ?_⟩
    · rw [if_neg (fun bad => bad read)] at runs
      refine ⟨_, runs, SameMem.of_mem_eq (State.noteReads_mem ..), ?_⟩
      simp only [State.core_keepSystem, State.core_modCore_same, State.core_noteReads]
      exact ⟨rfl, rfl, l.read (s.readRuns l.reads []).1, rfl, rfl, rfl, rfl, rfl⟩
    · rw [if_pos bad] at runs
      obtain ⟨r, run⟩ := State.exists_run_of_goes (goes_of_head?_due waiting due)
      exact ⟨_, runs, State.faulted_faultIn _ _ run⟩
  · rintro tb _ cycles rfl found
    obtain ⟨t, next, core, counted, regs, mem⟩ := loadWritten_lands tb cycles hd hc found
    refine ⟨t, next, ?_⟩
    simp only [core]
    exact ⟨rfl, fun a out => Core.obByte_putChunks_other _ l.dst l.chunks out,
      fun apart p hp j h => Core.obByte_putChunks_in _ l.dst apart hp h, counted, regs, mem⟩

/-- Settles O48: issue by `State.startLoad_eq`, landing by the frame of the operand buffer under a LOAD's chunks. -/
theorem loadsOfOperands : Obligations.LoadsOfOperands := ⟨loadsIssue, loadsLand⟩

end Sys2Proof.Machine
end

section
/-!
PROOFS. Plain writes, and what reads and counts leave. In a sound state a plain write is a poke; a write by an engine, wherever
it goes, changes no packet in hand; a read and the counters of the endpoint and of the dies change nothing that a write or a
fault rests on. The codec rests on these rules.
-/

namespace Sys2Proof.Machine

/-! ## Bytes of memory -/

theorem Tbl.setMany_append {α : Type} [DecidableEq α] (d : Nat → α) (t : Tbl α) (k : Nat) (xs ys : List α) :
    Tbl.setMany d t k (xs ++ ys) = Tbl.setMany d (Tbl.setMany d t k xs) (k + xs.length) ys := by
  induction xs generalizing t k with
  | nil => rfl
  | cons x xs ih =>
    rw [List.cons_append, Tbl.setMany, ih, Tbl.setMany, List.length_cons, Nat.add_right_comm, Nat.add_assoc]

theorem Tbl.getMany_add {α : Type} (d : Nat → α) (t : Tbl α) (k m n : Nat) :
    Tbl.getMany d t k (m + n) = Tbl.getMany d t k m ++ Tbl.getMany d t (k + m) n := by
  induction m generalizing k with
  | zero => rw [Nat.zero_add, Nat.add_zero]; rfl
  | succ m ih =>
    rw [Nat.add_right_comm, Tbl.getMany, ih, Tbl.getMany, List.cons_append, Nat.add_right_comm k 1 m, Nat.add_assoc k m 1]

theorem State.poke_append (s : State) (a : Nat) (xs ys : List Byte) :
    s.poke a (xs ++ ys) = (s.poke a xs).poke (a + xs.length) ys := by
  simp only [State.poke, Tbl.setMany_append]

theorem State.poke_nil (s : State) (a : Nat) : s.poke a [] = s := rfl

theorem State.peek_add (s : State) (a m n : Nat) : s.peek a (m + n) = s.peek a m ++ s.peek (a + m) n :=
  Tbl.getMany_add ..

@[simp] theorem State.length_peek (s : State) (a n : Nat) : (s.peek a n).length = n := Tbl.length_getMany ..

theorem State.peek_congr {s t : State} (h : t.mem = s.mem) (a n : Nat) : t.peek a n = s.peek a n := by
  simp only [State.peek, h]

/-- Bytes written as part of a longer run read back at their place in it. -/
theorem State.peek_poke_within (s : State) (a : Nat) (before bs after : List Byte) :
    (s.poke a (before ++ bs ++ after)).peek (a + before.length) bs.length = bs := by
  rw [State.poke_append, State.poke_append, State.peek_poke_other _ _ _ _ _ (.inl (by simp; omega)), State.peek_poke]

/-- Bytes written in two parts, the later one first, read back whole. -/
theorem State.peek_poke_drop_take (s : State) (a n : Nat) (bs : List Byte) :
    ((s.poke (a + n) (bs.drop n)).poke a (bs.take n)).peek a bs.length = bs := by
  have whole : bs.length = (bs.take n).length + (bs.drop n).length := by
    rw [← List.length_append, List.take_append_drop]
  rw [whole, State.peek_add, State.peek_poke, State.peek_poke_other _ _ _ _ _ (.inr (Nat.le_refl _))]
  rcases Nat.le_total n bs.length with long | short
  · rw [List.length_take, Nat.min_eq_left long, State.peek_poke, List.take_append_drop]
  · rw [List.drop_eq_nil_of_le short, List.take_of_length_le short]
    exact List.append_nil bs

@[simp] theorem State.peek_keepSystem (s t : State) (a n : Nat) : (s.keepSystem t).peek a n = t.peek a n := rfl

theorem State.ld_congr {s t : State} (h : t.mem = s.mem) (n a : Nat) : t.ld n a = s.ld n a := by
  rw [State.ld, State.peek_congr h, State.ld]

theorem wrote_poke (s : State) (a : Nat) (bs : List Byte) : Wrote a bs s (s.poke a bs) :=
  ⟨State.peek_poke s a bs, fun x out => Tbl.get_setMany_other memDefault s.mem a bs x out⟩

theorem Wrote.of_mem_eq {s t : State} {a : Nat} {bs : List Byte} (h : t.mem = (s.poke a bs).mem) : Wrote a bs s t := by
  obtain ⟨stands, rest⟩ := wrote_poke s a bs
  exact ⟨(State.peek_congr h _ _).trans stands, fun x out => (SameMem.of_mem_eq h x).trans (rest x out)⟩

theorem leNat_lt (bs : List Byte) : leNat bs < 256 ^ bs.length := by
  induction bs with
  | nil => exact Nat.one_pos
  | cons b bs ih =>
    have byte := b.isLt
    rw [leNat, List.length_cons, Nat.pow_succ]
    omega

theorem State.ld_lt (s : State) (n a : Nat) : s.ld n a < 256 ^ n := by
  have lt := leNat_lt (s.peek a n)
  rwa [State.length_peek] at lt

/-- A number written in `n` bytes as part of a longer run reads back, if it fits. -/
theorem State.ld_poke_within (s : State) (a n x : Nat) (before after : List Byte) (fits : x < 256 ^ n) :
    (s.poke a (before ++ leBytes n x ++ after)).ld n (a + before.length) = x := by
  have stands := State.peek_poke_within s a before (leBytes n x) after
  rw [length_leBytes] at stands
  rw [State.ld, stands, leNat_leBytes, Nat.pow_mul]
  exact Nat.mod_eq_of_lt fits

/-! ## Reads by an engine -/

theorem State.length_poolPeek (s : State) (a n : Nat) : (s.poolPeek a n).length = n := by
  induction n generalizing a with
  | zero => rfl
  | succ n ih => simp [State.poolPeek, ih]

theorem State.length_of_load {s : State} {a n : Nat} {bs : List Byte} (h : s.load a n = .ok bs) : bs.length = n := by
  unfold State.load at h
  split at h
  · split at h
    · cases h
    · cases h; exact State.length_peek ..
  · split at h
    · cases h; simp [State.ctlPeek]
    · split at h
      · cases h; exact State.length_poolPeek ..
      · cases h

theorem State.busReg_modRun (s : State) (e : Nat) (f : Run → Run) (off : Nat) : (s.modRun e f).busReg off = s.busReg off := by
  have value : (s.modRun e f).regVal off = s.regVal off := rfl
  have served : (s.modRun e f).served off = s.served off := rfl
  rw [State.busReg, value, served, State.busReg]

theorem State.ctlPeek_modRun (s : State) (e : Nat) (f : Run → Run) (a n : Nat) :
    (s.modRun e f).ctlPeek a n = s.ctlPeek a n := by
  have latches : (s.modRun e f).latches = s.latches := rfl
  simp only [State.ctlPeek, State.busReg_modRun, latches]

theorem State.poolPeek_modRun (s : State) (e : Nat) (f : Run → Run) (a n : Nat) :
    (s.modRun e f).poolPeek a n = s.poolPeek a n := by
  have host : ∀ o, (s.modRun e f).poolHost o = s.poolHost o := fun _ => rfl
  have mem : (s.modRun e f).host = s.host := rfl
  induction n generalizing a with
  | zero => rfl
  | succ n ih => rw [State.poolPeek, State.poolPeek, ih, host, mem]

/-- What an engine reads does not depend on the packets in hand. -/
theorem State.load_modRun (s : State) (e : Nat) (f : Run → Run) (a n : Nat) : (s.modRun e f).load a n = s.load a n := by
  have bytes : (s.modRun e f).badRange a n = s.badRange a n ∧ (s.modRun e f).peek a n = s.peek a n := ⟨rfl, rfl⟩
  have pool : (s.modRun e f).poolOk a n = s.poolOk a n := rfl
  rw [State.load, bytes.1, bytes.2, State.ctlPeek_modRun, pool, State.poolPeek_modRun, State.load]

/-! ## Writes by an engine change no packet in hand -/

/-- A fold keeps what each of its steps keeps. -/
theorem foldl_keeps {σ β γ : Type} {f : σ → β → σ} {keep : σ → γ} (h : ∀ s b, keep (f s b) = keep s) (l : List β)
    (s : σ) : keep (l.foldl f s) = keep s := by
  induction l generalizing s with
  | nil => rfl
  | cons b l ih => rw [List.foldl_cons, ih, h]

theorem forN_keeps {σ γ : Type} {f : Nat → σ → σ} {keep : σ → γ} (h : ∀ i s, keep (f i s) = keep s) (n : Nat)
    (s : σ) : keep (forN n s f) = keep s := foldl_keeps (fun s i => h i s) (List.range n) s

@[simp] theorem State.ringEnable_engines (s : State) (r v : Nat) : (s.ringEnable r v).engines = s.engines := by
  unfold State.ringEnable
  simp only
  split <;> rfl

@[simp] theorem State.ringDisable_engines (s : State) (r : Nat) : (s.ringDisable r).engines = s.engines := rfl

@[simp] theorem State.writeRingCfg_engines (s : State) (r v : Nat) : (s.writeRingCfg r v).engines = s.engines := by
  unfold State.writeRingCfg
  split
  · split
    · split
      · exact State.ringEnable_engines ..
      · rfl
    · split <;> rfl
  · split
    · exact State.ringEnable_engines ..
    · rfl

@[simp] theorem State.writeCmdCtrl_engines (s : State) (v : Nat) : (s.writeCmdCtrl v).engines = s.engines := by
  unfold State.writeCmdCtrl
  simp only
  split <;> split <;> rfl

@[simp] theorem State.writeReadIndex_engines (s : State) (v : Nat) : (s.writeReadIndex v).engines = s.engines := by
  unfold State.writeReadIndex
  split <;> rfl

@[simp] theorem State.writeSrcSel_engines (s : State) (v : Nat) : (s.writeSrcSel v).engines = s.engines := by
  unfold State.writeSrcSel
  exact foldl_keeps (keep := State.engines) (fun _ _ => State.setReg_engines ..) _ _

@[simp] theorem State.yoyoSnapCopy_engines (s : State) (d : Nat) : (s.yoyoSnapCopy d).engines = s.engines := by
  unfold State.yoyoSnapCopy
  exact forN_keeps (keep := State.engines) (fun _ _ => State.setReg_engines ..) 27 s

/-- Whatever rule a register has, it acts on registers, rings and the reset request. -/
@[simp] theorem State.applyWrite_engines (s : State) (r : RegRow) (off v : Nat) : (s.applyWrite r off v).engines = s.engines := by
  unfold State.applyWrite
  repeat' split
  all_goals simp

@[simp] theorem State.writeSlot_engines (s : State) (off v : Nat) : (s.writeSlot off v).engines = s.engines := by
  unfold State.writeSlot
  repeat' split
  all_goals simp

@[simp] theorem State.write64_engines (s : State) (off v : Nat) : (s.write64 off v).engines = s.engines := by
  rw [State.write64, State.writeSlot_engines, State.dropStaged_engines, State.dropLatch_engines]

@[simp] theorem State.write32_engines (s : State) (off v : Nat) : (s.write32 off v).engines = s.engines := by
  unfold State.write32
  simp only
  split
  · split
    · exact State.writeSlot_engines ..
    · rfl
  · split
    · rfl
    · split
      · rfl
      · rw [State.writeSlot_engines, State.dropStaged_engines]

theorem State.write64s_engines (s : State) (o : Nat) (l : List (Nat × List Byte)) :
    (l.foldl (fun (t : State) c => t.write64 (o + 8 * c.1) (leNat c.2)) s).engines = s.engines := by
  apply foldl_keeps (keep := State.engines)
  intro t c
  rw [State.write64_engines]

theorem State.write32s_engines (s : State) (o : Nat) (l : List (Nat × List Byte)) :
    (l.foldl (fun (t : State) c => t.write32 (o + 4 * c.1) (leNat c.2)) s).engines = s.engines := by
  apply foldl_keeps (keep := State.engines)
  intro t c
  rw [State.write32_engines]

@[simp] theorem State.ctlStore_engines (s : State) (a : Nat) (bs : List Byte) : (s.ctlStore a bs).engines = s.engines := by
  rw [State.ctlStore]
  split
  · exact State.write64s_engines s _ _
  · split
    · exact State.write32s_engines s _ _
    · rfl

@[simp] theorem State.poolPoke_engines (s : State) (a : Nat) (bs : List Byte) : (s.poolPoke a bs).engines = s.engines := by
  induction bs generalizing s a with
  | nil => rfl
  | cons b bs ih =>
    rw [State.poolPoke, ih]
    split <;> rfl

@[simp] theorem State.store_engines (s : State) (eng : Option Nat) (a : Nat) (bs : List Byte) :
    (s.store eng a bs).engines = s.engines := (TelOnly.store s eng a bs).engines_eq

@[simp] theorem State.memBad_engines (s : State) : s.memBad.engines = s.engines := rfl

@[simp] theorem State.put_engines (s : State) (eng : Option Nat) (a : Nat) (bs : List Byte) :
    (s.put eng a bs).1.engines = s.engines := by
  unfold State.put
  simp only
  split
  · rfl
  · split
    · split
      · simp only [State.memBad_engines]
      · split
        · rw [State.memBad_engines, State.store_engines]
        · simp only [State.store_engines]
    · split
      · simp only [State.ctlStore_engines]
      · split
        · rw [State.count_engines, State.poolPoke_engines]
        · rfl

/-! ## What reads and counts leave -/

/-- `t` is `s` but for read latches and counters of the endpoint and of the dies: every register below those is as it was. -/
def CountOnly (s t : State) : Prop := ReadOnly s t ∧ ∀ off, off < 0x70000 → t.reg off = s.reg off

theorem CountOnly.refl (s : State) : CountOnly s s := ⟨ReadOnly.refl s, fun _ _ => rfl⟩

theorem CountOnly.trans {s t u : State} (h : CountOnly s t) (g : CountOnly t u) : CountOnly s u :=
  ⟨h.1.trans g.1, fun off below => (g.2 off below).trans (h.2 off below)⟩

theorem CountOnly.count {s t : State} (h : CountOnly s t) {off : Nat} (n : Nat) (high : 0x70000 ≤ off) :
    CountOnly s (t.count off n) :=
  h.trans ⟨ReadOnly.count t off n, fun j below => State.reg_count_other t n (by omega)⟩

theorem State.exists_read64_reg (s : State) (place off : Nat) : ∃ t, (s.read64 place).1 = t ∧ t.reg off = s.reg off :=
  ⟨_, rfl, rfl⟩

theorem State.exists_read32_reg (s : State) (place off : Nat) : ∃ t, (s.read32 place).1 = t ∧ t.reg off = s.reg off := by
  refine ⟨_, rfl, ?_⟩
  unfold State.read32
  simp only
  split
  · rfl
  · split
    · rfl
    · split <;> rfl

/-- A read leaves every register but the count of received bytes. In the control space, the states that the reads of a register
leave are named before the split over the halves read, so that checking the split does not evaluate a register. -/
theorem CountOnly.noteRead (s : State) (a n : Nat) : CountOnly s (s.noteRead a n) := by
  refine ⟨ReadOnly.noteRead s a n, fun off below => ?_⟩
  unfold State.noteRead
  split
  · rfl
  · split
    · refine foldl_keeps (keep := fun t : State => t.reg off) (fun t i => ?_) _ s
      dsimp only
      obtain ⟨u64, is64, whole⟩ := State.exists_read64_reg t ((a / 8 + i) * 8 - ctlBase) off
      obtain ⟨uLow, isLow, low⟩ := State.exists_read32_reg t ((a / 8 + i) * 8 - ctlBase) off
      obtain ⟨uHigh, isHigh, high⟩ := State.exists_read32_reg t ((a / 8 + i) * 8 - ctlBase + 4) off
      rw [is64, isLow, isHigh]
      split
      · exact whole
      · exact low
      · exact high
      · rfl
    · split
      · exact State.reg_count_other s n (by unfold rPcieCtrRXBYTES; omega)
      · rfl

theorem CountOnly.mem_eq {s t : State} (h : CountOnly s t) : t.mem = s.mem := by rw [h.1]
theorem CountOnly.engines_eq {s t : State} (h : CountOnly s t) : t.engines = s.engines := by rw [h.1]

theorem Still.countOnly {s t : State} (still : Still s) (h : CountOnly s t) : Still t := by
  refine still.congr (by rw [h.1]) ?_
  unfold State.ringFree State.ringCap
  rw [h.2 rTelRingBytes (by decide), h.2 rTelWriteIndex (by decide), h.2 rTelReadIndex (by decide)]

/-- A fault after reads and counts stops the packet in hand, and reports it in a still state without touching memory. -/
theorem State.faulted_of_countOnly {s t : State} {e code : Nat} {r : Run} (run : s.run e = some r) (h : CountOnly s t) :
    Faulted e code (t.faultRun e code) ∧ (Still s → SameMem s (t.faultRun e code)) :=
  ⟨State.faulted_faultRun ((State.run_congr h.engines_eq e).trans run), fun still =>
    SameMem.of_mem_eq ((State.faultRun_mem_of_still (still.countOnly h) e code).trans h.mem_eq)⟩

/-! ## Plain writes in a sound state -/

theorem Sound.congr {s t : State} (h : Sound s) (words : t.badWords = s.badWords) (rails : t.reg rPwrRailOff = s.reg rPwrRailOff)
    (failed : t.stackFail = s.stackFail) (snap : t.snap = s.snap) : Sound t := by
  obtain ⟨clean, alive, free⟩ := h
  refine ⟨words.trans clean, fun n => ?_, ?_⟩
  · rw [State.stackDead, rails, failed]
    exact alive n
  · rw [State.heldRegions, snap]
    exact free

theorem Sound.countOnly {s t : State} (sound : Sound s) (h : CountOnly s t) : Sound t :=
  Sound.congr sound (by rw [h.1]) (h.2 _ (by decide)) (by rw [h.1]) (by rw [h.1])

theorem Sound.poke {s : State} (h : Sound s) (a : Nat) (bs : List Byte) : Sound (s.poke a bs) := Sound.congr h rfl rfl rfl rfl

theorem Sound.store_eq {s : State} (h : Sound s) (eng : Option Nat) (a : Nat) (bs : List Byte) :
    s.store eng a bs = s.poke a bs := by
  obtain ⟨clean, alive, free⟩ := h
  have notHeld : s.heldAt a bs.length = false := by simp [State.heldAt, free]
  rw [State.store, notHeld, alive, Bool.and_false, if_neg Bool.false_ne_true, if_neg Bool.false_ne_true,
    State.storeEcc_of_clean clean]

/-- A write of bytes that lie in memory piece by piece takes effect and does not fault. -/
theorem Sound.put_eq {s : State} (h : Sound s) (eng : Option Nat) (a : Nat) (bs : List Byte)
    (inside : bs.length ≠ 0 → inMem a bs.length = true) : s.put eng a bs = (s.poke a bs, 0) := by
  obtain ⟨clean, alive, -⟩ := id h
  unfold State.put
  by_cases empty : bs.length = 0
  · obtain rfl := List.eq_nil_of_length_eq_zero empty
    rfl
  · have whole : s.partialBad a bs.length = [] := by simp [State.partialBad, clean]
    simp only [if_neg empty, inside empty, alive, whole, h.store_eq, Bool.and_false, Bool.false_eq_true, if_true, if_false,
      ne_eq, not_true_eq_false]

/-- A part of a range that lies in memory piece by piece lies in memory. -/
theorem InOne.inMem {a n : Nat} (h : InOne a n) {o k : Nat} (within : o + k ≤ n) (nonempty : k ≠ 0) :
    inMem (a + o) k = true :=
  h o k (Nat.pos_of_ne_zero nonempty) within

end Sys2Proof.Machine
end

section
/-!
PROOFS. The codec engines (O57, R215, R226, R227). The engine that takes a transfer is marked with it first; what the encode or
the decode then does is one equation each, `State.encodeXfer_eq` and `State.decodeXfer_accepts` or `State.decodeXfer_rejects`.
-/

namespace Sys2Proof.Machine

/-! ## Transfers of a die -/

theorem grainDie_lt (g : Nat) : grainDie g < 2 := Nat.mod_lt _ (by decide)

theorem State.yoyo_congr {s t : State} (h : t.yoyos = s.yoyos) (d : Nat) : t.yoyo d = s.yoyo d := by
  simp only [State.yoyo, h]

theorem State.xferOf_congr {s t : State} (h : t.yoyos = s.yoyos) (g : Nat) : t.xferOf g = s.xferOf g := by
  simp only [State.xferOf, State.yoyo, h]

theorem State.yoyo_modYoyo_same (s : State) {d : Nat} (h : d < 2) (f : Yoyo → Yoyo) :
    (s.modYoyo d f).yoyo d = f (s.yoyo d) := by
  rw [State.modYoyo, State.yoyo_setYoyo _ _ _ h, if_pos rfl]

theorem State.xferOf_eq_of_xfers {s : State} {g : Nat} {f : Xfer} (one : (s.yoyo (grainDie g)).xfers = [f]) (of : f.grain = g) :
    s.xferOf g = some f := by
  simp [State.xferOf, one, of]

/-- A change of a grain's transfers that leaves them its own shows in the first of them. -/
theorem State.xferOf_modXfer (s : State) (g : Nat) {h : Xfer → Xfer} (own : ∀ f, (h f).grain = f.grain) :
    (s.modXfer g h).xferOf g = (s.xferOf g).map h := by
  have kept : (fun x : Xfer => x.grain == g) ∘ (fun x => if x.grain == g then h x else x) = fun x => x.grain == g := by
    funext x
    simp only [Function.comp]
    split
    · rw [own]
    · rfl
  rw [State.xferOf, State.modXfer, State.yoyo_modYoyo_same _ (grainDie_lt g), List.find?_map, kept, ← State.xferOf]
  cases found : s.xferOf g with
  | none => rfl
  | some f =>
    have is : (f.grain == g) = true := List.find?_some (p := fun x : Xfer => x.grain == g) found
    rw [Option.map_some, if_pos is, Option.map_some]

theorem State.codecBusy_modXfer (s : State) (g : Nat) (h : Xfer → Xfer) {d : Nat} (hd : d < 2) :
    ((s.modXfer g h).yoyo d).codecBusy = (s.yoyo d).codecBusy := by
  rw [State.modXfer, State.modYoyo, State.yoyo_setYoyo _ _ _ hd]
  split
  · next same => rw [same]
  · rfl

/-- Changing the transfer that a grain has leaves memory, registers and the engines' marks. -/
theorem State.exists_modXfer {s t : State} {g : Nat} {f : Xfer} {h : Xfer → Xfer} (own : ∀ f, (h f).grain = f.grain)
    (yoyos : t.yoyos = s.yoyos) (found : s.xferOf g = some f) :
    ∃ u, t.modXfer g h = u ∧ u.mem = t.mem ∧ u.regs = t.regs ∧ u.xferOf g = some (h f) ∧
      ∀ d, d < 2 → (u.yoyo d).codecBusy = (s.yoyo d).codecBusy := by
  refine ⟨_, rfl, rfl, rfl, ?_, fun d hd => ?_⟩
  · rw [State.xferOf_modXfer _ _ own, State.xferOf_congr yoyos, found, Option.map_some]
  · rw [State.codecBusy_modXfer _ _ _ hd, State.yoyo_congr yoyos]

theorem State.grain_modYoyo (s : State) (d g : Nat) {f : Yoyo → Yoyo} (keeps : ∀ y, (f y).grains = y.grains) :
    (s.modYoyo d f).grain g = s.grain g := by
  rw [State.grain, State.modYoyo, State.yoyo_setYoyo _ _ _ (grainDie_lt g), State.grain]
  split
  · next same => rw [keeps, same]
  · rfl

theorem State.grain_modXfer (s : State) (g k : Nat) (h : Xfer → Xfer) : (s.modXfer g h).grain k = s.grain k :=
  State.grain_modYoyo (f := fun y => { y with xfers := y.xfers.map (fun x => if x.grain == g then h x else x) }) _ _ _
    (fun _ => rfl)

/-! ## The engine that takes a transfer (R215) -/

/-- Codec engine `i` of a die is busy. -/
def Yoyo.busyWith (y : Yoyo) (i : Nat) : Yoyo := { y with codecBusy := listPut false 4 y.codecBusy i true }

/-- Codec engine `i` has taken the transfer. -/
def Xfer.takenBy (f : Xfer) (i : Nat) : Xfer := { f with engine := some i }

/-- Codec engine `i` of a die has taken the transfer of grain `g`. -/
def State.takeCodec (s : State) (die i g : Nat) : State :=
  (s.modYoyo die (fun y => y.busyWith i)).modXfer g (fun f => f.takenBy i)

theorem State.lt_of_idleCodec {s : State} {d i : Nat} (h : s.idleCodec d = some i) : i < 4 := by
  unfold State.idleCodec findN at h
  exact List.mem_range.mp (List.mem_of_find?_eq_some h)

@[simp] theorem State.takeCodec_regs (s : State) (die i g : Nat) : (s.takeCodec die i g).regs = s.regs := rfl
@[simp] theorem State.takeCodec_mem (s : State) (die i g : Nat) : (s.takeCodec die i g).mem = s.mem := rfl

theorem Sound.takeCodec {s : State} (h : Sound s) (die i g : Nat) : Sound (s.takeCodec die i g) := Sound.congr h rfl rfl rfl rfl

@[simp] theorem State.grain_takeCodec (s : State) (die i g k : Nat) : (s.takeCodec die i g).grain k = s.grain k := by
  rw [State.takeCodec, State.grain_modXfer, State.grain_modYoyo (f := fun y => y.busyWith i) _ _ _ (fun _ => rfl)]

theorem State.codecBusy_takeCodec (s : State) {die i : Nat} (g : Nat) (hd : die < 2) (hi : i < 4) :
    listGet false ((s.takeCodec die i g).yoyo die).codecBusy i = true := by
  rw [State.takeCodec, State.codecBusy_modXfer _ _ _ hd, State.yoyo_modYoyo_same _ hd]
  exact listGet_listPut_same _ _ _ hi

theorem State.xferOf_takeCodec {s : State} {die g : Nat} {f : Xfer} (i : Nat) (of : f.grain = g) (home : grainDie g = die)
    (one : (s.yoyo die).xfers = [f]) : (s.takeCodec die i g).xferOf g = some (f.takenBy i) := by
  subst home
  have kept : ((s.modYoyo (grainDie g) (fun y => y.busyWith i)).yoyo (grainDie g)).xfers = [f] := by
    rw [State.yoyo_modYoyo_same _ (grainDie_lt g)]
    exact one
  rw [State.takeCodec, State.xferOf_modXfer (h := fun f => f.takenBy i) _ _ (fun _ => rfl), State.xferOf_eq_of_xfers kept of,
    Option.map_some]

/-- The one transfer that waits goes to the lowest idle engine, which encodes it, or decodes it once its form has arrived. -/
theorem execCodecDispatch_eq {s : State} {die i : Nat} {f : Xfer} (hd : die < 2) (idle : s.idleCodec die = some i)
    (one : (s.yoyo die).xfers = [f]) (codec : f.codec = true) (engine : f.engine = none) (failed : f.failed = false) :
    execCodecDispatch die s = answer s (
      if f.outbound then (s.takeCodec die i f.grain).encodeXfer die i f.grain
      else if f.arrived then (s.takeCodec die i f.grain).decodeXfer die i f.grain
      else s.takeCodec die i f.grain) := by
  unfold execCodecDispatch
  rw [if_neg (by omega), one, idle]
  cases out : f.outbound <;> simp [codec, engine, failed, out] <;> rfl

/-! ## Encodes (R226) -/

/-- The counters of a codec engine lie among the registers of the dies. -/
theorem le_rCodecCtr (d i : Nat) :
    0x70000 ≤ rCodecCtrENCRAWBYTES d i ∧ 0x70000 ≤ rCodecCtrENCSTOREDBYTES d i ∧ 0x70000 ≤ rCodecCtrZEROBLOCKS d i ∧
      0x70000 ≤ rCodecCtrNANBLOCKS d i ∧ 0x70000 ≤ rCodecCtrDECSTOREDBYTES d i ∧ 0x70000 ≤ rCodecCtrDECRAWBYTES d i ∧
      0x70000 ≤ rCodecCtrBUSYCYCLES d i ∧ 0x70000 ≤ rCodecCtrREJECTED d i := by
  unfold rCodecCtrENCRAWBYTES rCodecCtrENCSTOREDBYTES rCodecCtrZEROBLOCKS rCodecCtrNANBLOCKS rCodecCtrDECSTOREDBYTES
    rCodecCtrDECRAWBYTES rCodecCtrBUSYCYCLES rCodecCtrREJECTED
  omega

/-- What an encode of grain `x` writes: the reference frames, and the stored form of a grain whose policy packs it. -/
def State.putEncoded (s : State) (x : Grain) (out : EncOut) : State :=
  if x.dest = 2 then (s.poke x.rawBase out.raw).poke x.storeAddr out.form else s.poke x.rawBase out.raw

/-- What an encode by engine `i` of a die counts (R231). -/
def State.countEncode (s : State) (d i raw : Nat) (out : EncOut) : State :=
  ((((s.count (rCodecCtrENCRAWBYTES d i) raw).count (rCodecCtrENCSTOREDBYTES d i) out.form.length).count
    (rCodecCtrZEROBLOCKS d i) out.zeros).count (rCodecCtrBUSYCYCLES d i) (ceilDiv raw 512)).count
    (rCodecCtrNANBLOCKS d i) out.nans

/-- A transfer that holds its stored form. -/
def Xfer.encoded (f : Xfer) (out : EncOut) (ready : Bool) : Xfer :=
  { f with codec := false, data := out.form, total := out.form.length, ready := ready }

theorem State.putEncoded_regs (s : State) (x : Grain) (out : EncOut) : (s.putEncoded x out).regs = s.regs := by
  unfold State.putEncoded
  split <;> rfl

theorem State.putEncoded_yoyos (s : State) (x : Grain) (out : EncOut) : (s.putEncoded x out).yoyos = s.yoyos := by
  unfold State.putEncoded
  split <;> rfl

theorem State.countEncode_mem (s : State) (d i raw : Nat) (out : EncOut) : (s.countEncode d i raw out).mem = s.mem := by
  rw [State.countEncode, State.count_mem, State.count_mem, State.count_mem, State.count_mem, State.count_mem]

theorem State.countEncode_yoyos (s : State) (d i raw : Nat) (out : EncOut) : (s.countEncode d i raw out).yoyos = s.yoyos := by
  rw [State.countEncode, State.count_yoyos, State.count_yoyos, State.count_yoyos, State.count_yoyos, State.count_yoyos]

theorem State.counted_countEncode (s : State) (d i raw : Nat) (out : EncOut) :
    Counted (rCodecCtrENCSTOREDBYTES d i) out.form.length s (s.countEncode d i raw out) := by
  have source : rCodecCtrENCRAWBYTES d i ≠ rCodecCtrENCSTOREDBYTES d i := by
    unfold rCodecCtrENCRAWBYTES rCodecCtrENCSTOREDBYTES; omega
  have zeros : rCodecCtrZEROBLOCKS d i ≠ rCodecCtrENCSTOREDBYTES d i := by
    unfold rCodecCtrZEROBLOCKS rCodecCtrENCSTOREDBYTES; omega
  have busy : rCodecCtrBUSYCYCLES d i ≠ rCodecCtrENCSTOREDBYTES d i := by
    unfold rCodecCtrBUSYCYCLES rCodecCtrENCSTOREDBYTES; omega
  have nans : rCodecCtrNANBLOCKS d i ≠ rCodecCtrENCSTOREDBYTES d i := by
    unfold rCodecCtrNANBLOCKS rCodecCtrENCSTOREDBYTES; omega
  unfold Counted State.countEncode
  rw [State.reg_count_other _ _ nans, State.reg_count_other _ _ busy, State.reg_count_other _ _ zeros, State.reg_count_same,
    State.reg_count_other _ _ source]

theorem State.encodeXfer_eq {s : State} {d i g : Nat} {p : Profile} {out : EncOut} (sound : Sound s)
    (profile : profileOf (s.profileBytes d ((s.grain g).profile % 16)) = some p)
    (made : out = codecEncode p g (s.peek (s.grain g).rawBase (s.grain g).fillBytes)) :
    s.encodeXfer d i g = ((s.putEncoded (s.grain g) out).countEncode d i (s.grain g).fillBytes out).modXfer g
      (fun f => f.encoded out ((s.grain g).dest == 2)) := by
  unfold State.encodeXfer
  simp only [profile, ← made, Sound.store_eq sound, Sound.store_eq (Sound.poke sound _ _)]
  rfl

/-- What an encode leaves: the form with its transfer, and the reference frames in place where nothing else is written. -/
theorem State.exists_encodeXfer {s : State} {d i g : Nat} {p : Profile} {out : EncOut} {f : Xfer} (sound : Sound s)
    (profile : profileOf (s.profileBytes d ((s.grain g).profile % 16)) = some p)
    (made : out = codecEncode p g (s.peek (s.grain g).rawBase (s.grain g).fillBytes)) (found : s.xferOf g = some f) :
    ∃ t, s.encodeXfer d i g = t ∧ Counted (rCodecCtrENCSTOREDBYTES d i) out.form.length s t ∧
      ((s.grain g).dest ≠ 2 → t.mem = (s.poke (s.grain g).rawBase out.raw).mem) ∧
      t.xferOf g = some (f.encoded out ((s.grain g).dest == 2)) ∧
      ∀ d, d < 2 → (t.yoyo d).codecBusy = (s.yoyo d).codecBusy := by
  have counted := State.counted_countEncode (s.putEncoded (s.grain g) out) d i (s.grain g).fillBytes out
  obtain ⟨t, done, mem, regs, holds, marks⟩ := State.exists_modXfer (h := fun f => f.encoded out ((s.grain g).dest == 2))
    (t := (s.putEncoded (s.grain g) out).countEncode d i (s.grain g).fillBytes out) (fun _ => rfl)
    ((State.countEncode_yoyos ..).trans (State.putEncoded_yoyos ..)) found
  refine ⟨t, (State.encodeXfer_eq sound profile made).trans done, ?_, fun notPacked => ?_, holds, marks⟩
  · rw [Counted, State.reg, regs, ← State.reg, counted, State.reg, State.putEncoded_regs, ← State.reg]
  · rw [mem, State.countEncode_mem, State.putEncoded, if_neg notPacked]

/-! ## Decodes (R227) -/

/-- A transfer whose raw bytes stand in place. -/
def Xfer.decoded (f : Xfer) : Xfer := { f with codec := false, ready := true }

/-- A transfer whose form was rejected. -/
def Xfer.rejected (f : Xfer) : Xfer := { f with codec := false, failed := true }

/-- What a decode by engine `i` of a die counts before it judges the form (R231). -/
def State.countDecode (s : State) (d i : Nat) (x : Grain) : State :=
  (s.count (rCodecCtrDECSTOREDBYTES d i) x.stored).count (rCodecCtrBUSYCYCLES d i) (decodeCycles x.stored x.fillBytes)

theorem CountOnly.countDecode (s : State) (d i : Nat) (x : Grain) : CountOnly s (s.countDecode d i x) := by
  obtain ⟨-, -, -, -, stored, -, busy, -⟩ := le_rCodecCtr d i
  exact ((CountOnly.refl s).count _ stored).count _ busy

theorem State.countDecode_mem (s : State) (d i : Nat) (x : Grain) : (s.countDecode d i x).mem = s.mem := by
  rw [State.countDecode, State.count_mem, State.count_mem]

theorem State.countDecode_yoyos (s : State) (d i : Nat) (x : Grain) : (s.countDecode d i x).yoyos = s.yoyos := by
  rw [State.countDecode, State.count_yoyos, State.count_yoyos]

theorem State.reg_countDecode_other (s : State) {d i off : Nat} (x : Grain) (stored : rCodecCtrDECSTOREDBYTES d i ≠ off)
    (busy : rCodecCtrBUSYCYCLES d i ≠ off) : (s.countDecode d i x).reg off = s.reg off := by
  rw [State.countDecode, State.reg_count_other _ _ busy, State.reg_count_other _ _ stored]

section
variable {s : State} {d i g : Nat} {f : Xfer}

/-- A form from the host that the decoder accepts: its raw bytes are written. -/
theorem State.decodeXfer_accepts {raw : List Byte} (sound : Sound s) (found : s.xferOf g = some f) (host : f.host = true)
    (accepted : codecDecode (some ((s.grain g).fillBytes, (s.grain g).stored, g)) f.data = some raw) :
    s.decodeXfer d i g = (((s.countDecode d i (s.grain g)).poke (s.grain g).rawBase raw).count (rCodecCtrDECRAWBYTES d i)
      raw.length).modXfer g (fun f => f.decoded) := by
  rw [← Sound.store_eq (Sound.countOnly sound (CountOnly.countDecode s d i (s.grain g))) none]
  unfold State.decodeXfer
  simp only [found, host, Bool.not_true, Bool.false_and, Bool.false_eq_true, if_true, if_false, accepted]
  rfl

/-- A form from the host that the decoder rejects: the restore fails. -/
theorem State.decodeXfer_rejects (found : s.xferOf g = some f) (host : f.host = true)
    (rejected : codecDecode (some ((s.grain g).fillBytes, (s.grain g).stored, g)) f.data = none) :
    s.decodeXfer d i g = ((s.countDecode d i (s.grain g)).count (rCodecCtrREJECTED d i) 1).modXfer g
      (fun f => f.rejected) := by
  unfold State.decodeXfer
  simp only [found, host, Bool.not_true, Bool.false_and, Bool.false_eq_true, if_true, if_false, rejected]
  rfl

theorem State.exists_decodeXfer_accepts {raw : List Byte} (sound : Sound s) (found : s.xferOf g = some f) (host : f.host = true)
    (accepted : codecDecode (some ((s.grain g).fillBytes, (s.grain g).stored, g)) f.data = some raw) :
    ∃ t, s.decodeXfer d i g = t ∧ t.mem = (s.poke (s.grain g).rawBase raw).mem ∧
      Counted (rCodecCtrDECRAWBYTES d i) raw.length s t ∧ t.xferOf g = some f.decoded := by
  have before := State.reg_countDecode_other s (d := d) (i := i) (off := rCodecCtrDECRAWBYTES d i) (s.grain g)
    (by unfold rCodecCtrDECSTOREDBYTES rCodecCtrDECRAWBYTES; omega) (by unfold rCodecCtrBUSYCYCLES rCodecCtrDECRAWBYTES; omega)
  obtain ⟨t, done, mem, regs, holds, -⟩ := State.exists_modXfer (h := fun f => f.decoded)
    (t := ((s.countDecode d i (s.grain g)).poke (s.grain g).rawBase raw).count (rCodecCtrDECRAWBYTES d i) raw.length)
    (fun _ => rfl) (by rw [State.count_yoyos, State.poke_yoyos, State.countDecode_yoyos]) found
  refine ⟨t, (State.decodeXfer_accepts sound found host accepted).trans done, ?_, ?_, holds⟩
  · rw [mem, State.count_mem, State.poke_mem, State.countDecode_mem, State.poke_mem]
  · rw [Counted, State.reg, regs, ← State.reg, State.reg_count_same, State.reg, State.poke_regs, ← State.reg, before]

/-- A rejected form leaves memory as it was (log 26). -/
theorem State.exists_decodeXfer_rejects (found : s.xferOf g = some f) (host : f.host = true)
    (rejected : codecDecode (some ((s.grain g).fillBytes, (s.grain g).stored, g)) f.data = none) :
    ∃ t, s.decodeXfer d i g = t ∧ t.mem = s.mem ∧ Counted (rCodecCtrREJECTED d i) 1 s t ∧
      t.xferOf g = some f.rejected := by
  have before := State.reg_countDecode_other s (d := d) (i := i) (off := rCodecCtrREJECTED d i) (s.grain g)
    (by unfold rCodecCtrDECSTOREDBYTES rCodecCtrREJECTED; omega) (by unfold rCodecCtrBUSYCYCLES rCodecCtrREJECTED; omega)
  obtain ⟨t, done, mem, regs, holds, -⟩ := State.exists_modXfer (h := fun f => f.rejected)
    (t := (s.countDecode d i (s.grain g)).count (rCodecCtrREJECTED d i) 1) (fun _ => rfl)
    (by rw [State.count_yoyos, State.countDecode_yoyos]) found
  refine ⟨t, (State.decodeXfer_rejects found host rejected).trans done, ?_, ?_, holds⟩
  · rw [mem, State.count_mem, State.countDecode_mem]
  · rw [Counted, State.reg, regs, ← State.reg, State.reg_count_same, before]

end

/-! ## What a dispatch leaves -/

theorem codecEngines : Says.CodecEngines := by
  rintro s die i g x f hd home rfl of idle one codec engine failed sound
  have runs := execCodecDispatch_eq hd idle one codec engine failed
  have taken := State.xferOf_takeCodec i of home one
  have busy := State.codecBusy_takeCodec s g hd (State.lt_of_idleCodec idle)
  have soundTaken := Sound.takeCodec sound die i g
  have grain := State.grain_takeCodec s die i g g
  rw [of] at runs
  refine ⟨fun p out outbound profile made => ?_, fun raw inbound host whole accepted => ?_,
    fun inbound host whole rejected => ?_, fun inbound host waits => ?_⟩
  · rw [← grain] at profile made
    obtain ⟨t, done, counted, mem, holds, marks⟩ := State.exists_encodeXfer (d := die) (i := i) soundTaken profile made taken
    rw [if_pos outbound, done] at runs
    rw [grain] at mem
    refine ⟨_, runs, ?_, counted, fun notPacked => Wrote.of_mem_eq ?_, _, holds, rfl, rfl, rfl⟩
    · rw [State.yoyo_congr (s.keepSystem_yoyos t), marks die hd, busy]
    · rw [State.keepSystem_mem, mem notPacked, State.poke_mem, State.takeCodec_mem, State.poke_mem]
  · rw [← grain] at accepted
    obtain ⟨t, done, mem, counted, holds⟩ := State.exists_decodeXfer_accepts (d := die) (i := i) soundTaken taken host
      accepted
    rw [if_neg (by simp [inbound]), if_pos (by simp [Xfer.arrived, whole]), done] at runs
    refine ⟨_, runs, Wrote.of_mem_eq ?_, counted, _, holds, rfl, rfl, failed⟩
    rw [State.keepSystem_mem, mem, grain, State.poke_mem, State.takeCodec_mem, State.poke_mem]
  · rw [← grain] at rejected
    obtain ⟨t, done, mem, counted, holds⟩ := State.exists_decodeXfer_rejects (d := die) (i := i) taken host rejected
    rw [if_neg (by simp [inbound]), if_pos (by simp [Xfer.arrived, whole]), done] at runs
    exact ⟨_, runs, SameMem.of_mem_eq mem, counted, _, holds, rfl⟩
  · rw [if_neg (by simp [inbound]), if_neg (by simp [Xfer.arrived, host, waits])] at runs
    exact ⟨_, runs, SameMem.of_mem_eq rfl, rfl, busy, taken⟩

end Sys2Proof.Machine
end

section
/-!
PROOFS. Codec jobs (O57, R229, R231). A job starts and is carried out in one command; what it then does is one equation for each
way it can end, and the rules of plain writes say what stands in memory afterwards.
-/

namespace Sys2Proof.Machine

/-! ## A job that starts -/

theorem State.packetStep_starts {s u : State} {e kind : Nat} {r : Run} (h : Starts s e kind u r) {mine : Nat → Bool}
    (next : s.nextIs e kind mine = true) (go : State → Run → State) : s.packetStep e kind mine go = go u r := by
  have began : (s.startPacket e kind).run e = some r := h.begun ▸ h.run
  unfold State.packetStep
  simp only [h.idle, next, began, h.goesOn, h.begun, Bool.not_true, Bool.false_eq_true, if_false]

/-- The state in which a job is carried out: its one instruction counts as executed. -/
def State.jobState (s : State) (e : Nat) : State := s.modRun e (fun q => { q with executed := 1 })

theorem State.load_jobState (s : State) (e a n : Nat) : (s.jobState e).load a n = s.load a n := State.load_modRun ..

@[simp] theorem State.jobState_mem (s : State) (e : Nat) : (s.jobState e).mem = s.mem := rfl

theorem State.run_jobState {s : State} {e : Nat} {r : Run} (h : s.run e = some r) :
    (s.jobState e).run e = some { r with executed := 1 } := by
  rw [State.jobState, State.run_modRun_same, h, Option.map_some]

theorem Sound.jobState {s : State} (h : Sound s) (e : Nat) : Sound (s.jobState e) := Sound.congr h rfl rfl rfl rfl

theorem Still.jobState {s : State} (h : Still s) (e : Nat) : Still (s.jobState e) := Still.congr h rfl (State.ringFree_congr rfl)

section
variable {s u : State} {die unit : Nat} {r : Run} {j : CJob}

/-- A job that starts is carried out at once (R38). -/
theorem State.cjob_starts (h : Starts s (engineId 6 die unit) 7 u r) (job : j = u.cjobOf r.body) {op : Nat}
    (next : s.nextIs (engineId 6 die unit) 7 (fun b => s.ld 1 b == op) = true) :
    s.cjob die unit op =
      if op = 1 then (u.jobState (engineId 6 die unit)).cjobEncode (engineId 6 die unit) j
      else (u.jobState (engineId 6 die unit)).cjobDecode (engineId 6 die unit) j := by
  rw [State.cjob, State.packetStep_starts h next, job]
  rfl

theorem exec_encode_starts (h : Starts s (engineId 6 die unit) 7 u r) (job : j = u.cjobOf r.body)
    (next : s.nextIs (engineId 6 die unit) 7 (fun b => s.ld 1 b == 1) = true) :
    exec (.encode die unit) s = answer s ((u.jobState (engineId 6 die unit)).cjobEncode (engineId 6 die unit) j) := by
  rw [exec_encode, execEncode, State.cjob_starts h job next, if_pos rfl]

theorem exec_decode_starts (h : Starts s (engineId 6 die unit) 7 u r) (job : j = u.cjobOf r.body)
    (next : s.nextIs (engineId 6 die unit) 7 (fun b => s.ld 1 b == 2) = true) :
    exec (.decode die unit) s = answer s ((u.jobState (engineId 6 die unit)).cjobDecode (engineId 6 die unit) j) := by
  rw [exec_decode, execDecode, State.cjob_starts h job next, if_neg (by decide)]

end

/-- A job that faults after reads and counts stops, and in a still state leaves memory as it was when it started. -/
theorem State.faulted_job {u w : State} {e code : Nat} {r : Run} (run : u.run e = some r) (counts : CountOnly (u.jobState e) w) :
    Faulted e code (w.faultRun e code) ∧ (Still u → SameMem u (w.faultRun e code)) := by
  obtain ⟨faulted, same⟩ := State.faulted_of_countOnly (code := code) (State.run_jobState run) counts
  exact ⟨faulted, fun still => same (Still.jobState still e)⟩

/-- The lengths that a job's body gives are four bytes each (R229). -/
theorem State.cjobOf_lt (s : State) (b : Nat) : (s.cjobOf b).raw < 256 ^ 4 ∧ (s.cjobOf b).limit < 256 ^ 4 :=
  ⟨State.ld_lt .., State.ld_lt ..⟩

/-! ## The status record (R229) -/

/-- The status record of a codec job. -/
def cjobRecord (stored raw : Nat) : List Byte := leBytes 4 stored ++ leBytes 4 raw ++ List.replicate 8 0#8

theorem length_cjobRecord (stored raw : Nat) : (cjobRecord stored raw).length = 16 := by simp [cjobRecord]

theorem State.ld_cjobRecord_stored (s : State) (a : Nat) {stored : Nat} (raw : Nat) (fits : stored < 256 ^ 4) :
    (s.poke a (cjobRecord stored raw)).ld 4 a = stored := by
  have stands := State.ld_poke_within s a 4 stored [] (leBytes 4 raw ++ List.replicate 8 0#8) fits
  rwa [List.nil_append, ← List.append_assoc] at stands

theorem State.ld_cjobRecord_raw (s : State) (a stored : Nat) {raw : Nat} (fits : raw < 256 ^ 4) :
    (s.poke a (cjobRecord stored raw)).ld 4 (a + 4) = raw := by
  have stands := State.ld_poke_within s a 4 raw (leBytes 4 stored) (List.replicate 8 0#8) fits
  rwa [length_leBytes] at stands

/-- Bytes apart from a status record read as before it was written. -/
theorem State.peek_beside_cjobRecord {m t : State} {status stored raw a n : Nat}
    (mem : t.mem = (m.poke status (cjobRecord stored raw)).mem) (apart : Apart a n status 16) : t.peek a n = m.peek a n := by
  rw [State.peek_congr mem, State.peek_poke_other _ _ _ _ _ (by rw [length_cjobRecord]; exact apart)]

theorem Sound.cjobStatus_eq {s : State} (h : Sound s) (e : Nat) (j : CJob) (stored raw : Nat) (inside : InOne j.status 16) :
    s.cjobStatus e j stored raw = (s.poke j.status (cjobRecord stored raw)).retire e := by
  have put := Sound.put_eq h (some e) j.status (cjobRecord stored raw) (fun _ => by
    rw [length_cjobRecord]
    exact InOne.inMem (o := 0) inside (by omega) (by omega))
  unfold State.cjobStatus
  rw [← cjobRecord, put]
  rfl

theorem State.retired_retire {s : State} {e : Nat} {r : Run} (run : s.run e = some r) (going : r.stopped = false) :
    Retired e (s.retire e) :=
  ⟨{ r with retired := true }, by rw [State.retire, State.run_modRun_same, run, Option.map_some], rfl, going⟩

/-! ## Encode jobs -/

theorem State.noteRead_engines (s : State) (a n : Nat) : (s.noteRead a n).engines = s.engines :=
  (CountOnly.noteRead s a n).engines_eq

theorem State.draw_engines (s : State) (site : Nat) : (s.draw site).1.engines = s.engines := rfl

section
variable {s : State} {e : Nat} {j : CJob}

theorem State.cjobEncode_noProfile (h : profileOf j.profile = none) : s.cjobEncode e j = s.faultRun e 1 := by
  simp only [State.cjobEncode, h]

/-- Past dst_limit a job stops; what it has written changes no packet in hand. -/
theorem State.cjobEncode_overflows {p : Profile} {raw : List Byte} (profile : profileOf j.profile = some p)
    (read : s.load j.src j.raw = .ok raw) (long : j.limit < (codecEncode p 0xFFFFF raw).form.length) :
    ∃ w : State, w.engines = s.engines ∧ s.cjobEncode e j = w.faultRun e 4 := by
  simp only [State.cjobEncode, profile, read, if_neg (Nat.not_le.mpr long)]
  refine ⟨_, ?_, rfl⟩
  rw [State.count_engines, State.count_engines, State.count_engines, State.count_engines, State.noteRead_engines,
    State.put_engines, State.put_engines, State.draw_engines, State.draw_engines, State.draw_engines]

/-- The bytes that an encode job writes before its status record: the reference frames, then the form with its header last. -/
def State.putJobForm (s : State) (j : CJob) (out : EncOut) : State :=
  ((s.poke j.src out.raw).poke (j.dst + 64) (out.form.drop 64)).poke j.dst (out.form.take 64)

theorem Sound.putJobForm (h : Sound s) (j : CJob) (out : EncOut) : Sound (s.putJobForm j out) :=
  Sound.poke (Sound.poke (Sound.poke h _ _) _ _) _ _

theorem State.putJobForm_engines (s : State) (j : CJob) (out : EncOut) : (s.putJobForm j out).engines = s.engines := rfl

theorem State.peek_putJobForm_form (s : State) (j : CJob) (out : EncOut) :
    (s.putJobForm j out).peek j.dst out.form.length = out.form := State.peek_poke_drop_take ..

/-- Reference frames apart from the form are not overwritten by it. -/
theorem State.peek_putJobForm_frames (s : State) {out : EncOut} (apart : Apart j.src out.raw.length j.dst out.form.length) :
    (s.putJobForm j out).peek j.src out.raw.length = out.raw := by
  unfold Apart at apart
  rw [State.putJobForm, State.peek_poke_other _ _ _ _ _ (by rw [List.length_take]; omega)]
  rcases Nat.le_total out.form.length 64 with short | long
  · rw [List.drop_eq_nil_of_le short, State.poke_nil, State.peek_poke]
  · rw [State.peek_poke_other _ _ _ _ _ (by rw [List.length_drop]; omega), State.peek_poke]

theorem Sound.cjobEncode_fits {p : Profile} {raw : List Byte} {out : EncOut} (sound : Sound s)
    (profile : profileOf j.profile = some p) (read : s.load j.src j.raw = .ok raw) (made : out = codecEncode p 0xFFFFF raw)
    (fits : out.form.length ≤ j.limit) (source : InOne j.src out.raw.length) (dest : InOne j.dst out.form.length) :
    ∃ w, CountOnly (s.putJobForm j out) w ∧ s.cjobEncode e j = w.cjobStatus e j out.form.length raw.length := by
  have frames := Sound.put_eq sound (some e) j.src out.raw (fun h => InOne.inMem (o := 0) source (by omega) h)
  have body := Sound.put_eq (Sound.poke sound j.src out.raw) (some e) (j.dst + 64) (out.form.drop 64) (fun h =>
    InOne.inMem dest (by rw [List.length_drop] at *; omega) h)
  have head := Sound.put_eq (Sound.poke (Sound.poke sound j.src out.raw) (j.dst + 64) (out.form.drop 64)) (some e) j.dst
    (out.form.take 64) (fun h => InOne.inMem (o := 0) dest (by rw [List.length_take]; omega) h)
  have noFault : firstFault [0, 0, 0] = 0 := rfl
  obtain ⟨source, stored, zeros, nans, -⟩ := le_rCodecCtr (engDie e) (engInst e)
  simp only [State.cjobEncode, profile, read, ← made, if_pos fits, frames, body, head, noFault, ne_eq, not_true_eq_false,
    if_false]
  exact ⟨_, ((((CountOnly.noteRead _ j.src raw.length).count raw.length source).count out.form.length stored).count out.zeros
    zeros).count out.nans nans, rfl⟩

end

/-! ## Decode jobs -/

section
variable {s : State} {e : Nat} {j : CJob} {head form : List Byte}

/-- A form whose header is not one, or whose raw bytes pass dst_limit, stops its job before the rest of it is read. -/
theorem State.cjobDecode_badHead (read : s.load j.src 64 = .ok head)
    (bad : formHead head = false ∨ j.limit < fieldAt head 0x18 4) :
    ∃ w, CountOnly s w ∧ s.cjobDecode e j = w.faultRun e 1 := by
  obtain ⟨-, -, -, -, -, -, -, rejected⟩ := le_rCodecCtr (engDie e) (engInst e)
  unfold fieldAt at bad
  simp only [State.cjobDecode, read]
  cases isHead : formHead head with
  | false => exact ⟨_, (CountOnly.refl s).count 1 rejected, rfl⟩
  | true =>
    have long := bad.resolve_left (by rw [isHead]; decide)
    exact ⟨s, CountOnly.refl s, by rw [if_neg (by decide), if_pos long]⟩

/-- What a decode job counts once it has read the whole form. -/
def State.countForm (s : State) (e : Nat) (j : CJob) (form : List Byte) : State :=
  (s.noteRead j.src form.length).count (rCodecCtrDECSTOREDBYTES (engDie e) (engInst e)) form.length

theorem CountOnly.countForm (s : State) (e : Nat) (j : CJob) (form : List Byte) : CountOnly s (s.countForm e j form) := by
  obtain ⟨-, -, -, -, stored, -⟩ := le_rCodecCtr (engDie e) (engInst e)
  exact (CountOnly.noteRead s j.src form.length).count _ stored

variable (readHead : s.load j.src 64 = .ok head) (isHead : formHead head = true) (short : fieldAt head 0x18 4 ≤ j.limit)
  (read : s.load j.src (if fieldAt head 0x1C 4 < 64 then 64 else fieldAt head 0x1C 4) = .ok form)
include readHead isHead short read

theorem State.cjobDecode_rejects (rejected : codecDecode none form = none) :
    ∃ w, CountOnly s w ∧ s.cjobDecode e j = w.faultRun e 1 := by
  obtain ⟨-, -, -, -, -, -, -, counter⟩ := le_rCodecCtr (engDie e) (engInst e)
  unfold fieldAt at short read
  simp only [State.cjobDecode, readHead, isHead, if_neg (Nat.not_lt.mpr short), read, rejected, Bool.not_true, Bool.false_eq_true,
    if_false]
  exact ⟨_, (CountOnly.countForm s e j form).count 1 counter, rfl⟩

theorem Sound.cjobDecode_accepts {raw : List Byte} (sound : Sound s) (accepted : codecDecode none form = some raw)
    (dest : InOne j.dst raw.length) :
    ∃ w, CountOnly ((s.countForm e j form).poke j.dst raw) w ∧
      s.cjobDecode e j = w.cjobStatus e j (fieldAt head 0x1C 4) raw.length := by
  obtain ⟨-, -, -, -, -, counter, -⟩ := le_rCodecCtr (engDie e) (engInst e)
  have put := Sound.put_eq (Sound.countOnly sound (CountOnly.countForm s e j form)) (some e) j.dst raw
    (fun h => InOne.inMem (o := 0) dest (by omega) h)
  unfold State.countForm at put
  unfold fieldAt at short read
  simp only [State.cjobDecode, readHead, isHead, if_neg (Nat.not_lt.mpr short), read, accepted, put, Bool.not_true,
    Bool.false_eq_true, if_false, ne_eq, not_true_eq_false]
  exact ⟨_, (CountOnly.refl _).count raw.length counter, rfl⟩

end

/-! ## The two kinds of job -/

/-- A job that has written its status record after `w` is done, with memory as `w` had it but for the record. -/
theorem State.exists_jobDone {u w m : State} {e : Nat} {j : CJob} {r : Run} (sound : Sound m) (counts : CountOnly m w)
    (engines : m.engines = u.engines) (run : u.run e = some r) (going : r.stopped = false) (inside : InOne j.status 16)
    (stored raw : Nat) :
    ∃ t, w.cjobStatus e j stored raw = t ∧ Retired e t ∧ t.mem = (m.poke j.status (cjobRecord stored raw)).mem := by
  refine ⟨_, Sound.cjobStatus_eq (Sound.countOnly sound counts) e j stored raw inside,
    State.retired_retire (r := r) ?_ going, ?_⟩
  · exact (State.run_congr (counts.engines_eq.trans engines) e).trans run
  · rw [State.retire, State.modRun_mem, State.poke_mem, counts.mem_eq, State.poke_mem]

/-- A field of `n` bytes fits `n` bytes. -/
theorem fieldAt_lt (bs : List Byte) (o n : Nat) : fieldAt bs o n < 256 ^ n :=
  Nat.lt_of_lt_of_le (leNat_lt _) (Nat.pow_le_pow_right (by decide) (List.length_take_le ..))

section
variable {s u : State} {die unit : Nat} {r : Run} {j : CJob}

/-- An encode job whose form fits leaves the form, the reference frames and the record in their places, which lie apart. -/
theorem encode_completes {p : Profile} {raw : List Byte} {out : EncOut} (starts : Starts s (engineId 6 die unit) 7 u r)
    (job : j = u.cjobOf r.body) (next : s.nextIs (engineId 6 die unit) 7 (fun b => s.ld 1 b == 1) = true)
    (profile : profileOf j.profile = some p) (read : u.load j.src j.raw = .ok raw) (made : out = codecEncode p 0xFFFFF raw)
    (fits : out.form.length ≤ j.limit) (sound : Sound u) (source : InOne j.src out.raw.length)
    (dest : InOne j.dst out.form.length) (status : InOne j.status 16)
    (sourceDest : Apart j.src out.raw.length j.dst out.form.length) (sourceStatus : Apart j.src out.raw.length j.status 16)
    (destStatus : Apart j.dst out.form.length j.status 16) :
    Completes (.encode die unit) s (fun t => Retired (engineId 6 die unit) t ∧ t.peek j.src out.raw.length = out.raw ∧
      t.peek j.dst out.form.length = out.form ∧ t.ld 4 j.status = out.form.length ∧ t.ld 4 (j.status + 4) = raw.length) := by
  have runs := exec_encode_starts starts job next
  have soundJob := Sound.jobState sound (engineId 6 die unit)
  obtain ⟨w, counts, encodes⟩ := Sound.cjobEncode_fits (e := engineId 6 die unit) soundJob profile
    ((State.load_jobState ..).trans read) made fits source dest
  obtain ⟨t, done, retired, mem⟩ := State.exists_jobDone (Sound.putJobForm soundJob j out) counts
    (State.putJobForm_engines ..) (State.run_jobState starts.run) starts.goesOn status out.form.length raw.length
  obtain ⟨rawFits, limitFits⟩ := State.cjobOf_lt u r.body
  rw [← job] at rawFits limitFits
  rw [← State.length_of_load read] at rawFits
  rw [encodes, done] at runs
  refine ⟨_, runs, retired, ?_, ?_, ?_, ?_⟩
  · rw [State.peek_keepSystem, State.peek_beside_cjobRecord mem sourceStatus, State.peek_putJobForm_frames _ sourceDest]
  · rw [State.peek_keepSystem, State.peek_beside_cjobRecord mem destStatus, State.peek_putJobForm_form]
  · exact (State.ld_congr mem 4 j.status).trans (State.ld_cjobRecord_stored _ _ _ (Nat.lt_of_le_of_lt fits limitFits))
  · exact (State.ld_congr mem 4 (j.status + 4)).trans (State.ld_cjobRecord_raw _ _ _ rawFits)

/-- An encode job stops with an overflow past dst_limit. -/
theorem encode_overflows {p : Profile} {raw : List Byte} (starts : Starts s (engineId 6 die unit) 7 u r)
    (job : j = u.cjobOf r.body) (next : s.nextIs (engineId 6 die unit) 7 (fun b => s.ld 1 b == 1) = true)
    (profile : profileOf j.profile = some p) (read : u.load j.src j.raw = .ok raw)
    (long : j.limit < (codecEncode p 0xFFFFF raw).form.length) :
    Completes (.encode die unit) s (Faulted (engineId 6 die unit) 4) := by
  obtain ⟨w, engines, stops⟩ := State.cjobEncode_overflows (e := engineId 6 die unit) profile
    ((State.load_jobState ..).trans read) long
  have runs := exec_encode_starts starts job next
  rw [stops] at runs
  exact ⟨_, runs, State.faulted_faultRun ((State.run_congr engines _).trans (State.run_jobState starts.run))⟩

/-- A decode job of a form that the decoder accepts leaves the raw bytes and the record in their places, which lie apart. -/
theorem decode_completes {head form raw : List Byte} (starts : Starts s (engineId 6 die unit) 7 u r)
    (job : j = u.cjobOf r.body) (next : s.nextIs (engineId 6 die unit) 7 (fun b => s.ld 1 b == 2) = true)
    (readHead : u.load j.src 64 = .ok head)
    (read : u.load j.src (if fieldAt head 0x1C 4 < 64 then 64 else fieldAt head 0x1C 4) = .ok form)
    (short : fieldAt head 0x18 4 ≤ j.limit) (isHead : formHead head = true) (accepted : codecDecode none form = some raw)
    (sound : Sound u) (dest : InOne j.dst raw.length) (status : InOne j.status 16)
    (destStatus : Apart j.dst raw.length j.status 16) :
    Completes (.decode die unit) s (fun t => Retired (engineId 6 die unit) t ∧ t.peek j.dst raw.length = raw ∧
      t.ld 4 j.status = fieldAt head 0x1C 4) := by
  have runs := exec_decode_starts starts job next
  have soundJob := Sound.jobState sound (engineId 6 die unit)
  have counted := CountOnly.countForm (u.jobState (engineId 6 die unit)) (engineId 6 die unit) j form
  obtain ⟨w, counts, decodes⟩ := Sound.cjobDecode_accepts (e := engineId 6 die unit) ((State.load_jobState ..).trans readHead)
    isHead short ((State.load_jobState ..).trans read) soundJob accepted dest
  obtain ⟨t, done, retired, mem⟩ := State.exists_jobDone (Sound.poke (Sound.countOnly soundJob counted) j.dst raw) counts
    ((State.poke_engines ..).trans counted.engines_eq) (State.run_jobState starts.run) starts.goesOn status
    (fieldAt head 0x1C 4) raw.length
  rw [decodes, done] at runs
  refine ⟨_, runs, retired, ?_, ?_⟩
  · rw [State.peek_keepSystem, State.peek_beside_cjobRecord mem destStatus, State.peek_poke]
  · exact (State.ld_congr mem 4 j.status).trans (State.ld_cjobRecord_stored _ _ _ (fieldAt_lt ..))

end

theorem codecJobs : Says.CodecJobs := by
  intro s u die unit r j starts job
  refine ⟨fun p raw out next profile read made => ⟨fun fits sound source dest status sourceDest sourceStatus destStatus =>
    encode_completes starts job next profile read made fits sound source dest status sourceDest sourceStatus destStatus,
    fun long => encode_overflows starts job next profile read (made ▸ long)⟩, fun next noProfile => ?_, ?_,
    fun head next read bad => ?_⟩
  · have runs := exec_encode_starts starts job next
    rw [State.cjobEncode_noProfile noProfile] at runs
    exact ⟨_, runs, State.faulted_job starts.run (CountOnly.refl _)⟩
  · rintro head form stored next readHead rfl read short isHead
    refine ⟨fun raw accepted sound dest status destStatus =>
      decode_completes starts job next readHead read short isHead accepted sound dest status destStatus, fun rejected => ?_⟩
    obtain ⟨w, counts, stops⟩ := State.cjobDecode_rejects (e := engineId 6 die unit) ((State.load_jobState ..).trans readHead)
      isHead short ((State.load_jobState ..).trans read) rejected
    have runs := exec_decode_starts starts job next
    rw [stops] at runs
    exact ⟨_, runs, State.faulted_job starts.run counts⟩
  · obtain ⟨w, counts, stops⟩ := State.cjobDecode_badHead (e := engineId 6 die unit)
      ((State.load_jobState ..).trans read) bad
    have runs := exec_decode_starts starts job next
    rw [stops] at runs
    exact ⟨_, runs, State.faulted_job starts.run counts⟩

/-- Settles O57: an engine's work on a transfer by the equations of `State.encodeXfer` and `State.decodeXfer`; a job by one
equation for each way it ends, with plain writes read back in a sound state. -/
theorem codec : Obligations.Codec := ⟨codecEngines, codecJobs⟩

end Sys2Proof.Machine
end
